-- ==== Sys2Proof/Word.lean ====
section
/-! DEFINITION. The machine's word types: 64-bit words, bytes, 128-bit operator words, register numbers. -/

namespace Sys2Proof

/-- A 64-bit register, payload or address (04 R106, 01 R16, 02 R49). -/
abbrev Word := BitVec 64

/-- The unit of addressing (02 R45). -/
abbrev Byte := BitVec 8

/-- An operator or route word (03 R70). -/
abbrev Word128 := BitVec 128

/-- A Hawk register number, x0 to x31 or d0 to d31 (03 R80). -/
abbrev Reg := BitVec 5

end Sys2Proof
end

