-- ==== Sys2Proof/Syntax.lean ====
section
/-! DEFINITION. The syntax: the fields of operator words, Hawk words and tokens (03 R70 to R92, 01 R16, R17),
and Instr, the steps of the part. -/

namespace Sys2Proof

/-- Element formats (03 R88). -/
inductive Fmt where
  | raw | i8 | i16 | i32 | i64 | n8 | n16 | n32 | n64 | f16 | bf16 | f32 | f64 | e4m3 | e5m2 | mx8 | mx4 | b1
  deriving DecidableEq, Repr

/-- Rounding codes 0 to 6 (03 R92). -/
inductive Rnd where
  | rne | rtz | rup | rdn | rna | rst | dyn
  deriving DecidableEq, Repr

/-- The rounding codes a Hawk word may name: 0 to 4, and 6 for HRMODE (03 R80). -/
inductive HRm where
  | rne | rtz | rup | rdn | rna | dyn
  deriving DecidableEq, Repr

/-- Colour transforms (01 R20). -/
inductive Xfm where
  | keep | next | exit | new | free
  deriving DecidableEq, Repr

/-- Scopes, codes 0 to 5 (02 R54, 05 R166). -/
inductive Scope where
  | cl | quad | die | pkg | dom | sys
  deriving DecidableEq, Repr

/-- The DST layout of an operator word and of a token header (03 R73). -/
structure Dst where
  valid : Bool
  port : BitVec 2
  die : BitVec 3
  cluster : BitVec 9
  slot : BitVec 11
  rwi : BitVec 6
  deriving DecidableEq, Repr

/-- The fields of an operator word other than ECL and OPC, which the constructor of Instr names (03 R70).
ports is ARITY: the number of input ports minus one. -/
structure Op where
  fmt : Fmt
  rnd : Rnd
  ports : BitVec 2
  xfm : Xfm
  sat : Bool
  fe : Bool
  ord : Bool
  imm : BitVec 37
  dst1 : Dst
  dst0 : Dst
  deriving DecidableEq, Repr

/-- Token kinds; 6 and 7 are reserved (01 R16). -/
inductive Kind where
  | scalar | tile | marker | error | done | bitmap | res6 | res7
  deriving DecidableEq, Repr

/-- Token flags (01 R17). -/
structure Flag where
  poison : Bool
  irrev : Bool
  keep : Bool
  last : Bool
  deriving DecidableEq, Repr

/-- A tag: context, colour and colour generation (01 R16). -/
structure Tag where
  ctx : BitVec 8
  col : BitVec 12
  gen : BitVec 4
  deriving DecidableEq, Repr

/-- A frame access on its way to a strand's home cluster (05 R164). -/
inductive FrameReq where
  | set (slot : BitVec 3) (op : BitVec 2) (v : Word)
  | get (slot : BitVec 3) (parent : Bool)
  | flagsGet (clear : Bool)
  | flagsClr (mask : BitVec 6) (setMode : Bool) (mode : BitVec 3)
  deriving DecidableEq, Repr

/-- What bring-up finds (13 R415): failed clusters as (die, row, physical column), failed routers as (die, row),
channels as 64 * die + channel, banks as 128 * die + bank, the ports that trained, and the host link with what the host
has enabled in configuration space (12 R388). -/
structure Boot where
  failedClusters : List (Nat × Nat × Nat)
  failedRouters : List (Nat × Nat)
  failedChannels : List Nat
  failedBanks : List Nat
  scewenUp : BitVec 6
  ethUp : BitVec 6
  width : BitVec 5
  rate : BitVec 2
  cxl : Bool
  pri : Bool
  deriving DecidableEq, Repr

/-- One telemetry period's readings (13 R423): power in mW, energy in mJ, junction temperature of each die in degrees,
and the corrected and poisoned counts of the memories that no port counts. -/
structure Readings where
  power : Nat
  energy : Nat
  temps : List Nat
  corrected : Nat
  poisoned : Nat
  deriving DecidableEq, Repr

/-- What an incoming link element asks for (12 R400, R406, R407); row marks a row of a tile. -/
inductive RemoteKind where
  | read (size : Nat) (row : Bool)
  | write (data : List Byte) (poisoned : Bool) (row : Bool)
  | notify
  | atom (fn : BitVec 4) (fmt : Fmt) (rnd : Rnd) (operand : Word) (compare : Word)
  deriving DecidableEq, Repr

/-- One incoming link access: the sender's DEST (12 R399), the key, the remote virtual address and the access; answer is
the sender's number of the request. -/
structure RemoteAccess where
  src : BitVec 21
  peer : Bool
  key : BitVec 32
  addr : Word
  what : RemoteKind
  answer : Nat
  deriving DecidableEq, Repr

/-- A message carried to a receive queue (12 R408): a scalar's eight bytes, or a tile's rows with its format and shape. -/
structure RemoteSend where
  src : BitVec 21
  peer : Bool
  key : BitVec 32
  tile : Bool
  fmt : Fmt
  rows : Nat
  epr : Nat
  data : List Byte
  poisoned : Bool
  answer : Nat
  deriving DecidableEq, Repr

/-- The answer to one element of an issued link request (12 R405 to R409). -/
inductive LinkAnswer where
  | ok
  | data (bytes : List Byte) (poisoned : Bool)
  | old (v : Word)
  | err (code : BitVec 8) (reason : BitVec 8)
  | nack
  deriving DecidableEq, Repr

/-- The indivisible steps of the part: one constructor for each row of the opcode table. Hawk words carry
their fields (03 R80 to R82), graph operators the fields of an operator word (03 R70), and device events
the object they act on. -/
inductive Instr where
  /-- R133. xd receives xa plus xb modulo 2^64. -/
  | add (rd : Reg) (ra : Reg) (rb : Reg)
  /-- R133. xd receives xa minus xb modulo 2^64. -/
  | sub (rd : Reg) (ra : Reg) (rb : Reg)
  /-- R133. xd receives the bitwise AND of xa and xb. -/
  | and (rd : Reg) (ra : Reg) (rb : Reg)
  /-- R133. xd receives the bitwise OR of xa and xb. -/
  | or (rd : Reg) (ra : Reg) (rb : Reg)
  /-- R133. xd receives the bitwise XOR of xa and xb. -/
  | xor (rd : Reg) (ra : Reg) (rb : Reg)
  /-- R133. xd receives xa AND NOT xb. -/
  | andn (rd : Reg) (ra : Reg) (rb : Reg)
  /-- R133. xd receives xa shifted left by xb mod 64. -/
  | shl (rd : Reg) (ra : Reg) (rb : Reg)
  /-- R133. xd receives xa shifted right by xb mod 64, with zero fill. -/
  | shr (rd : Reg) (ra : Reg) (rb : Reg)
  /-- R133. xd receives xa shifted right by xb mod 64, with sign fill. -/
  | sar (rd : Reg) (ra : Reg) (rb : Reg)
  /-- R133. xd receives 1 if xa is less than xb when both are taken as signed, otherwise 0. -/
  | slt (rd : Reg) (ra : Reg) (rb : Reg)
  /-- R133. xd receives 1 if xa is less than xb when both are taken as unsigned, otherwise 0. -/
  | sltn (rd : Reg) (ra : Reg) (rb : Reg)
  /-- R133. xd receives the low 64 bits of xa times xb. -/
  | mul (rd : Reg) (ra : Reg) (rb : Reg)
  /-- R133. xd receives the high 64 bits of the signed product of xa and xb. -/
  | mulh (rd : Reg) (ra : Reg) (rb : Reg)
  /-- R133. xd receives the high 64 bits of the unsigned product of xa and xb. -/
  | mulhn (rd : Reg) (ra : Reg) (rb : Reg)
  /-- R133. xd receives the signed quotient of xa by xb, with defined results for zero and overflow. -/
  | div (rd : Reg) (ra : Reg) (rb : Reg)
  /-- R133. xd receives the unsigned quotient of xa by xb, or all ones when xb is zero. -/
  | divn (rd : Reg) (ra : Reg) (rb : Reg)
  /-- R133. xd receives the signed remainder of xa by xb, with defined results for zero and overflow. -/
  | rem (rd : Reg) (ra : Reg) (rb : Reg)
  /-- R133. xd receives the unsigned remainder of xa by xb, or xa when xb is zero. -/
  | remn (rd : Reg) (ra : Reg) (rb : Reg)
  /-- R134. xd receives xa plus the sign-extended immediate. -/
  | addi (rd : Reg) (ra : Reg) (imm : BitVec 16)
  /-- R134. xd receives xa AND the zero-extended immediate. -/
  | andi (rd : Reg) (ra : Reg) (imm : BitVec 16)
  /-- R134. xd receives xa OR the zero-extended immediate. -/
  | ori (rd : Reg) (ra : Reg) (imm : BitVec 16)
  /-- R134. xd receives xa XOR the zero-extended immediate. -/
  | xori (rd : Reg) (ra : Reg) (imm : BitVec 16)
  /-- R134. xd receives xa shifted left by an immediate amount. -/
  | shli (rd : Reg) (ra : Reg) (sh : BitVec 6)
  /-- R134. xd receives xa shifted right by an immediate amount, with zero fill. -/
  | shri (rd : Reg) (ra : Reg) (sh : BitVec 6)
  /-- R134. xd receives xa shifted right by an immediate amount, with sign fill. -/
  | sari (rd : Reg) (ra : Reg) (sh : BitVec 6)
  /-- R134. xd receives 1 if xa, taken as signed, is less than the sign-extended immediate, otherwise 0. -/
  | slti (rd : Reg) (ra : Reg) (imm : BitVec 16)
  /-- R134. xd receives the sign-extended immediate shifted left by 16. -/
  | ldhi (rd : Reg) (imm : BitVec 16)
  /-- R134. xd receives the word's own address plus the sign-extended immediate shifted left by 16. -/
  | addpc (rd : Reg) (imm : BitVec 16)
  /-- R135. Loads a sign-extended byte from xa plus the immediate. -/
  | ldb (rd : Reg) (ra : Reg) (imm : BitVec 16)
  /-- R135. Loads a sign-extended half-word from xa plus the immediate. -/
  | ldh (rd : Reg) (ra : Reg) (imm : BitVec 16)
  /-- R135. Loads a sign-extended 4-byte word from xa plus the immediate. -/
  | ldw (rd : Reg) (ra : Reg) (imm : BitVec 16)
  /-- R135. Loads 8 bytes from xa plus the immediate. -/
  | ldd (rd : Reg) (ra : Reg) (imm : BitVec 16)
  /-- R135. Loads a zero-extended byte from xa plus the immediate. -/
  | ldbn (rd : Reg) (ra : Reg) (imm : BitVec 16)
  /-- R135. Loads a zero-extended half-word from xa plus the immediate. -/
  | ldhn (rd : Reg) (ra : Reg) (imm : BitVec 16)
  /-- R135. Loads a zero-extended 4-byte word from xa plus the immediate. -/
  | ldwn (rd : Reg) (ra : Reg) (imm : BitVec 16)
  /-- R135. Stores the low byte of xd at xa plus the immediate. -/
  | stb (rd : Reg) (ra : Reg) (imm : BitVec 16)
  /-- R135. Stores the low two bytes of xd at xa plus the immediate. -/
  | sth (rd : Reg) (ra : Reg) (imm : BitVec 16)
  /-- R135. Stores the low four bytes of xd at xa plus the immediate. -/
  | stw (rd : Reg) (ra : Reg) (imm : BitVec 16)
  /-- R135. Stores the eight bytes of xd at xa plus the immediate. -/
  | std (rd : Reg) (ra : Reg) (imm : BitVec 16)
  /-- R136. Branches when xd equals xa. -/
  | beq (rd : Reg) (ra : Reg) (imm : BitVec 16)
  /-- R136. Branches when xd differs from xa. -/
  | bne (rd : Reg) (ra : Reg) (imm : BitVec 16)
  /-- R136. Branches when xd is less than xa, taken as signed. -/
  | blt (rd : Reg) (ra : Reg) (imm : BitVec 16)
  /-- R136. Branches when xd is at least xa, taken as signed. -/
  | bge (rd : Reg) (ra : Reg) (imm : BitVec 16)
  /-- R136. Branches when xd is less than xa, taken as unsigned. -/
  | bltn (rd : Reg) (ra : Reg) (imm : BitVec 16)
  /-- R136. Branches when xd is at least xa, taken as unsigned. -/
  | bgen (rd : Reg) (ra : Reg) (imm : BitVec 16)
  /-- R136. Jumps PC-relative and links the return address in x30. -/
  | jmpl (off : BitVec 26)
  /-- R136. Jumps to the address in xa and writes the link address to xd. -/
  | jmpr (rd : Reg) (ra : Reg)
  /-- R140. dd receives da plus db, rounded under RM. -/
  | fadd (rd : Reg) (ra : Reg) (rb : Reg) (rm : HRm) (single : Bool)
  /-- R140. dd receives da minus db, rounded under RM. -/
  | fsub (rd : Reg) (ra : Reg) (rb : Reg) (rm : HRm) (single : Bool)
  /-- R140. dd receives da times db, rounded under RM. -/
  | fmul (rd : Reg) (ra : Reg) (rb : Reg) (rm : HRm) (single : Bool)
  /-- R140. dd receives da divided by db, rounded under RM. -/
  | fdiv (rd : Reg) (ra : Reg) (rb : Reg) (rm : HRm) (single : Bool)
  /-- R140. dd receives the square root of da, rounded under RM. -/
  | fsqrt (rd : Reg) (ra : Reg) (rm : HRm) (single : Bool)
  /-- R140. dd receives the IEEE 754-2019 minimum of da and db. -/
  | fminIeee (rd : Reg) (ra : Reg) (rb : Reg) (single : Bool)
  /-- R140. dd receives the minimumNumber of da and db. -/
  | fminNum (rd : Reg) (ra : Reg) (rb : Reg) (single : Bool)
  /-- R140. dd receives the IEEE 754-2019 maximum of da and db. -/
  | fmaxIeee (rd : Reg) (ra : Reg) (rb : Reg) (single : Bool)
  /-- R140. dd receives the maximumNumber of da and db. -/
  | fmaxNum (rd : Reg) (ra : Reg) (rb : Reg) (single : Bool)
  /-- R140. xd receives 1 if da equals db, otherwise 0. -/
  | fcmpEq (rd : Reg) (ra : Reg) (rb : Reg) (single : Bool)
  /-- R140. xd receives 1 if da is less than db, otherwise 0. -/
  | fcmpLt (rd : Reg) (ra : Reg) (rb : Reg) (single : Bool)
  /-- R140. xd receives 1 if da is less than or equal to db, otherwise 0. -/
  | fcmpLe (rd : Reg) (ra : Reg) (rb : Reg) (single : Bool)
  /-- R140. xd receives 1 if da and db are unordered, otherwise 0. -/
  | fcmpUn (rd : Reg) (ra : Reg) (rb : Reg) (single : Bool)
  /-- R140. Converts between f64 and f32. -/
  | fcvtFf (rd : Reg) (ra : Reg) (rm : HRm) (single : Bool)
  /-- R140. dd receives the i64 in xa, rounded. -/
  | fcvtFromi (rd : Reg) (ra : Reg) (rm : HRm) (single : Bool)
  /-- R140. dd receives the n64 in xa, rounded. -/
  | fcvtFromn (rd : Reg) (ra : Reg) (rm : HRm) (single : Bool)
  /-- R140. xd receives da rounded to i64. -/
  | fcvtToi (rd : Reg) (ra : Reg) (rm : HRm) (single : Bool)
  /-- R140. xd receives da rounded to n64. -/
  | fcvtTon (rd : Reg) (ra : Reg) (rm : HRm) (single : Bool)
  /-- R140. dd receives da rounded to an integral value in its own format. -/
  | fcvtInt (rd : Reg) (ra : Reg) (rm : HRm) (single : Bool)
  /-- R140. dd receives da. -/
  | fmovMov (rd : Reg) (ra : Reg) (single : Bool)
  /-- R140. dd receives the bits of xa. -/
  | fmovFromx (rd : Reg) (ra : Reg) (single : Bool)
  /-- R140. xd receives the bits of da. -/
  | fmovTox (rd : Reg) (ra : Reg) (single : Bool)
  /-- R140. dd receives da negated. -/
  | fmovNeg (rd : Reg) (ra : Reg) (single : Bool)
  /-- R140. dd receives the absolute value of da. -/
  | fmovAbs (rd : Reg) (ra : Reg) (single : Bool)
  /-- R140. dd receives da with the sign of db. -/
  | fmovCpys (rd : Reg) (ra : Reg) (rb : Reg) (single : Bool)
  /-- R140. xd receives a one-hot class mask of da. -/
  | fclass (rd : Reg) (ra : Reg) (single : Bool)
  /-- R140. dd receives da times db plus dc, with a single rounding. -/
  | ffma (rd : Reg) (ra : Reg) (rb : Reg) (rc : Reg) (rm : HRm) (single : Bool)
  /-- R135. Loads 8 bytes into dd from xa plus the immediate. -/
  | fld (rd : Reg) (ra : Reg) (imm : BitVec 16)
  /-- R135. Stores the 8 bytes of dd at xa plus the immediate. -/
  | fst (rd : Reg) (ra : Reg) (imm : BitVec 16)
  /-- R137. Atomically swaps xb into memory at xa and returns the old value. -/
  | atomSwap (rd : Reg) (ra : Reg) (rb : Reg) (scope : Scope) (word32 : Bool)
  /-- R137. Atomically adds xb to memory at xa and returns the old value. -/
  | atomAdd (rd : Reg) (ra : Reg) (rb : Reg) (scope : Scope) (word32 : Bool)
  /-- R137. Atomically ANDs xb into memory at xa and returns the old value. -/
  | atomAnd (rd : Reg) (ra : Reg) (rb : Reg) (scope : Scope) (word32 : Bool)
  /-- R137. Atomically ORs xb into memory at xa and returns the old value. -/
  | atomOr (rd : Reg) (ra : Reg) (rb : Reg) (scope : Scope) (word32 : Bool)
  /-- R137. Atomically XORs xb into memory at xa and returns the old value. -/
  | atomXor (rd : Reg) (ra : Reg) (rb : Reg) (scope : Scope) (word32 : Bool)
  /-- R137. Atomic signed minimum at xa; returns the old value. -/
  | atomMin (rd : Reg) (ra : Reg) (rb : Reg) (scope : Scope) (word32 : Bool)
  /-- R137. Atomic signed maximum at xa; returns the old value. -/
  | atomMax (rd : Reg) (ra : Reg) (rb : Reg) (scope : Scope) (word32 : Bool)
  /-- R137. Atomic unsigned minimum at xa; returns the old value. -/
  | atomMinn (rd : Reg) (ra : Reg) (rb : Reg) (scope : Scope) (word32 : Bool)
  /-- R137. Atomic unsigned maximum at xa; returns the old value. -/
  | atomMaxn (rd : Reg) (ra : Reg) (rb : Reg) (scope : Scope) (word32 : Bool)
  /-- R137. Atomic compare-and-swap at xa against xd; returns the old value. -/
  | atomCas (rd : Reg) (ra : Reg) (rb : Reg) (scope : Scope) (word32 : Bool)
  /-- R138. Waits until the thread's earlier HK writes are performed at the scope. -/
  | fence (scope : Scope)
  /-- R139. xd receives the named system register. -/
  | sysr (rd : Reg) (num : BitVec 16)
  /-- R139. Writes xd to the named system register under its map. -/
  | sysw (rd : Reg) (num : BitVec 16)
  /-- R130. Raises the synchronous trap SWTRAP with the immediate. -/
  | trap (imm : BitVec 16)
  /-- R128. Returns from a trap, restoring MODE and IE and resuming at HXPC. -/
  | tret
  /-- R139. The thread sets WAIT and sleeps until a wake event occurs. -/
  | wfe
  /-- R130. Raises the synchronous trap SVCALL with the immediate. -/
  | svc (imm : BitVec 16)
  /-- R120. Checks a graph image and loads it onto the region, optionally injecting its entries. -/
  | gload (rd : Reg) (ra : Reg) (entry : Bool)
  /-- R120. Injects a token into the region, optionally with a new colour and a fence. -/
  | inj (rd : Reg) (ra : Reg) (rb : Reg) (new : Bool) (fen : Bool)
  /-- R120. Pops the oldest token from the region's sink ring, optionally waiting for one. -/
  | snkpop (rd : Reg) (rb : Reg) (wait : Bool)
  /-- R120. Raises a Plumb freeze on the region and blocks until it has drained. -/
  | freeze (rd : Reg)
  /-- R120. Writes the frozen region's dust sheet to memory. -/
  | scan (rd : Reg) (ra : Reg)
  /-- R124. Checks a dust sheet and loads it onto a granted region, leaving it FROZEN. -/
  | restore (rd : Reg) (ra : Reg)
  /-- R120. Writes a 16-byte operator or route word into a slot of the region. -/
  | opwr (rd : Reg) (ra : Reg) (rb : Reg)
  /-- R120. Writes 8 bytes to physical HBM and replaces the granule's check bits. -/
  | diagstHbm (rd : Reg) (ra : Reg) (rb : Reg)
  /-- R120. Writes a bank word and replaces its check bits. -/
  | diagstBank (rd : Reg) (ra : Reg) (rb : Reg)
  /-- R120. Writes a scratchpad word and replaces its check bits. -/
  | diagstSp (rd : Reg) (ra : Reg) (rb : Reg)
  /-- R120. Lifts the freeze so that the region resumes on one tick. -/
  | thaw (rd : Reg)
  /-- R155. Emits the input token on every destination. -/
  | pass (op : Op)
  /-- R156. Consumes a trigger and emits a constant scalar. -/
  | const (op : Op)
  /-- R155. Emits its input on every destination, copying tile lines with DEEP. -/
  | dup (op : Op)
  /-- R157. Sends the data to the destination named by an index. -/
  | route (op : Op)
  /-- R157. Sends the data to one side of its destinations by a predicate. -/
  | steer (op : Op)
  /-- R157. Passes or consumes the data by a predicate. -/
  | gate (op : Op)
  /-- R157. Emits one of two alternatives by a predicate. -/
  | sel (op : Op)
  /-- R158. Waits for all ports and emits the token on port PICK. -/
  | join (op : Op)
  /-- R158. Consumes its tokens and emits nothing. -/
  | drop (op : Op)
  /-- R158. Sends its token to the region's sink ring. -/
  | sink (op : Op)
  /-- R159. Starts a stream of n arithmetic values. -/
  | src (op : Op)
  /-- R160. Sends the data to a copy of a node chosen by index and stride. -/
  | tagx (op : Op)
  /-- R161. Allocates a colour in a context and sends mapped values under it. -/
  | ctxEnter (op : Op)
  /-- R162. Carries values into the successor colour and frees the current one at CARRY. -/
  | ctxNext (op : Op)
  /-- R163. Returns values to the parent tag and frees the colour at CARRY. -/
  | ctxExit (op : Op)
  /-- R164. Writes, ORs or clears a frame slot and emits its old value. -/
  | invSet (op : Op)
  /-- R164. Emits a frame slot of the strand or of its parent. -/
  | invGet (op : Op)
  /-- R164. Emits the strand's flags and mode, optionally clearing the flags. -/
  | flagsGet (op : Op)
  /-- R164. Clears f7 flags by mask and optionally sets RMODE. -/
  | flagsClr (op : Op)
  /-- R165. Scalar integer add with optional saturation. -/
  | sadd (op : Op)
  /-- R165. Scalar integer subtract with optional saturation. -/
  | ssub (op : Op)
  /-- R165. Scalar integer multiply, low or high part. -/
  | smul (op : Op)
  /-- R165. Scalar integer multiply-add. -/
  | smad (op : Op)
  /-- R165. Scalar integer compare giving 1 or 0. -/
  | scmp (op : Op)
  /-- R165. Scalar bitwise logic by a truth table. -/
  | slog (op : Op)
  /-- R165. Scalar shift or rotate. -/
  | sshf (op : Op)
  /-- R165. Scalar integer minimum or maximum. -/
  | sminmax (op : Op)
  /-- R166. Waits for writer-path writes at a scope, discards reader-path buffers, and emits its token. -/
  | pfence (op : Op)
  /-- R167. Emits LAST-flagged tokens and optionally loads a successor graph behind them. -/
  | splice (op : Op)
  /-- R170. Sends a digest of its value to the twin partner and waits for the partner's digest. -/
  | cmpx (op : Op)
  /-- R178. Acts as PASS, and emits a marker on its group's marker signal. -/
  | mark (op : Op)
  /-- R193. Element-wise floating add, rounded once. -/
  | vadd (op : Op)
  /-- R193. Element-wise floating subtract. -/
  | vsub (op : Op)
  /-- R193. Element-wise floating multiply. -/
  | vmul (op : Op)
  /-- R193. Element-wise fused multiply-add. -/
  | vfma (op : Op)
  /-- R193. Element-wise fused multiply-subtract. -/
  | vfms (op : Op)
  /-- R193. Element-wise floating divide. -/
  | vdiv (op : Op)
  /-- R193. Element-wise square root. -/
  | vsqrt (op : Op)
  /-- R193. Element-wise correctly rounded reciprocal square root. -/
  | vrsqrt (op : Op)
  /-- R194. Element-wise IEEE minimum. -/
  | vmin (op : Op)
  /-- R194. Element-wise IEEE maximum. -/
  | vmax (op : Op)
  /-- R194. Element-wise minimumNumber. -/
  | vminn (op : Op)
  /-- R194. Element-wise maximumNumber. -/
  | vmaxn (op : Op)
  /-- R195. Clears each element's sign bit. -/
  | vabs (op : Op)
  /-- R195. Inverts each element's sign bit. -/
  | vneg (op : Op)
  /-- R195. Copies the sign of b onto a. -/
  | vcpys (op : Op)
  /-- R196. Computes a times 2^n, rounded once. -/
  | vscale (op : Op)
  /-- R197. Rounds elements to integral values. -/
  | vrnd (op : Op)
  /-- R198. Writes a one-hot class mask per element. -/
  | vclass (op : Op)
  /-- R199. Floating compare into a b1 tile. -/
  | vcmp (op : Op)
  /-- R200. Converts elements between formats. -/
  | vcvt (op : Op)
  /-- R201. Splits f32 elements into two or three bf16 parts. -/
  | vsplit (op : Op)
  /-- R202. Correctly rounded e^a. -/
  | vexp (op : Op)
  /-- R202. Correctly rounded e^a minus 1. -/
  | vexpm1 (op : Op)
  /-- R202. Correctly rounded ln a. -/
  | vlog (op : Op)
  /-- R202. Correctly rounded ln(1 + a). -/
  | vlog1p (op : Op)
  /-- R202. Correctly rounded erf a. -/
  | verf (op : Op)
  /-- R202. Correctly rounded erfc a. -/
  | verfc (op : Op)
  /-- R202. Correctly rounded 2^a. -/
  | vexp2 (op : Op)
  /-- R202. Correctly rounded log2 a. -/
  | vlog2 (op : Op)
  /-- R204. Element-wise integer add. -/
  | viadd (op : Op)
  /-- R204. Element-wise integer subtract. -/
  | visub (op : Op)
  /-- R204. Element-wise integer multiply. -/
  | vimul (op : Op)
  /-- R204. Element-wise high half of an integer product. -/
  | vimulh (op : Op)
  /-- R204. Element-wise integer multiply-add. -/
  | vimad (op : Op)
  /-- R204. Element-wise integer minimum. -/
  | vimin (op : Op)
  /-- R204. Element-wise integer maximum. -/
  | vimax (op : Op)
  /-- R204. Integer compare into a b1 tile. -/
  | vicmp (op : Op)
  /-- R205. Element-wise bitwise AND. -/
  | vand (op : Op)
  /-- R205. Element-wise bitwise OR. -/
  | vor (op : Op)
  /-- R205. Element-wise bitwise XOR. -/
  | vxor (op : Op)
  /-- R205. Element-wise shift left. -/
  | vshl (op : Op)
  /-- R205. Element-wise logical shift right. -/
  | vshr (op : Op)
  /-- R205. Element-wise arithmetic shift right. -/
  | vsar (op : Op)
  /-- R205. Counts the one bits of each element. -/
  | vpopc (op : Op)
  /-- R205. Counts the leading zero bits of each element. -/
  | vclz (op : Op)
  /-- R206. Writes a tile filled with a scalar. -/
  | vbcast (op : Op)
  /-- R207. Selects elements by a b1 mask. -/
  | vsel (op : Op)
  /-- R208. Gathers elements within rows by an index tile. -/
  | vperm (op : Op)
  /-- R209. Transposes a tile. -/
  | vtrans (op : Op)
  /-- R206. Writes an arithmetic sequence tile. -/
  | viota (op : Op)
  /-- R210. Extracts one element as a scalar. -/
  | vextr (op : Op)
  /-- R210. Writes a copy of a tile with one element replaced. -/
  | vins (op : Op)
  /-- R210. Writes a sub-tile. -/
  | vslice (op : Op)
  /-- R212. Reduces rows or the tile by a pairwise tree. -/
  | vreduce (op : Op)
  /-- R213. Writes inclusive or exclusive row prefixes. -/
  | vscan (op : Op)
  /-- R214. Keeps the K largest-magnitude elements per group, with metadata. -/
  | vcompr (op : Op)
  /-- R215. Expands compressed values to a dense tile. -/
  | vexpnd (op : Op)
  /-- R217. Writes counter-based random bits, unit values or permutations. -/
  | vrng (op : Op)
  /-- R218. Quantises a tile to mx8 or mx4. -/
  | vquant (op : Op)
  /-- R219. Dequantises an mx tile. -/
  | vdeq (op : Op)
  /-- R232. Accumulates A times B into an accumulator block. -/
  | mma (op : Op)
  /-- R234. Accumulates A times a 2:4 sparse B. -/
  | mmaSp (op : Op)
  /-- R235. Binds or unbinds a weight buffer. -/
  | mwload (op : Op)
  /-- R237. Reads an accumulator block into a tile, optionally clearing it. -/
  | maccRd (op : Op)
  /-- R238. Writes a tile into an accumulator block. -/
  | maccWr (op : Op)
  /-- R239. Sets an accumulator block to +0. -/
  | maccClr (op : Op)
  /-- R233. Accumulates an outer product. -/
  | mouter (op : Op)
  /-- R243. Sorts each row of keys, with indices. -/
  | msort (op : Op)
  /-- R244. Keeps the K smallest or largest keys per row. -/
  | mtopk (op : Op)
  /-- R245. Merges two key tiles row by row. -/
  | mmerge (op : Op)
  /-- R246. Transposes a tile in network mode. -/
  | mtrans (op : Op)
  /-- R270. Copies memory to memory, memory to tile, or tile to memory. -/
  | scopy (op : Op)
  /-- R271. Reads, checks and arms a stencil descriptor. -/
  | sarm (op : Op)
  /-- R272. Fires an armed stencil with a parameter. -/
  | sfire (op : Op)
  /-- R273. Links or unlinks two stencil slots. -/
  | schain (op : Op)
  /-- R274. Unarms a stencil slot and clears its links. -/
  | sdisarm (op : Op)
  /-- R275. Empties a pinned tile's lines and advances their generation. -/
  | sempty (op : Op)
  /-- R276. Fills memory or a pinned tile with a value. -/
  | sfill (op : Op)
  /-- R277. Writes a tile of the addresses a stencil would generate. -/
  | sgen (op : Op)
  /-- R278. Orders later firings of some queues after earlier firings of others. -/
  | sorder (op : Op)
  /-- R279. Cancels pending and issued firings of a slot or queue. -/
  | scancel (op : Op)
  /-- R307. Loads a scalar or a tile from memory. -/
  | ld (op : Op)
  /-- R307. Stores a scalar or a tile to memory. -/
  | st (op : Op)
  /-- R307. Gathers elements by an index tile. -/
  | ldi (op : Op)
  /-- R307. Scatters elements by an index tile. -/
  | sti (op : Op)
  /-- R307. Loads dense rows and compresses them 2:4. -/
  | lds (op : Op)
  /-- R307. Expands 2:4 values and stores dense rows. -/
  | sts (op : Op)
  /-- R309, R311. The graph operator LDW: a scalar load in wave order (the table gives it no row of its own). -/
  | portLdw (op : Op)
  /-- R309, R311. The graph operator STW: a scalar store in wave order (the table gives it no row of its own). -/
  | portStw (op : Op)
  /-- R307. Translates a range and fills read-ahead, never faulting. -/
  | pref (op : Op)
  /-- R300. Applies a RETRY, INSTALL, ESCALATE or FAIL action to a fault ticket. -/
  | mresume (op : Op)
  /-- R310. Sets a port's streaming range and empties its read-ahead buffer. -/
  | mstart (op : Op)
  /-- R308. Sets a port's mode after earlier firings complete. -/
  | mmode (op : Op)
  /-- R330. Loads a scalar or tile from bank memory. -/
  | bld (op : Op)
  /-- R330. Stores a scalar or tile to plain bank words. -/
  | bst (op : Op)
  /-- R331. Performs a returning read-modify-write on a bank word. -/
  | bankAtom (op : Op)
  /-- R332. Compare-and-swap on a bank word, with a success flag. -/
  | acas (op : Op)
  /-- R333. Contributes a reduction to a bank word, possibly through combining. -/
  | red (op : Op)
  /-- R334. Applies every open combining entry of a bank. -/
  | rflush (op : Op)
  /-- R335. Applies a tile of atomic updates element by element. -/
  | bupd (op : Op)
  /-- R336. Reads a future, parking while it is empty. -/
  | fget (op : Op)
  /-- R336. Fills a future and serves its parked readers. -/
  | fput (op : Op)
  /-- R336. Empties a future, or returns a word to plain mode. -/
  | fclr (op : Op)
  /-- R337. Puts a block of words into queue mode. -/
  | qinit (op : Op)
  /-- R338. Pushes an item onto a bank queue, parking while it is full. -/
  | qpush (op : Op)
  /-- R338. Pops an item from a bank queue, parking while it is empty. -/
  | qpop (op : Op)
  /-- R340. Returns when a word meets a condition, parking otherwise. -/
  | wait (op : Op)
  /-- R341. Wakes up to n waiters of a word. -/
  | wake (op : Op)
  /-- R342. Runs a micro-op routine on a 256-byte bank block. -/
  | bcall (op : Op)
  /-- R362. Drains writes and arrives at a crew barrier. -/
  | pbar (op : Op)
  /-- R363. Sends or receives a crew broadcast value. -/
  | pbcast (op : Op)
  /-- R365. Opens a deadline reduction round. -/
  | predOpen (op : Op)
  /-- R366. Contributes a member's value to a reduction round. -/
  | predPut (op : Op)
  /-- R370. Emits the k-th correction or final packet of a round. -/
  | pcorr (op : Op)
  /-- R372. Opens or contributes to an element-wise tile reduction. -/
  | tred (op : Op)
  /-- R357. Allocates a crew with a quorum. -/
  | crewNew (op : Op)
  /-- R357. Joins the strand to a crew with the lowest free index. -/
  | crewJoin (op : Op)
  /-- R357. Removes the strand from a crew. -/
  | crewLeave (op : Op)
  /-- R357. Frees a crew, discarding its waiting signals. -/
  | crewFree (op : Op)
  /-- R373. Reads the tick, or emits after a delay or at a tick. -/
  | ptime (op : Op)
  /-- R378. Emits the census state, optionally waiting for a non-BUSY census. -/
  | pquiet (op : Op)
  /-- R375. Raises a marker snapshot signal for a group and epoch. -/
  | psig (op : Op)
  /-- R406. Writes data to a remote address, optionally notifying a bank word. -/
  | lput (op : Op)
  /-- R406. Reads data from a remote address. -/
  | lget (op : Op)
  /-- R407. Performs an atomic operation on a remote bank word. -/
  | latom (op : Op)
  /-- R408. Sends a message to a remote receive queue. -/
  | lsend (op : Op)
  /-- R408. Takes the oldest message of a receive queue. -/
  | lrecv (op : Op)
  /-- R409. Waits until earlier link operations are performed at .sys. -/
  | lfence (op : Op)
  /-- R415. After power-good, the Service Engine brings the package up in order, from firmware verification to HEALTH.READY. -/
  | packageReset (b : Boot)
  /-- R129. A pending fabric cause is delivered to the owner thread at an instruction boundary while IE is set. -/
  | asyncCauseDelivery (th : Nat)
  /-- R127. When HTIME reaches HTIMECMP, the thread's timer event is set and wakes WFE. -/
  | timerEvent (th : Nat)
  /-- R139. A waiting thread wakes on a sink token, a cause, HWAKE, the timer or a host message. -/
  | wfeWake (th : Nat)
  /-- R120. A thread blocked in SNKPOP.wait completes when a token enters the sink ring. -/
  | snkpopWaitResume (th : Nat)
  /-- R120. A thread blocked in INJ.new sends its token once its colour is allocated. -/
  | injColourResume (th : Nat)
  /-- R108. Writing 1 to bit i of HWAKE wakes thread i from WFE. -/
  | hwakeWrite (die : Nat) (v : Word)
  /-- R127. A write to HTIMECMP sets the compare value and clears the timer event. -/
  | htimecmpWrite (th : Nat) (v : Word)
  /-- R117. A write to a register without behaviour of its own updates it under its map, ignoring refused values. -/
  | registerWrite (host : Bool) (off : Nat) (size : Nat) (v : Word)
  /-- R118. An 8-byte load leases the head record of the best eligible queue, or returns 0. -/
  | launchPeek (th : Nat) (rd : Reg)
  /-- R117. A store of a live lease retires the leased record and advances QHEAD. -/
  | launchCommit (th : Nat) (lease : Word)
  /-- R117. A store of a live lease gives up the lease. -/
  | launchRelease (th : Nat) (lease : Word)
  /-- R118. A record that has stood at a queue head for 2^24 ticks is raised one priority level. -/
  | effectivePriorityAging (q : Nat)
  /-- R119. ATOM.swap hands the allocator a request and returns a granted handle or 0. -/
  | allocReq (th : Nat) (rd : Reg) (req : Word)
  /-- R116. A store of a handle frees a GRANTED or FROZEN region, discarding and counting its state. -/
  | allocFree (handle : Word)
  /-- R32. A store binds a peer whole-die region to a die index of a spanning region. -/
  | spanmapBind (rid : Nat) (i : Nat) (entry : Word)
  /-- R32. A store of 0 unbinds a SPANMAP entry while the owner is GRANTED. -/
  | spanmapUnbind (rid : Nat) (i : Nat)
  /-- R169. A store with bit 63 set pairs a primary and a secondary region. -/
  | twinPair (v : Word)
  /-- R169. A store with bit 63 clear unpairs the regions. -/
  | twinUnpair (v : Word)
  /-- R175. Writing 1 to TCTL.CLR zeroes every leak counter of the region. -/
  | tctlClr (rid : Nat)
  /-- R176. A write to LEAKTHR sets the threshold and re-arms TOKEN_LEAK. -/
  | leakthrWrite (rid : Nat) (v : BitVec 32)
  /-- R292. A store loads a port's 64-entry range table from physical HBM. -/
  | prtabLoad (port : Nat) (addr : Word)
  /-- R295. A store loads the Hawk translator's range table. -/
  | hrtabLoad (die : Nat) (addr : Word)
  /-- R294. CMD 1 invalidates the entries of an ASID that cover VA, in every translator of the package. -/
  | tlbinvPage (va : Word) (asid : BitVec 32)
  /-- R294. CMD 2 invalidates every entry of an ASID. -/
  | tlbinvAsid (asid : BitVec 32)
  /-- R294. CMD 3 invalidates every TLB entry. -/
  | tlbinvAll
  /-- R402. CMD 1 rereads a key-table entry. -/
  | kcmdRereadKey (ix : Nat)
  /-- R402. CMD 2 revokes a key entry, clearing V and incrementing its TAG. -/
  | kcmdRevoke (ix : Nat)
  /-- R402. CMD 3 rereads a RoCE connection-table entry. -/
  | kcmdRereadConn (ix : Nat)
  /-- R391. Sends MSGOUT to the host, as a ring entry or a PRI Page Request, blocking while the ring is full. -/
  | msggo (th : Nat)
  /-- R391. Clears MSGIN's valid bit and advances the host-to-device HEAD. -/
  | msgack
  /-- R391. The Link Engine copies the host entry at HEAD into MSGIN and wakes waiting Hawk threads. -/
  | hostMessageArrival
  /-- R421. A write requests operating points for compute islands; point 3 is refused for islands in use. -/
  | opreqWrite (hi : Bool) (v : Word)
  /-- R421. An island's new effective operating point takes effect at a cycle boundary within 10 µs. -/
  | operatingPointChange (island : Nat)
  /-- R385. A host read through a BAR returns data, or a Completer Abort for poisoned or refused targets. -/
  | hostRead (bar : Nat) (off : Nat) (size : Nat)
  /-- R390. A host write is performed at .sys, storing the poison marking when it arrives poisoned. -/
  | hostWrite (bar : Nat) (off : Nat) (data : List Byte) (poisoned : Bool)
  /-- R386. The device answers every H2D snoop with RspIHitI. -/
  | cxlSnoop (addr : Word)
  /-- R418. The DOE request returns the device identity certificate chain. -/
  | getId
  /-- R418. The DOE request returns signed measurements bound to a nonce. -/
  | getMeas (nonce : List Byte)
  /-- R418. The DOE request writes bundle bytes into flash slot A, or is refused. -/
  | writeFw (off : Nat) (data : List Byte)
  /-- R33. A router forwards a packet deterministically, discarding reserved destinations and reserved kinds as leaks. -/
  | packetRouting (k : Nat)
  /-- R35. A configuration packet is counted along a row and taken by the working cluster at count zero. -/
  | configPacketHop (k : Nat)
  /-- R142. An arriving token is placed in the matching store, or bypasses it, or waits in the ejection buffer. -/
  | tokenArrival (c : Nat)
  /-- R34. An arriving tile packet takes pool lines, fills them, rewrites its handle and delivers the token. -/
  | tilePacketDelivery (c : Nat)
  /-- R143. When an entry frees, the oldest waiting token in the ejection buffer is placed. -/
  | ejectionWaitPlacement (c : Nat)
  /-- R144. A token waiting 65,536 cycles with no entry freed raises a freeze and MATCH_OVERFLOW. -/
  | matchOverflow (c : Nat)
  /-- R27. A waiting firing becomes ready when every line of its tile fills, or becomes an error firing on a generation mismatch. -/
  | tileOperandReady (c : Nat) (k : Nat)
  /-- R147. An engine's dispatcher picks and issues a ready firing by context round-robin and colour age. -/
  | firingDispatch (c : Nat) (eng : Nat)
  /-- R19. The home cluster allocates a colour once the window, liveness and quarantine allow, releasing the waiting firing. -/
  | colourAllocation (rid : Nat) (ctx : BitVec 8)
  /-- R43. The home cluster sets the strand's irrevocable bit and acknowledges, or refuses it when a purge is pending. -/
  | irrevocableHandshake (rid : Nat) (tag : Tag)
  /-- R96. The home cluster ORs a firing's raised flags into f7, or drops them for a freed colour. -/
  | flagUpdate (rid : Nat) (tag : Tag) (flags : BitVec 6)
  /-- R164. The home cluster performs a frame access of a strand as one step and answers. -/
  | frameRequest (rid : Nat) (tag : Tag) (req : FrameReq)
  /-- R171. The home cluster absorbs a purge request, reports the activation failed, or raises a purge signal. -/
  | purgeRequest (rid : Nat) (tag : Tag)
  /-- R172. On the effective tick, entries of the colour are removed, the colour is freed and quarantined, and children are purged. -/
  | purgeEffect (rid : Nat)
  /-- R172. A purged colour number becomes allocatable 65,536 unfrozen ticks after the purge. -/
  | quarantineExpiry (rid : Nat)
  /-- R173. The home cluster re-issues a purged activation from its spawn record under a new colour. -/
  | replay (rid : Nat)
  /-- R174. On the effective tick, the colour is restamped, its EXITs get error tokens, an item is written and REPLAY_FAILED raised. -/
  | activationFailEffect (rid : Nat)
  /-- R121. A SINK token enters its region's sink ring in arrival order, waiting in its router while the ring is full. -/
  | sinkRingEntry (rid : Nat)
  /-- R38. A waiting configuration packet replaces a predecessor node once its LAST tokens, entries and colours are done. -/
  | spliceReplacement (c : Nat) (slot : BitVec 11)
  /-- R168. A configuration packet waiting 2^24 ticks raises SPLICE_BLOCKED and keeps waiting. -/
  | spliceTimeLimit (c : Nat) (slot : BitVec 11)
  /-- R177. A marker token at a node saves state, records channel tokens, and forwards once every port has its marker. -/
  | markerArrival (c : Nat)
  /-- R159. A running SRC stream emits its next value, after any colour allocation it needs. -/
  | srcStreamEmit (c : Nat) (k : Nat)
  /-- R170. A partner digest arrives; equal digests let the primary emit, unequal ones purge both strands. -/
  | cmpxDigestArrival (c : Nat) (k : Nat)
  /-- R170. No partner digest within 2^20 ticks purges the strand. -/
  | cmpxTimeout (c : Nat) (k : Nat)
  /-- R44. On tick T no firing issues, issued firings drain to capture buffers, and the region becomes FROZEN. -/
  | freezeEffect (rid : Nat)
  /-- R120. On tick U every cluster resumes, captured tokens are released and bank waiters are rechecked. -/
  | thawEffect (rid : Nat)
  /-- R32. The Link Engine relays a spanning region's freeze, thaw, purge or marker signal to member packages. -/
  | spanSignalRelay (rid : Nat) (reached : Bool)
  /-- R240. A quad owner answers, and re-answers on change, the state of lines a peer's firing names. -/
  | quadLineStateQuery (owner : Nat) (k : Nat)
  /-- R241. A quad owner serves the next queued read, multicasting to joined requesters. -/
  | quadReadServe (owner : Nat)
  /-- R256. A queue issues its next pending firing once the previous has issued its last element. -/
  | stencilQueueIssue (c : Nat) (q : Nat)
  /-- R262. A stream tile step allocates a pool tile, fills it, and sends its token. -/
  | streamTileStep (c : Nat) (q : Nat)
  /-- R263. A ring tile step waits for its slot to empty, fills it, and sends its token. -/
  | ringTileStep (c : Nat) (q : Nat)
  /-- R264. A retained ring step waits until no spawn record names the slot, then re-empties and fills it. -/
  | retainedRingStep (c : Nat) (q : Nat)
  /-- R288. A port accepts an arriving request into its acceptance queue, or performs nothing for a non-owner. -/
  | portRequestAccept (p : Nat)
  /-- R288. A free address generator takes the oldest accepted firing it may start. -/
  | generatorStart (p : Nat)
  /-- R291. A generator translates and performs one element and completes the firing at its last element. -/
  | elementPerform (p : Nat) (g : Nat)
  /-- R311. A waiting wave access is performed once its predecessor condition holds. -/
  | waveAccessPerform (p : Nat) (k : Nat)
  /-- R310. A streaming port reads ahead within its range into its buffer. -/
  | readAhead (p : Nat)
  /-- R324. A bank accepts one request per cycle round-robin, fixing the word's serial order. -/
  | bankRequestAccept (b : Nat)
  /-- R333. A combining entry is applied after 16 contributions, 64 cycles, a flush, a fence or a freeze. -/
  | combiningEntryApply (b : Nat) (k : Nat)
  /-- R339. A parked waiter's limit expires and it leaves with QUEUE_TIMEOUT, or QUEUE_WAIT is raised once. -/
  | waiterLimitExpiry (k : Nat)
  /-- R342. A bank fetches a BCALL routine from another bank on the forwarded-request network. -/
  | routineFetch (b : Nat) (addr : Word)
  /-- R396. A NACKed requester retries after its backoff, marked AGED from the fourth NACK. -/
  | nackRetry (k : Nat)
  /-- R354. The home cluster answers a class-6 firing's member index once prior joins and leaves are settled. -/
  | memberIndexLookup (k : Nat)
  /-- R351. A Plumb root takes arriving and held signals in tick order, opening rounds and counting arrivals. -/
  | rootSignalTake (k : Nat)
  /-- R362. A barrier or broadcast round releases every member in the same tick. -/
  | roundRelease (crew : Nat)
  /-- R366. An open notice lands at an endpoint and waiting PRED.PUT firings enter. -/
  | reductionNoticeLanding (crew : Nat) (rnd : Nat)
  /-- R367. At the deadline tick the root forms the result over on-time contributions and sends it out. -/
  | deadlineEvaluation (crew : Nat) (rnd : Nat)
  /-- R369. A late contribution is stored and a correction packet is sent. -/
  | lateContribution (k : Nat)
  /-- R369. One tick after the last correction of a completed round, the root sends the final value. -/
  | finalPacket (crew : Nat) (rnd : Nat)
  /-- R367. A result, correction or final packet lands at endpoints, releasing waiting firings. -/
  | resultLanding (k : Nat)
  /-- R373. A waiting PTIME emits at its tick, or at THAW if the tick passed while frozen. -/
  | ptimeExpiry (c : Nat) (k : Nat)
  /-- R375. On the effective tick, MARK nodes of the group save and emit markers, and clusters write records. -/
  | markerSignalEffect (rid : Nat)
  /-- R375. When all saved nodes have forwarded and records are performed, the header and done token are written. -/
  | snapshotComplete (rid : Nat)
  /-- R375. A snapshot not complete within 2^SNAPLIM ticks ends with the timeout bit set. -/
  | snapshotTimeout (rid : Nat)
  /-- R377. The root forms the region's quiescence state for a tick. -/
  | censusTick (rid : Nat)
  /-- R378. Waiting PQUIETs emit when a census is not BUSY. -/
  | pquietWaitEmit (rid : Nat)
  /-- R379. 65,536 consecutive PARKED censuses with DLEN set raise a freeze and DEADLOCK. -/
  | deadlock (rid : Nat)
  /-- R380. A window with no firing, no response and no EXTERNAL census raises a freeze, WDOG and a host notice. -/
  | wdog (rid : Nat)
  /-- R400. An incoming link access is checked against the key table and performed or refused per element. -/
  | incomingRemoteAccess (a : RemoteAccess)
  /-- R408. An incoming message is stored in its receive queue, NACKed when full, or refused. -/
  | incomingSend (m : RemoteSend)
  /-- R408. An LSEND or LRECV limit expires with QUEUE_TIMEOUT, or raises QUEUE_WAIT once. -/
  | linkWaitLimitExpiry (k : Nat)
  /-- R394. A Scewen flit is taken in sequence order, returning slots and acknowledgements. -/
  | scewenFlitReceive (port : Nat) (hdr : Word) (flit : List Byte) (crcOk : Bool)
  /-- R395. Every 256 flits the sender sends its cumulative counts for the eight receive buffers. -/
  | slotSync (port : Nat)
  /-- R393. A failing port retrains or goes down, and traffic is rerouted in order the other way around the ring. -/
  | scewenPortDown (port : Nat) (lanes : Nat)
  /-- R397. The reliable message layer retransmits selectively 8 µs after a missing acknowledgement. -/
  | ethernetRetransmit (k : Nat)
  /-- R423. Every 2^20 ticks power, energy, temperature and error counts are updated, and power clamps adjusted. -/
  | telemetryUpdate (r : Readings)
  /-- R422. At 105 °C a die's islands are clamped to point 2 and THERMAL is set, lifting below 95 °C. -/
  | thermalClamp (die : Nat) (temp : Nat)
  /-- R422. At 115 °C every region freezes, FATAL is set and the compute islands are held in reset. -/
  | thermalShutdown (die : Nat) (temp : Nat)
  /-- R427. A cluster is marked failing on self-test, error count or router failure and is no longer granted. -/
  | clusterFailing (die : Nat) (cluster : Nat) (router : Bool)
  /-- R83. A Hawk thread issues a word that no format, opcode or sub-code assigns and traps ILLEGAL with no state changed. -/
  | illegalEncoding (w : BitVec 32)
  /-- R429. An HBM channel or a bank fails; from then on it reads as poisoned, and REPLACE_REQUESTED, its RCAUSE bit and a KIND 5 item follow. -/
  | memoryFailure (bank : Bool) (ix : Nat)
  /-- R429. An Ethernet port goes down, setting REPLACE_REQUESTED with RCAUSE bit 5 and writing a KIND 6 item, while traffic spreads over the working ports. -/
  | ethernetPortDown (port : Nat)
  /-- R406. The answer to an issued link request (data, acknowledgement or a RoCE ACK) reaches the issuing Link Engine, which emits the operation's result or done token. -/
  | linkResponseArrival (k : Nat) (a : LinkAnswer)
  deriving DecidableEq, Repr

end Sys2Proof
end

