-- ==== Sys2Proof/Machine/Accept.lean ====
section
/-! DEFINITION. What each operator accepts (03 R72): port counts, formats, rounding, FLG bits, colour transforms and
the IMM layout of each engine's table, with the further refusals of 05 R153 to R166, 06 R186 and R187, 07 R226 to R228,
08 R266 to R268, 09 R303 and R304, 10 R326 to R328, 11 R358 to R360 and 12 R403 and R404. -/

namespace Sys2Proof

/-! ### Formats (03 R86, R88) -/

/-- Bits of one element as it is packed in a row (R86); an mx scale byte is counted apart. -/
def fmtBits : Fmt → Nat
  | .raw | .i8 | .n8 | .e4m3 | .e5m2 | .mx8 => 8
  | .i16 | .n16 | .f16 | .bf16 => 16
  | .i32 | .n32 | .f32 => 32
  | .i64 | .n64 | .f64 => 64
  | .mx4 => 4
  | .b1 => 1

def Fmt.isInt : Fmt → Bool
  | .i8 | .i16 | .i32 | .i64 | .n8 | .n16 | .n32 | .n64 => true
  | _ => false

def Fmt.isSigned : Fmt → Bool
  | .i8 | .i16 | .i32 | .i64 => true
  | _ => false

/-- Group F of 06 R186. -/
def Fmt.isF : Fmt → Bool
  | .f16 | .bf16 | .f32 | .f64 => true
  | _ => false

def Fmt.isMx : Fmt → Bool
  | .mx8 | .mx4 => true
  | _ => false

def allFmts : List Fmt :=
  [.raw, .i8, .i16, .i32, .i64, .n8, .n16, .n32, .n64, .f16, .bf16, .f32, .f64, .e4m3, .e5m2, .mx8, .mx4, .b1]
def intFmts : List Fmt := [.i8, .i16, .i32, .i64, .n8, .n16, .n32, .n64]
def floatFmts : List Fmt := [.f16, .bf16, .f32, .f64]
/-- Group M of 06 R186. -/
def moveFmts : List Fmt := allFmts.filter fun f => !f.isMx
/-- Group C of 06 R186. -/
def compactFmts : List Fmt := floatFmts ++ [.e4m3, .e5m2] ++ intFmts
/-- Group S of 09 R303 and 10 R326. -/
def scalarFmts : List Fmt := intFmts ++ floatFmts ++ [.e4m3, .e5m2, .raw]
/-- Group A of 10 R326. -/
def atomFmts : List Fmt := [.i32, .i64, .n32, .n64, .f32, .f64]
/-- Group Q of 10 R326. -/
def queueFmts : List Fmt := intFmts ++ [.raw]
/-- The formats of 07 R224. -/
def matrixFmts : List Fmt := [.f16, .bf16, .e4m3, .e5m2, .mx8, .mx4]

/-- The code of a format (03 R88). -/
def Fmt.code : Fmt → Nat
  | .raw => 0 | .i8 => 1 | .i16 => 2 | .i32 => 3 | .i64 => 4 | .n8 => 5 | .n16 => 6 | .n32 => 7 | .n64 => 8
  | .f16 => 9 | .bf16 => 10 | .f32 => 11 | .f64 => 12 | .e4m3 => 13 | .e5m2 => 14 | .mx8 => 15 | .mx4 => 16
  | .b1 => 18

/-- The format a code names; codes 0x11 and 0x13 to 0x1F are reserved (03 R88). -/
def Fmt.ofCode : Nat → Option Fmt
  | 0 => some .raw | 1 => some .i8 | 2 => some .i16 | 3 => some .i32 | 4 => some .i64
  | 5 => some .n8 | 6 => some .n16 | 7 => some .n32 | 8 => some .n64 | 9 => some .f16 | 10 => some .bf16
  | 11 => some .f32 | 12 => some .f64 | 13 => some .e4m3 | 14 => some .e5m2 | 15 => some .mx8
  | 16 => some .mx4 | 18 => some .b1 | _ => none

/-- Bytes that a row of `n` elements takes, mx scales included (R86). -/
def rowBytes (f : Fmt) (n : Nat) : Nat := (n * fmtBits f + 7) / 8 + if f.isMx then n / 32 else 0

/-- Lines one row takes in a result tile (06 R183). -/
def pitchFor (f : Fmt) (n : Nat) : Nat := (rowBytes f n + 127) / 128

/-- The shape limits of a result tile (06 R183): a row of at most 8 lines, a tile of at most 256 lines. -/
def shapeFits (f : Fmt) (rows epr : Nat) : Bool := pitchFor f epr ≤ 8 && rows * pitchFor f epr ≤ 256

/-! ### Fields of IMM -/

/-- Bits hi to lo of IMM, as a number. -/
def immBits (o : Op) (hi lo : Nat) : Nat := (o.imm.extractLsb' lo (hi + 1 - lo)).toNat

def immBit (o : Op) (i : Nat) : Bool := o.imm.getLsbD i

/-- Rows and elements per row of an IMM shape field in bits 18..12 and 11..0 (06 R185). -/
def immShape (o : Op) : Nat × Nat := (immBits o 18 12 + 1, immBits o 11 0 + 1)

/-- Rows and elements per row of the shape field of LD, LDS and LGET (09 R303, 12 R404). -/
def immShapeHi (o : Op) : Nat × Nat := (immBits o 24 18 + 1, immBits o 17 6 + 1)

/-- Rows and elements per row of the shape field of BLD (10 R327). -/
def immShapeBld (o : Op) : Nat × Nat := (immBits o 20 14 + 1, immBits o 13 2 + 1)

/-- A format named by an IMM field. -/
def immFmt (o : Op) (hi lo : Nat) : Option Fmt := Fmt.ofCode (immBits o hi lo)

/-- The mask of bits hi to lo. -/
def bitsMask (hi lo : Nat) : BitVec 37 := BitVec.ofNat 37 (2 ^ (hi + 1) - 2 ^ lo)

/-- The number of input ports of a word: ARITY plus one. -/
def Op.nports (o : Op) : Nat := o.ports.toNat + 1

/-- The number of route-word entries in use (03 R73). -/
def Op.rwi (o : Op) : Nat := o.dst0.rwi.toNat

def scopeOk (n : Nat) : Bool := n ≤ 5

/-! ### Accepted forms -/

/-- One row of an engine's table of accepted forms (R72). Every operator accepts ORD. -/
structure Form where
  ports : List Nat
  fmts : List Fmt
  rnds : List Rnd := [.rne]
  sat : Bool := false
  fe : Bool := false
  xfms : List Xfm := [.keep, .next, .exit, .new, .free]
  mask : BitVec 37 := 0

/-- The fields of a word lie within its form, and its destinations keep R73. -/
def Form.admits (f : Form) (o : Op) : Bool :=
  f.ports.contains o.nports && f.fmts.contains o.fmt && f.rnds.contains o.rnd &&
  (f.sat || !o.sat) && (f.fe || !o.fe) && f.xfms.contains o.xfm && (o.imm &&& ~~~f.mask == 0) &&
  o.dst1.rwi == 0 && decide (o.rwi ≤ 6)

def allRnds : List Rnd := [.rne, .rtz, .rup, .rdn, .rna, .rst, .dyn]
def staticRnds : List Rnd := [.rne, .rtz, .rup, .rdn, .rna]

/-! ### Class 0 (05 R153 to R178) -/

def ctlForm (ports : List Nat) (mask : BitVec 37 := 0) : Form := { ports := ports, fmts := allFmts, mask := mask }
def ctxForm (mask : BitVec 37) : Form := { ports := [1, 2, 3, 4], fmts := [.raw], xfms := [.keep], mask := mask }

def noDests (o : Op) : Bool := !o.dst0.valid && !o.dst1.valid && o.rwi == 0

/-- Entry j of the MAP of a CTX operator, for destination j in the fixed order DST0, DST1, E0 to E5 (05 "Context and
colour operators"). DEDUCED: destination j is the j-th place of R75, used or not, since the rule speaks of "an entry for
a destination that is not in use"; notes/assumptions/12.md. -/
def mapEntry (o : Op) (j : Nat) : Nat := (o.imm.toNat >>> (2 * j)) % 4

/-- Place j of R75 is in use. -/
def placeUsed (o : Op) (j : Nat) : Bool :=
  if j = 0 then o.dst0.valid else if j = 1 then o.dst1.valid else decide (j < o.rwi + 2)

def mapOk (o : Op) : Bool :=
  (List.range 8).all fun j => if placeUsed o j then mapEntry o j < o.nports else mapEntry o j == 0

/-- The scalar ALU's forms (05 R165): its port count without IMMB, whether it takes SAT and FE, and its FN codes. -/
def scalarOk (o : Op) (ports : Nat) (flags : Bool) (fnOk : Nat → Bool) : Bool :=
  let immb := immBit o 36
  Form.admits { ports := [if immb then ports - 1 else ports], fmts := intFmts, sat := flags, fe := flags,
                mask := bitsMask 36 0 } o &&
  fnOk (immBits o 35 32) && (immb || immBits o 31 0 == 0)

/-! ### Class 1 (06 R185 to R187) -/

/-- IMMB and IMMV where the operator names them (R185): one port fewer, and IMMV zero without IMMB; in f16 and bf16
bits 31..16 of IMMV are zero. -/
def vimmOk (o : Op) (lastFmt : Fmt) : Bool :=
  if immBit o 36 then
    match lastFmt with
    | .f16 | .bf16 => immBits o 31 16 == 0
    | _ => true
  else immBits o 31 0 == 0

/-- An element-wise vector operator with an optional immediate last port. -/
def vecOk (o : Op) (ports : Nat) (fmts : List Fmt) (rounds sat fe : Bool) (lastFmt : Fmt) (fn : Nat → Bool) : Bool :=
  Form.admits { ports := [if immBit o 36 then ports - 1 else ports], fmts := fmts,
                rnds := if rounds then allRnds else [.rne], sat := sat, fe := fe, mask := bitsMask 36 0 } o &&
  vimmOk o lastFmt && fn (immBits o 35 32)

def vecForm (ports : Nat) (fmts : List Fmt) (rounds sat fe : Bool) (mask : BitVec 37 := 0) : Form :=
  { ports := [ports], fmts := fmts, rnds := if rounds then allRnds else [.rne], sat := sat, fe := fe, mask := mask }

def shapeMask : BitVec 37 := bitsMask 18 0

def shapeOk (o : Op) : Bool := shapeFits o.fmt (immShape o).1 (immShape o).2

/-- The formats into which VREDUCE and VSCAN may combine FMT (06 R212). -/
def reduceOfmtOk (fn : Nat) (f ofmt : Fmt) : Bool :=
  match f with
  | .f16 => [.f16, .f32, .f64].contains ofmt
  | .bf16 => [.bf16, .f32, .f64].contains ofmt
  | .f32 => [.f32, .f64].contains ofmt
  | .f64 => ofmt == .f64
  | .b1 => if fn = 0 then ofmt.isInt && !ofmt.isSigned else ofmt == .b1
  | _ => ofmt.isInt && ofmt.isSigned == f.isSigned && fmtBits f ≤ fmtBits ofmt

/-- The formats that each operation of VREDUCE and VSCAN allows (06 R212). -/
def reduceFnOk (fn : Nat) (f : Fmt) : Bool :=
  match fn with
  | 0 => f.isF || f.isInt || f == .b1
  | 1 | 2 | 3 => f.isF || f.isInt
  | 4 | 5 => f.isF
  | 6 | 7 | 8 => f.isInt || f == .b1
  | _ => false

def reduceOk (o : Op) (mask : BitVec 37) : Bool :=
  Form.admits { ports := [1], fmts := floatFmts ++ intFmts ++ [.b1], rnds := if o.fmt.isF then allRnds else [.rne],
                sat := true, fe := true, mask := bitsMask 35 32 ||| bitsMask 4 0 ||| mask } o &&
  reduceFnOk (immBits o 35 32) o.fmt &&
  match immFmt o 4 0 with
  | some g => reduceOfmtOk (immBits o 35 32) o.fmt g
  | none => false

/-- GL, K and PACK of VCOMPR and VEXPND (06 R214). -/
def comprOk (o : Op) : Bool :=
  let gl := immBits o 2 0
  let k := immBits o 8 3
  decide (2 ≤ gl) && decide (gl ≤ 5) && decide (1 ≤ k) && decide (k < 2 ^ gl) &&
  (!immBit o 9 || (gl == 2 && k == 2))

/-- MODE and BITS of VRNG (06 R217). -/
def vrngOk (o : Op) : Bool :=
  let bits := immBits o 34 29
  match immBits o 36 35 with
  | 0 => o.fmt.isInt && bits == 0
  | 1 | 2 => (o.fmt == .f32 || o.fmt == .f64) && bits == 0
  | _ => o.fmt.isInt && bits % 2 == 0 && decide (2 ≤ bits) && decide (bits ≤ 32) && decide (bits ≤ fmtBits o.fmt)

/-! ### Class 2 (07 R226 to R228) -/

/-- The classes of 07 R224: 16-bit, 8-bit, mx8 and mx4. -/
def matrixClass : Fmt → Nat
  | .f16 | .bf16 => 0
  | .e4m3 | .e5m2 => 1
  | .mx8 => 2
  | .mx4 => 3
  | _ => 4

/-- The format of B: BFMT, or FMT when BFMT is 0 (07 R227). -/
def matrixBfmt (o : Op) : Option Fmt := if immBits o 36 32 = 0 then some o.fmt else immFmt o 36 32

/-- MMA, MMA.SP and MOUTER: the ports with B from the ports, and whether w0 and w1 may be named. -/
def mmaOk (o : Op) (ports : Nat) (bound : Bool) : Bool :=
  let wsel := immBits o 17 16
  Form.admits { ports := [if wsel = 0 then ports else 1], fmts := matrixFmts, rnds := [.rne, .rtz], sat := true,
                fe := true, mask := bitsMask 36 16 } o &&
  decide (wsel ≤ if bound then 2 else 0) &&
  match matrixBfmt o with
  | some g => matrixClass g == matrixClass o.fmt
  | none => false

/-- The block of MACC.RD and MACC.CLR lies within 64 x 64 (07 R228). -/
def maccBlockOk (o : Op) : Bool :=
  decide (immBits o 29 24 + immBits o 17 12 + 1 ≤ 64) && decide (immBits o 23 18 + immBits o 11 6 + 1 ≤ 64)

def sortFmts : List Fmt := floatFmts ++ intFmts ++ [.e4m3, .e5m2]

def sortOk (o : Op) (ports : List Nat) (mask : BitVec 37) : Bool :=
  Form.admits { ports := ports, fmts := sortFmts, mask := mask } o && o.rwi == 0

/-! ### Class 3 (08 R266 to R268) -/

def stencilForm (ports : List Nat) (mask : BitVec 37) (fmts : List Fmt := [.raw]) : Form :=
  { ports := ports, fmts := fmts, xfms := [.keep, .next, .exit, .free], mask := mask }

/-! ### Class 4 (09 R303, R304) -/

def portForm (ports : List Nat) (fmts : List Fmt) (mask : BitVec 37) : Form :=
  { ports := ports, fmts := fmts, xfms := [.keep, .exit], mask := mask }

/-- SCOPE, DIE and PORT, the fields of every class-4 memory operator. -/
def portMask : BitVec 37 := bitsMask 36 27

def waveOk (o : Op) (ports : Nat) (mask : BitVec 37) : Bool :=
  (portForm [ports] scalarFmts (portMask ||| bitsMask 25 25 ||| bitsMask 23 0 ||| mask)).admits o &&
  scopeOk (immBits o 36 34) && immBits o 23 16 != 0 && immBits o 23 16 != 255

/-- LD: one port, or two with TILE, which alone takes a shape (09 R303). -/
def ldForm (o : Op) : Form :=
  if immBit o 25 then portForm [2] allFmts (portMask ||| bitsMask 25 6)
  else portForm [1] scalarFmts (portMask ||| bitsMask 25 25)

/-- ST: two ports, or three with TILE (09 R303). -/
def stForm (o : Op) : Form :=
  if immBit o 25 then portForm [3] allFmts (portMask ||| bitsMask 26 25)
  else portForm [2] scalarFmts (portMask ||| bitsMask 26 25)

/-! ### Class 5 (10 R326 to R328) -/

def bankMask : BitVec 37 := bitsMask 36 22

def bankForm (ports : List Nat) (fmts : List Fmt) (mask : BitVec 37) : Form :=
  { ports := ports, fmts := fmts, xfms := [.keep, .exit], mask := bankMask ||| mask }

def isFloatAtom (f : Fmt) : Bool := f == .f32 || f == .f64

/-- The operation and format pairs of 10 R327. -/
def atomFnOk (fn : Nat) (f : Fmt) (swap : Bool) : Bool :=
  match fn with
  | 0 => swap
  | 1 | 5 | 6 => true
  | 2 | 3 | 4 => f.isInt
  | 7 | 8 => isFloatAtom f
  | _ => false

/-- SAT is accepted on floating operands and on integer add; FE on floating operands only (10 R328). -/
def atomFlagsOk (fn : Nat) (o : Op) : Bool :=
  (!o.sat || isFloatAtom o.fmt || fn == 1) && (!o.fe || isFloatAtom o.fmt)

/-- The rounding codes an atomic accepts: those given for f32 and f64, otherwise 0 (10 R326). -/
def atomRnds (f : Fmt) (codes : List Rnd) : List Rnd := if isFloatAtom f then codes else [.rne]

/-- ATOM and BUPD: the two-port form, or one port with IMMB, with SAT and FE. -/
def atomForm (o : Op) (immb : Bool) (mask : BitVec 37) : Form :=
  { bankForm [if immb then 1 else 2] atomFmts mask with rnds := atomRnds o.fmt allRnds, sat := true, fe := true }

/-- RED: no flags, and rounding codes 0 to 4. -/
def redForm (o : Op) : Form :=
  { bankForm [if immBit o 21 then 1 else 2] atomFmts (bitsMask 21 0) with rnds := atomRnds o.fmt staticRnds }

/-! ### Class 6 (11 R358 to R360, R368) -/

def plumbForm (ports : List Nat) (fmts : List Fmt) (mask : BitVec 37 := 0) : Form :=
  { ports := ports, fmts := fmts, xfms := [.keep, .exit], mask := mask }

def openFmts : List Fmt := [.i64, .n64, .f64, .raw]

/-- The operations each format admits in a reduction (11 R368). -/
def redOpOk (op : Nat) (f : Fmt) : Bool :=
  match op with
  | 0 | 1 | 2 => f != .raw
  | 3 | 4 | 5 => !f.isF
  | _ => false

/-- PRED.OPEN and TRED: rounding with floating add, SAT with integer add, FE with floating formats (11 R358). -/
def openForm (o : Op) (ports : List Nat) (fmts : List Fmt) (mask : BitVec 37) : Form :=
  { plumbForm ports fmts mask with
    rnds := if o.fmt.isF && immBits o 36 34 == 0 then staticRnds else [.rne]
    sat := o.fmt.isInt && immBits o 36 34 == 0
    fe := o.fmt.isF }

/-! ### Class 7 (12 R403, R404) -/

def linkForm (ports : List Nat) (fmts : List Fmt) (mask : BitVec 37) : Form :=
  { ports := ports, fmts := fmts, xfms := [.keep, .exit], mask := mask }

/-- LATOM: rounding with floating add, min, max, minn and maxn (12 R403); a fourth port with cas. -/
def latomForm (o : Op) : Form :=
  let fn := immBits o 20 17
  { linkForm [if fn = 9 then 4 else 3] atomFmts (bitsMask 20 17) with
    rnds := if isFloatAtom o.fmt && [1, 5, 6, 7, 8].contains fn then staticRnds else [.rne] }

/-- The operation and format pairs of LATOM (12 R404). -/
def latomFnOk (fn : Nat) (f : Fmt) : Bool :=
  if fn = 9 then !isFloatAtom f else decide (fn < 9) && atomFnOk fn f true

/-- The operator fields of an instruction, none for a Hawk word or a device event. -/
def opOf : Instr → Option Op
  | .pass o  | .const o  | .dup o  | .route o  | .steer o  | .gate o
  | .sel o  | .join o  | .drop o  | .sink o  | .src o  | .tagx o
  | .ctxEnter o  | .ctxNext o  | .ctxExit o  | .invSet o  | .invGet o  | .flagsGet o
  | .flagsClr o  | .sadd o  | .ssub o  | .smul o  | .smad o  | .scmp o
  | .slog o  | .sshf o  | .sminmax o  | .pfence o  | .splice o  | .cmpx o
  | .mark o  | .vadd o  | .vsub o  | .vmul o  | .vfma o  | .vfms o
  | .vdiv o  | .vsqrt o  | .vrsqrt o  | .vmin o  | .vmax o  | .vminn o
  | .vmaxn o  | .vabs o  | .vneg o  | .vcpys o  | .vscale o  | .vrnd o
  | .vclass o  | .vcmp o  | .vcvt o  | .vsplit o  | .vexp o  | .vexpm1 o
  | .vlog o  | .vlog1p o  | .verf o  | .verfc o  | .vexp2 o  | .vlog2 o
  | .viadd o  | .visub o  | .vimul o  | .vimulh o  | .vimad o  | .vimin o
  | .vimax o  | .vicmp o  | .vand o  | .vor o  | .vxor o  | .vshl o
  | .vshr o  | .vsar o  | .vpopc o  | .vclz o  | .vbcast o  | .vsel o
  | .vperm o  | .vtrans o  | .viota o  | .vextr o  | .vins o  | .vslice o
  | .vreduce o  | .vscan o  | .vcompr o  | .vexpnd o  | .vrng o  | .vquant o
  | .vdeq o  | .mma o  | .mmaSp o  | .mwload o  | .maccRd o  | .maccWr o
  | .maccClr o  | .mouter o  | .msort o  | .mtopk o  | .mmerge o  | .mtrans o
  | .scopy o  | .sarm o  | .sfire o  | .schain o  | .sdisarm o  | .sempty o
  | .sfill o  | .sgen o  | .sorder o  | .scancel o  | .ld o  | .st o
  | .ldi o  | .sti o  | .lds o  | .sts o  | .portLdw o  | .portStw o
  | .pref o  | .mresume o  | .mstart o  | .mmode o  | .bld o  | .bst o
  | .bankAtom o  | .acas o  | .red o  | .rflush o  | .bupd o  | .fget o
  | .fput o  | .fclr o  | .qinit o  | .qpush o  | .qpop o  | .wait o
  | .wake o  | .bcall o  | .pbar o  | .pbcast o  | .predOpen o  | .predPut o
  | .pcorr o  | .tred o  | .crewNew o  | .crewJoin o  | .crewLeave o  | .crewFree o
  | .ptime o  | .pquiet o  | .psig o  | .lput o  | .lget o  | .latom o
  | .lsend o  | .lrecv o  | .lfence o => some o
  | .add .. | .sub .. | .and .. | .or .. | .xor .. | .andn .. | .shl .. | .shr .. | .sar .. | .slt .. | .sltn ..
  | .mul .. | .mulh .. | .mulhn .. | .div .. | .divn .. | .rem .. | .remn .. | .addi .. | .andi .. | .ori ..
  | .xori .. | .shli .. | .shri .. | .sari .. | .slti .. | .ldhi .. | .addpc .. | .ldb .. | .ldh .. | .ldw ..
  | .ldd .. | .ldbn .. | .ldhn .. | .ldwn .. | .stb .. | .sth .. | .stw .. | .std .. | .beq .. | .bne .. | .blt ..
  | .bge .. | .bltn .. | .bgen .. | .jmpl .. | .jmpr .. | .fadd .. | .fsub .. | .fmul .. | .fdiv .. | .fsqrt ..
  | .fminIeee .. | .fminNum .. | .fmaxIeee .. | .fmaxNum .. | .fcmpEq .. | .fcmpLt .. | .fcmpLe .. | .fcmpUn ..
  | .fcvtFf .. | .fcvtFromi .. | .fcvtFromn .. | .fcvtToi .. | .fcvtTon .. | .fcvtInt .. | .fmovMov ..
  | .fmovFromx .. | .fmovTox .. | .fmovNeg .. | .fmovAbs .. | .fmovCpys .. | .fclass .. | .ffma .. | .fld ..
  | .fst .. | .atomSwap .. | .atomAdd .. | .atomAnd .. | .atomOr .. | .atomXor .. | .atomMin .. | .atomMax ..
  | .atomMinn .. | .atomMaxn .. | .atomCas .. | .fence .. | .sysr .. | .sysw .. | .trap .. | .tret | .wfe | .svc ..
  | .gload .. | .inj .. | .snkpop .. | .freeze .. | .scan .. | .restore .. | .opwr .. | .diagstHbm ..
  | .diagstBank .. | .diagstSp .. | .thaw .. | .packageReset .. | .asyncCauseDelivery .. | .timerEvent ..
  | .wfeWake .. | .snkpopWaitResume .. | .injColourResume .. | .hwakeWrite .. | .htimecmpWrite ..
  | .registerWrite .. | .launchPeek .. | .launchCommit .. | .launchRelease .. | .effectivePriorityAging ..
  | .allocReq .. | .allocFree .. | .spanmapBind .. | .spanmapUnbind .. | .twinPair .. | .twinUnpair .. | .tctlClr ..
  | .leakthrWrite .. | .prtabLoad .. | .hrtabLoad .. | .tlbinvPage .. | .tlbinvAsid .. | .tlbinvAll
  | .kcmdRereadKey .. | .kcmdRevoke .. | .kcmdRereadConn .. | .msggo .. | .msgack | .hostMessageArrival
  | .opreqWrite .. | .operatingPointChange .. | .hostRead .. | .hostWrite .. | .cxlSnoop .. | .getId | .getMeas ..
  | .writeFw .. | .packetRouting .. | .configPacketHop .. | .tokenArrival .. | .tilePacketDelivery ..
  | .ejectionWaitPlacement .. | .matchOverflow .. | .tileOperandReady .. | .firingDispatch .. | .colourAllocation ..
  | .irrevocableHandshake .. | .flagUpdate .. | .frameRequest .. | .purgeRequest .. | .purgeEffect ..
  | .quarantineExpiry .. | .replay .. | .activationFailEffect .. | .sinkRingEntry .. | .spliceReplacement ..
  | .spliceTimeLimit .. | .markerArrival .. | .srcStreamEmit .. | .cmpxDigestArrival .. | .cmpxTimeout ..
  | .freezeEffect .. | .thawEffect .. | .spanSignalRelay .. | .quadLineStateQuery .. | .quadReadServe ..
  | .stencilQueueIssue .. | .streamTileStep .. | .ringTileStep .. | .retainedRingStep .. | .portRequestAccept ..
  | .generatorStart .. | .elementPerform .. | .waveAccessPerform .. | .readAhead .. | .bankRequestAccept ..
  | .combiningEntryApply .. | .waiterLimitExpiry .. | .routineFetch .. | .nackRetry .. | .memberIndexLookup ..
  | .rootSignalTake .. | .roundRelease .. | .reductionNoticeLanding .. | .deadlineEvaluation ..
  | .lateContribution .. | .finalPacket .. | .resultLanding .. | .ptimeExpiry .. | .markerSignalEffect ..
  | .snapshotComplete .. | .snapshotTimeout .. | .censusTick .. | .pquietWaitEmit .. | .deadlock .. | .wdog ..
  | .incomingRemoteAccess .. | .incomingSend .. | .linkWaitLimitExpiry .. | .scewenFlitReceive .. | .slotSync ..
  | .scewenPortDown .. | .ethernetRetransmit .. | .telemetryUpdate .. | .thermalClamp .. | .thermalShutdown ..
  | .clusterFailing .. | .illegalEncoding .. | .memoryFailure .. | .ethernetPortDown ..
  | .linkResponseArrival .. => none

/-- What the operators of class 0 accept, by OPC. -/
def tokenAccepts (opc : Nat) (o : Op) : Bool :=
  match opc with
  | 0x00 =>  -- PASS
    (ctlForm [1]).admits o
  | 0x01 =>  -- CONST
    (ctlForm [1] (bitsMask 36 0)).admits o && immBits o 36 35 != 3
  | 0x02 =>  -- DUP
    (ctlForm [1] 1).admits o
  | 0x03 =>  -- ROUTE
    (ctlForm [2]).admits o
  | 0x04 =>  -- STEER
    (ctlForm [2] 15).admits o && decide (immBits o 2 0 ≤ o.rwi)
  | 0x05 =>  -- GATE
    (ctlForm [2] 8).admits o
  | 0x06 =>  -- SEL
    (ctlForm [3] 8).admits o
  | 0x07 =>  -- JOIN
    (ctlForm [2, 3, 4] 3).admits o && decide (immBits o 1 0 < o.nports)
  | 0x08 =>  -- DROP
    Form.admits { ports := [1, 2, 3, 4], fmts := allFmts, xfms := [.keep] } o && noDests o
  | 0x09 =>  -- SINK
    Form.admits { ports := [1], fmts := allFmts, xfms := [.keep] } o && noDests o
  | 0x0A =>  -- SRC
    Form.admits { ports := [2], fmts := [.i32, .i64, .n32, .n64], xfms := [.keep, .new], mask := bitsMask 36 0 } o
  | 0x0B =>  -- TAGX
    (ctlForm [2] (bitsMask 18 0)).admits o && decide (immBits o 8 0 ≤ 319) && decide (immBits o 17 9 ≤ 319) &&
    o.rwi == 0
  | 0x10 =>  -- CTX.ENTER
    (ctxForm (bitsMask 24 0)).admits o && mapOk o
  | 0x11 =>  -- CTX.NEXT
    (ctxForm (bitsMask 21 0)).admits o && mapOk o && immBits o 21 16 != 0
  | 0x12 =>  -- CTX.EXIT
    (ctxForm (bitsMask 21 0)).admits o && mapOk o && immBits o 21 16 != 0
  | 0x13 =>  -- INV.SET
    (ctlForm [1] (bitsMask 4 0)).admits o && immBits o 4 3 != 3
  | 0x14 =>  -- INV.GET
    (ctlForm [1] (bitsMask 3 0)).admits o
  | 0x15 =>  -- FLAGS.GET
    Form.admits { ports := [1], fmts := [.raw], mask := 1 } o
  | 0x16 =>  -- FLAGS.CLR
    Form.admits { ports := [1], fmts := [.raw], mask := bitsMask 9 0 } o && !(immBit o 6 &&
    decide (6 ≤ immBits o 9 7))
  | 0x18 =>  -- SADD
    scalarOk o 2 true (· == 0)
  | 0x19 =>  -- SSUB
    scalarOk o 2 true (· == 0)
  | 0x1A =>  -- SMUL
    scalarOk o 2 true (· ≤ 1)
  | 0x1B =>  -- SMAD
    scalarOk o 3 true (· == 0)
  | 0x1C =>  -- SCMP
    scalarOk o 2 false (· ≤ 5)
  | 0x1D =>  -- SLOG
    scalarOk o 2 false (fun _ => true)
  | 0x1E =>  -- SSHF
    scalarOk o 2 false (· ≤ 3)
  | 0x1F =>  -- SMINMAX
    scalarOk o 2 false (· ≤ 1)
  | 0x20 =>  -- PFENCE
    Form.admits { ports := [1], fmts := [.raw], mask := bitsMask 8 0 } o && decide (immBits o 8 6 ≤ 5) &&
    decide (immBits o 5 3 ≤ 5) && scopeOk (immBits o 2 0)
  | 0x21 =>  -- SPLICE
    Form.admits { ports := [1, 2], fmts := [.raw] } o
  | 0x22 =>  -- CMPX
    Form.admits { ports := [2], fmts := allFmts, xfms := [.keep] } o
  | 0x23 =>  -- MARK
    (ctlForm [1] (bitsMask 15 0)).admits o
  | _ => false

/-- What the operators of class 1 accept, by OPC. -/
def vectorAccepts (opc : Nat) (o : Op) : Bool :=
  match opc with
  | 0x00 =>  -- VADD
    vecOk o 2 floatFmts true true true o.fmt (· == 0)
  | 0x01 =>  -- VSUB
    vecOk o 2 floatFmts true true true o.fmt (· == 0)
  | 0x02 =>  -- VMUL
    vecOk o 2 floatFmts true true true o.fmt (· == 0)
  | 0x03 =>  -- VFMA
    vecOk o 3 floatFmts true true true o.fmt (· == 0)
  | 0x04 =>  -- VFMS
    vecOk o 3 floatFmts true true true o.fmt (· == 0)
  | 0x05 =>  -- VDIV
    vecOk o 2 floatFmts true true true o.fmt (· == 0)
  | 0x06 =>  -- VSQRT
    (vecForm 1 floatFmts true true true).admits o
  | 0x07 =>  -- VRSQRT
    (vecForm 1 floatFmts true true true).admits o
  | 0x08 =>  -- VMIN
    vecOk o 2 floatFmts false false true o.fmt (· == 0)
  | 0x09 =>  -- VMAX
    vecOk o 2 floatFmts false false true o.fmt (· == 0)
  | 0x0A =>  -- VMINN
    vecOk o 2 floatFmts false false true o.fmt (· == 0)
  | 0x0B =>  -- VMAXN
    vecOk o 2 floatFmts false false true o.fmt (· == 0)
  | 0x0C =>  -- VABS
    (vecForm 1 floatFmts false false false).admits o
  | 0x0D =>  -- VNEG
    (vecForm 1 floatFmts false false false).admits o
  | 0x0E =>  -- VCPYS
    vecOk o 2 floatFmts false false false o.fmt (· == 0)
  | 0x0F =>  -- VSCALE
    vecOk o 2 floatFmts true true true .i32 (· == 0)
  | 0x10 =>  -- VRND
    (vecForm 1 floatFmts true false true 1).admits o
  | 0x11 =>  -- VCLASS
    (vecForm 1 floatFmts false false false).admits o
  | 0x12 =>  -- VCMP
    vecOk o 2 floatFmts false false true o.fmt (· ≤ 7)
  | 0x13 =>  -- VCVT
    (vecForm 1 compactFmts true true true (bitsMask 4 0)).admits o &&
    (immFmt o 4 0).any (fun g => compactFmts.contains g && g != o.fmt)
  | 0x14 =>  -- VSPLIT
    (vecForm 1 [.f32] false false true 3).admits o && ((immBits o 1 0 == 2 &&
    o.rwi == 0) || (immBits o 1 0 == 3 && o.rwi == 1))
  | 0x18 =>  -- VEXP
    (vecForm 1 floatFmts true true true).admits o
  | 0x19 =>  -- VEXPM1
    (vecForm 1 floatFmts true true true).admits o
  | 0x1A =>  -- VLOG
    (vecForm 1 floatFmts true true true).admits o
  | 0x1B =>  -- VLOG1P
    (vecForm 1 floatFmts true true true).admits o
  | 0x1C =>  -- VERF
    (vecForm 1 floatFmts true true true).admits o
  | 0x1D =>  -- VERFC
    (vecForm 1 floatFmts true true true).admits o
  | 0x1E =>  -- VEXP2
    (vecForm 1 floatFmts true true true).admits o
  | 0x1F =>  -- VLOG2
    (vecForm 1 floatFmts true true true).admits o
  | 0x20 =>  -- VIADD
    vecOk o 2 intFmts false true true o.fmt (· == 0)
  | 0x21 =>  -- VISUB
    vecOk o 2 intFmts false true true o.fmt (· == 0)
  | 0x22 =>  -- VIMUL
    vecOk o 2 intFmts false true true o.fmt (· == 0)
  | 0x23 =>  -- VIMULH
    vecOk o 2 intFmts false false false o.fmt (· == 0)
  | 0x24 =>  -- VIMAD
    vecOk o 3 intFmts false true true o.fmt (· == 0)
  | 0x25 =>  -- VIMIN
    vecOk o 2 intFmts false false false o.fmt (· == 0)
  | 0x26 =>  -- VIMAX
    vecOk o 2 intFmts false false false o.fmt (· == 0)
  | 0x27 =>  -- VICMP
    vecOk o 2 intFmts false false false o.fmt (· ≤ 5)
  | 0x28 =>  -- VAND
    vecOk o 2 (intFmts ++ [.b1]) false false false o.fmt (· == 0)
  | 0x29 =>  -- VOR
    vecOk o 2 (intFmts ++ [.b1]) false false false o.fmt (· == 0)
  | 0x2A =>  -- VXOR
    vecOk o 2 (intFmts ++ [.b1]) false false false o.fmt (· == 0)
  | 0x2B =>  -- VSHL
    vecOk o 2 intFmts false false false o.fmt (· == 0)
  | 0x2C =>  -- VSHR
    vecOk o 2 intFmts false false false o.fmt (· == 0)
  | 0x2D =>  -- VSAR
    vecOk o 2 intFmts false false false o.fmt (· == 0)
  | 0x2E =>  -- VPOPC
    (vecForm 1 intFmts false false false).admits o
  | 0x2F =>  -- VCLZ
    (vecForm 1 intFmts false false false).admits o
  | 0x30 =>  -- VBCAST
    (vecForm 1 moveFmts false false false shapeMask).admits o && shapeOk o
  | 0x31 =>  -- VSEL
    (vecForm 3 moveFmts false false false).admits o
  | 0x32 =>  -- VPERM
    (vecForm 2 moveFmts false false false 1).admits o
  | 0x33 =>  -- VTRANS
    (vecForm 1 (moveFmts.filter (· != .b1)) false false false).admits o
  | 0x34 =>  -- VIOTA
    (vecForm 1 intFmts false false false (bitsMask 36 0)).admits o && shapeOk o
  | 0x35 =>  -- VEXTR
    vecOk o 2 moveFmts false false false .n32 (· == 0)
  | 0x36 =>  -- VINS
    vecOk o 3 moveFmts false false false o.fmt (· == 0)
  | 0x37 =>  -- VSLICE
    (vecForm 2 moveFmts false false false shapeMask).admits o && shapeOk o
  | 0x38 =>  -- VREDUCE
    reduceOk o (bitsMask 5 5)
  | 0x39 =>  -- VSCAN
    reduceOk o (bitsMask 6 6)
  | 0x3A =>  -- VCOMPR
    (vecForm 1 compactFmts false false false (bitsMask 9 0)).admits o && comprOk o && o.rwi == 0
  | 0x3B =>  -- VEXPND
    (vecForm 2 compactFmts false false false (bitsMask 9 0)).admits o && comprOk o
  | 0x3C =>  -- VRNG
    (vecForm 2 (intFmts ++ [.f32, .f64]) false false false (bitsMask 36 29 ||| shapeMask)).admits o && vrngOk o &&
    shapeOk o
  | 0x3D =>  -- VQUANT
    (vecForm 1 [.f16, .bf16, .f32] true true true (bitsMask 4 0)).admits o && (immFmt o 4 0).any Fmt.isMx
  | 0x3E =>  -- VDEQ
    (vecForm 1 [.mx8, .mx4] true false true (bitsMask 4 0)).admits o && (immFmt o 4 0).any Fmt.isF
  | _ => false

/-- What the operators of class 2 accept, by OPC. -/
def matrixAccepts (opc : Nat) (o : Op) : Bool :=
  match opc with
  | 0x00 =>  -- MMA
    mmaOk o 2 true
  | 0x01 =>  -- MMA.SP
    mmaOk o 3 true
  | 0x02 =>  -- MWLOAD
    Form.admits { ports := [if immBit o 1 then 2 else 1], fmts := matrixFmts, mask := 3 } o
  | 0x03 =>  -- MACC.RD
    Form.admits { ports := [1], fmts := [.f32], rnds := allRnds, sat := true, fe := true, mask := bitsMask 36 6 } o &&
    maccBlockOk o && (immFmt o 36 32).any (fun g => [Fmt.f32, .f16, .bf16, .e4m3, .e5m2].contains g)
  | 0x04 =>  -- MACC.WR
    Form.admits { ports := [1], fmts := [.f32, .f16, .bf16], fe := true, mask := bitsMask 30 18 } o
  | 0x05 =>  -- MACC.CLR
    Form.admits { ports := [1], fmts := [.raw], mask := bitsMask 30 6 } o && maccBlockOk o
  | 0x06 =>  -- MOUTER
    mmaOk o 2 false
  | 0x08 =>  -- MSORT
    sortOk o [1] 1
  | 0x09 =>  -- MTOPK
    sortOk o [1] (bitsMask 8 0)
  | 0x0A =>  -- MMERGE
    sortOk o [2, 4] 1
  | 0x0B =>  -- MTRANS
    Form.admits { ports := [1], fmts := [.raw, .i8, .i16, .i32, .n8, .n16, .n32, .f16, .bf16, .f32, .e4m3, .e5m2] } o
  | _ => false

/-- What the operators of class 3 accept, by OPC. -/
def stencilAccepts (opc : Nat) (o : Op) : Bool :=
  match opc with
  | 0x00 =>  -- SCOPY
    (stencilForm [2] (bitsMask 36 0)).admits o && immBits o 36 35 != 3 && scopeOk (immBits o 34 32)
  | 0x01 =>  -- SARM
    (stencilForm [1] (bitsMask 4 0)).admits o
  | 0x02 =>  -- SFIRE
    Form.admits { ports := [1, 2, 3], fmts := moveFmts.filter (· != .b1),
                  mask := bitsMask 10 8 ||| bitsMask 4 0 } o &&
    scopeOk (immBits o 10 8)
  | 0x03 =>  -- SCHAIN
    (stencilForm [1] (bitsMask 8 0)).admits o && immBits o 7 5 != immBits o 2 0
  | 0x04 =>  -- SDISARM
    (stencilForm [1] (bitsMask 4 0)).admits o
  | 0x05 =>  -- SEMPTY
    (stencilForm [1] (bitsMask 4 3)).admits o
  | 0x06 =>  -- SFILL
    (stencilForm [2] (bitsMask 36 0) scalarFmts).admits o && decide (immBits o 36 35 ≤ 1) &&
    scopeOk (immBits o 34 32) && !(immBits o 36 35 == 0 && o.fmt == .raw)
  | 0x07 =>  -- SGEN
    (stencilForm [1] (bitsMask 8 8 ||| bitsMask 4 0) [.n64]).admits o
  | 0x08 =>  -- SORDER
    (stencilForm [1] (bitsMask 10 0)).admits o && scopeOk (immBits o 10 8) && immBits o 7 4 != 0 &&
    immBits o 3 0 != 0
  | 0x09 =>  -- SCANCEL
    (stencilForm [1] (bitsMask 5 0)).admits o
  | _ => false

/-- What the operators of class 4 accept, by OPC. -/
def portAccepts (opc : Nat) (o : Op) : Bool :=
  match opc with
  | 0x00 =>  -- LD
    (ldForm o).admits o && scopeOk (immBits o 36 34) &&
      (!immBit o 25 || shapeFits o.fmt (immShapeHi o).1 (immShapeHi o).2)
  | 0x01 =>  -- ST
    (stForm o).admits o && scopeOk (immBits o 36 34)
  | 0x02 =>  -- LDI
    (portForm [2] (scalarFmts.filter (· != .raw)) (portMask ||| bitsMask 25 25 ||| 7)).admits o &&
    scopeOk (immBits o 36 34)
  | 0x03 =>  -- STI
    (portForm [3] (scalarFmts.filter (· != .raw)) (portMask ||| bitsMask 26 25 ||| 7)).admits o &&
    scopeOk (immBits o 36 34)
  | 0x04 =>  -- LDS
    (portForm [2] compactFmts (portMask ||| bitsMask 24 6)).admits o && scopeOk (immBits o 36 34) &&
    shapeFits o.fmt (immShapeHi o).1 (immShapeHi o).2 && (immShapeHi o).2 % 8 == 0 && o.rwi == 0
  | 0x05 =>  -- STS
    (portForm [4] compactFmts (portMask ||| bitsMask 26 26)).admits o && scopeOk (immBits o 36 34)
  | 0x06 =>  -- LDW
    waveOk o 1 0
  | 0x07 =>  -- STW
    waveOk o 2 (bitsMask 26 26)
  | 0x08 =>  -- PREF
    (portForm [1] [.raw] (portMask ||| bitsMask 17 0)).admits o && scopeOk (immBits o 36 34)
  | 0x09 =>  -- MRESUME
    (portForm [2] [.raw] 0).admits o
  | 0x0A =>  -- MSTART
    (portForm [2] [.raw] (bitsMask 33 27)).admits o
  | 0x0B =>  -- MMODE
    (portForm [1] [.raw] (bitsMask 33 27 ||| 3)).admits o && immBits o 1 0 != 3
  | _ => false

/-- What the operators of class 5 accept, by OPC. -/
def bankAccepts (opc : Nat) (o : Op) : Bool :=
  match opc with
  | 0x00 =>  -- BLD
    (bankForm [1] scalarFmts (bitsMask 21 2)).admits o && scopeOk (immBits o 36 34) &&
    (!immBit o 21 || shapeFits o.fmt (immShapeBld o).1 (immShapeBld o).2)
  | 0x01 =>  -- BST
    (bankForm [2] scalarFmts (bitsMask 21 20)).admits o && scopeOk (immBits o 36 34)
  | 0x02 =>  -- ATOM
    (atomForm o (immBit o 21) (bitsMask 21 17 ||| bitsMask 15 0)).admits o && scopeOk (immBits o 36 34) &&
      atomFnOk (immBits o 20 17) o.fmt true && atomFlagsOk (immBits o 20 17) o
  | 0x03 =>  -- ACAS
    (bankForm [3] atomFmts 0).admits o && scopeOk (immBits o 36 34)
  | 0x04 =>  -- RED
    (redForm o).admits o && scopeOk (immBits o 36 34) && atomFnOk (immBits o 20 17) o.fmt false
  | 0x05 =>  -- RFLUSH
    (bankForm [1] [.raw] 0).admits o && scopeOk (immBits o 36 34)
  | 0x06 =>  -- BUPD
    (atomForm o false (bitsMask 20 16)).admits o && scopeOk (immBits o 36 34) &&
      atomFnOk (immBits o 20 17) o.fmt false && atomFlagsOk (immBits o 20 17) o
  | 0x08 =>  -- FGET
    (bankForm [1] queueFmts 0).admits o && scopeOk (immBits o 36 34)
  | 0x09 =>  -- FPUT
    (bankForm [2] queueFmts (bitsMask 21 21)).admits o && scopeOk (immBits o 36 34)
  | 0x0A =>  -- FCLR
    (bankForm [1] [.raw] (bitsMask 21 20)).admits o && scopeOk (immBits o 36 34)
  | 0x0C =>  -- QINIT
    (bankForm [2] [.raw] 0).admits o && scopeOk (immBits o 36 34)
  | 0x0D =>  -- QPUSH
    (bankForm [2] queueFmts (bitsMask 21 21 ||| bitsMask 17 13)).admits o && scopeOk (immBits o 36 34)
  | 0x0E =>  -- QPOP
    (bankForm [1] queueFmts (bitsMask 21 21 ||| bitsMask 17 13)).admits o && scopeOk (immBits o 36 34)
  | 0x10 =>  -- WAIT
    (bankForm [if immBit o 21 then 1 else 2] queueFmts (bitsMask 21 0)).admits o && scopeOk (immBits o 36 34)
  | 0x11 =>  -- WAKE
    (bankForm [if immBit o 21 then 1 else 2] [.raw] (bitsMask 21 21 ||| bitsMask 15 0)).admits o &&
    scopeOk (immBits o 36 34)
  | 0x12 =>  -- BCALL
    (bankForm [3] queueFmts 0).admits o && scopeOk (immBits o 36 34)
  | _ => false

/-- What the operators of class 6 accept, by OPC. -/
def plumbAccepts (opc : Nat) (o : Op) : Bool :=
  match opc with
  | 0x00 =>  -- PBAR
    (plumbForm [1, 2] allFmts).admits o
  | 0x01 =>  -- PBCAST
    (plumbForm [2] [.raw] 1).admits o
  | 0x02 =>  -- PRED.OPEN
    (openForm o [1, 2] openFmts (bitsMask 36 34 ||| bitsMask 31 0)).admits o &&
      redOpOk (immBits o 36 34) o.fmt && (o.nports == 1 || immBits o 31 0 == 0)
  | 0x03 =>  -- PRED.PUT
    (plumbForm [2] openFmts).admits o
  | 0x04 =>  -- PCORR
    (plumbForm [if immBit o 16 then 1 else 2] (openFmts ++ [.f32, .i32, .n32]) (bitsMask 16 0)).admits o
  | 0x05 =>  -- TRED
    (openForm o [2] atomFmts (bitsMask 36 33 ||| bitsMask 31 0)).admits o &&
      decide (immBits o 36 34 ≤ 2) && (immBit o 33 || immBits o 31 0 == 0)
  | 0x08 =>  -- CREW.NEW
    (plumbForm [1] [.raw] 1).admits o
  | 0x09 =>  -- CREW.JOIN
    (plumbForm [1] [.raw]).admits o
  | 0x0A =>  -- CREW.LEAVE
    (plumbForm [1] [.raw]).admits o
  | 0x0B =>  -- CREW.FREE
    (plumbForm [1] [.raw]).admits o
  | 0x0C =>  -- PTIME
    (plumbForm [1] [.raw, .n64] (bitsMask 36 35 ||| bitsMask 31 0)).admits o && immBits o 36 35 != 3 &&
    ((immBits o 36 35 == 1) == (immBits o 31 0 != 0))
  | 0x0D =>  -- PQUIET
    (plumbForm [1] [.raw] 1).admits o
  | 0x0E =>  -- PSIG
    (plumbForm [1] [.raw] (bitsMask 18 0)).admits o && immBits o 18 16 == 0
  | _ => false

/-- What the operators of class 7 accept, by OPC. -/
def linkAccepts (opc : Nat) (o : Op) : Bool :=
  match opc with
  | 0x00 =>  -- LPUT
    (linkForm [if immBit o 24 then 4 else 3] scalarFmts (bitsMask 25 23)).admits o
  | 0x01 =>  -- LGET
    (linkForm [2] scalarFmts (bitsMask 25 6)).admits o &&
    (!immBit o 25 || shapeFits o.fmt (immShapeHi o).1 (immShapeHi o).2)
  | 0x02 =>  -- LATOM
    (latomForm o).admits o && latomFnOk (immBits o 20 17) o.fmt
  | 0x03 =>  -- LSEND
    (linkForm [2] [.raw] (bitsMask 21 21 ||| bitsMask 17 13)).admits o
  | 0x04 =>  -- LRECV
    (linkForm [1] [.raw] (bitsMask 21 21 ||| bitsMask 17 13 ||| bitsMask 5 0)).admits o
  | 0x05 =>  -- LFENCE
    (linkForm [1] [.raw] 1).admits o
  | _ => false

/-- An operator's fields lie within what its engine's table accepts; false for an unassigned ECL/OPC pair (03 R79). -/
def opAccepts (ecl opc : Nat) (o : Op) : Bool :=
  match ecl with
  | 0 => tokenAccepts opc o
  | 1 => vectorAccepts opc o
  | 2 => matrixAccepts opc o
  | 3 => stencilAccepts opc o
  | 4 => portAccepts opc o
  | 5 => bankAccepts opc o
  | 6 => plumbAccepts opc o
  | 7 => linkAccepts opc o
  | _ => false

/-- The same of an instruction; true of every one that is no operator. -/
def accepts : Instr → Bool
  | .pass o => opAccepts 0 0x00 o
  | .const o => opAccepts 0 0x01 o
  | .dup o => opAccepts 0 0x02 o
  | .route o => opAccepts 0 0x03 o
  | .steer o => opAccepts 0 0x04 o
  | .gate o => opAccepts 0 0x05 o
  | .sel o => opAccepts 0 0x06 o
  | .join o => opAccepts 0 0x07 o
  | .drop o => opAccepts 0 0x08 o
  | .sink o => opAccepts 0 0x09 o
  | .src o => opAccepts 0 0x0A o
  | .tagx o => opAccepts 0 0x0B o
  | .ctxEnter o => opAccepts 0 0x10 o
  | .ctxNext o => opAccepts 0 0x11 o
  | .ctxExit o => opAccepts 0 0x12 o
  | .invSet o => opAccepts 0 0x13 o
  | .invGet o => opAccepts 0 0x14 o
  | .flagsGet o => opAccepts 0 0x15 o
  | .flagsClr o => opAccepts 0 0x16 o
  | .sadd o => opAccepts 0 0x18 o
  | .ssub o => opAccepts 0 0x19 o
  | .smul o => opAccepts 0 0x1A o
  | .smad o => opAccepts 0 0x1B o
  | .scmp o => opAccepts 0 0x1C o
  | .slog o => opAccepts 0 0x1D o
  | .sshf o => opAccepts 0 0x1E o
  | .sminmax o => opAccepts 0 0x1F o
  | .pfence o => opAccepts 0 0x20 o
  | .splice o => opAccepts 0 0x21 o
  | .cmpx o => opAccepts 0 0x22 o
  | .mark o => opAccepts 0 0x23 o
  | .vadd o => opAccepts 1 0x00 o
  | .vsub o => opAccepts 1 0x01 o
  | .vmul o => opAccepts 1 0x02 o
  | .vfma o => opAccepts 1 0x03 o
  | .vfms o => opAccepts 1 0x04 o
  | .vdiv o => opAccepts 1 0x05 o
  | .vsqrt o => opAccepts 1 0x06 o
  | .vrsqrt o => opAccepts 1 0x07 o
  | .vmin o => opAccepts 1 0x08 o
  | .vmax o => opAccepts 1 0x09 o
  | .vminn o => opAccepts 1 0x0A o
  | .vmaxn o => opAccepts 1 0x0B o
  | .vabs o => opAccepts 1 0x0C o
  | .vneg o => opAccepts 1 0x0D o
  | .vcpys o => opAccepts 1 0x0E o
  | .vscale o => opAccepts 1 0x0F o
  | .vrnd o => opAccepts 1 0x10 o
  | .vclass o => opAccepts 1 0x11 o
  | .vcmp o => opAccepts 1 0x12 o
  | .vcvt o => opAccepts 1 0x13 o
  | .vsplit o => opAccepts 1 0x14 o
  | .vexp o => opAccepts 1 0x18 o
  | .vexpm1 o => opAccepts 1 0x19 o
  | .vlog o => opAccepts 1 0x1A o
  | .vlog1p o => opAccepts 1 0x1B o
  | .verf o => opAccepts 1 0x1C o
  | .verfc o => opAccepts 1 0x1D o
  | .vexp2 o => opAccepts 1 0x1E o
  | .vlog2 o => opAccepts 1 0x1F o
  | .viadd o => opAccepts 1 0x20 o
  | .visub o => opAccepts 1 0x21 o
  | .vimul o => opAccepts 1 0x22 o
  | .vimulh o => opAccepts 1 0x23 o
  | .vimad o => opAccepts 1 0x24 o
  | .vimin o => opAccepts 1 0x25 o
  | .vimax o => opAccepts 1 0x26 o
  | .vicmp o => opAccepts 1 0x27 o
  | .vand o => opAccepts 1 0x28 o
  | .vor o => opAccepts 1 0x29 o
  | .vxor o => opAccepts 1 0x2A o
  | .vshl o => opAccepts 1 0x2B o
  | .vshr o => opAccepts 1 0x2C o
  | .vsar o => opAccepts 1 0x2D o
  | .vpopc o => opAccepts 1 0x2E o
  | .vclz o => opAccepts 1 0x2F o
  | .vbcast o => opAccepts 1 0x30 o
  | .vsel o => opAccepts 1 0x31 o
  | .vperm o => opAccepts 1 0x32 o
  | .vtrans o => opAccepts 1 0x33 o
  | .viota o => opAccepts 1 0x34 o
  | .vextr o => opAccepts 1 0x35 o
  | .vins o => opAccepts 1 0x36 o
  | .vslice o => opAccepts 1 0x37 o
  | .vreduce o => opAccepts 1 0x38 o
  | .vscan o => opAccepts 1 0x39 o
  | .vcompr o => opAccepts 1 0x3A o
  | .vexpnd o => opAccepts 1 0x3B o
  | .vrng o => opAccepts 1 0x3C o
  | .vquant o => opAccepts 1 0x3D o
  | .vdeq o => opAccepts 1 0x3E o
  | .mma o => opAccepts 2 0x00 o
  | .mmaSp o => opAccepts 2 0x01 o
  | .mwload o => opAccepts 2 0x02 o
  | .maccRd o => opAccepts 2 0x03 o
  | .maccWr o => opAccepts 2 0x04 o
  | .maccClr o => opAccepts 2 0x05 o
  | .mouter o => opAccepts 2 0x06 o
  | .msort o => opAccepts 2 0x08 o
  | .mtopk o => opAccepts 2 0x09 o
  | .mmerge o => opAccepts 2 0x0A o
  | .mtrans o => opAccepts 2 0x0B o
  | .scopy o => opAccepts 3 0x00 o
  | .sarm o => opAccepts 3 0x01 o
  | .sfire o => opAccepts 3 0x02 o
  | .schain o => opAccepts 3 0x03 o
  | .sdisarm o => opAccepts 3 0x04 o
  | .sempty o => opAccepts 3 0x05 o
  | .sfill o => opAccepts 3 0x06 o
  | .sgen o => opAccepts 3 0x07 o
  | .sorder o => opAccepts 3 0x08 o
  | .scancel o => opAccepts 3 0x09 o
  | .ld o => opAccepts 4 0x00 o
  | .st o => opAccepts 4 0x01 o
  | .ldi o => opAccepts 4 0x02 o
  | .sti o => opAccepts 4 0x03 o
  | .lds o => opAccepts 4 0x04 o
  | .sts o => opAccepts 4 0x05 o
  | .portLdw o => opAccepts 4 0x06 o
  | .portStw o => opAccepts 4 0x07 o
  | .pref o => opAccepts 4 0x08 o
  | .mresume o => opAccepts 4 0x09 o
  | .mstart o => opAccepts 4 0x0A o
  | .mmode o => opAccepts 4 0x0B o
  | .bld o => opAccepts 5 0x00 o
  | .bst o => opAccepts 5 0x01 o
  | .bankAtom o => opAccepts 5 0x02 o
  | .acas o => opAccepts 5 0x03 o
  | .red o => opAccepts 5 0x04 o
  | .rflush o => opAccepts 5 0x05 o
  | .bupd o => opAccepts 5 0x06 o
  | .fget o => opAccepts 5 0x08 o
  | .fput o => opAccepts 5 0x09 o
  | .fclr o => opAccepts 5 0x0A o
  | .qinit o => opAccepts 5 0x0C o
  | .qpush o => opAccepts 5 0x0D o
  | .qpop o => opAccepts 5 0x0E o
  | .wait o => opAccepts 5 0x10 o
  | .wake o => opAccepts 5 0x11 o
  | .bcall o => opAccepts 5 0x12 o
  | .pbar o => opAccepts 6 0x00 o
  | .pbcast o => opAccepts 6 0x01 o
  | .predOpen o => opAccepts 6 0x02 o
  | .predPut o => opAccepts 6 0x03 o
  | .pcorr o => opAccepts 6 0x04 o
  | .tred o => opAccepts 6 0x05 o
  | .crewNew o => opAccepts 6 0x08 o
  | .crewJoin o => opAccepts 6 0x09 o
  | .crewLeave o => opAccepts 6 0x0A o
  | .crewFree o => opAccepts 6 0x0B o
  | .ptime o => opAccepts 6 0x0C o
  | .pquiet o => opAccepts 6 0x0D o
  | .psig o => opAccepts 6 0x0E o
  | .lput o => opAccepts 7 0x00 o
  | .lget o => opAccepts 7 0x01 o
  | .latom o => opAccepts 7 0x02 o
  | .lsend o => opAccepts 7 0x03 o
  | .lrecv o => opAccepts 7 0x04 o
  | .lfence o => opAccepts 7 0x05 o
  | .add .. | .sub .. | .and .. | .or .. | .xor .. | .andn .. | .shl .. | .shr .. | .sar .. | .slt .. | .sltn ..
  | .mul .. | .mulh .. | .mulhn .. | .div .. | .divn .. | .rem .. | .remn .. | .addi .. | .andi .. | .ori ..
  | .xori .. | .shli .. | .shri .. | .sari .. | .slti .. | .ldhi .. | .addpc .. | .ldb .. | .ldh .. | .ldw ..
  | .ldd .. | .ldbn .. | .ldhn .. | .ldwn .. | .stb .. | .sth .. | .stw .. | .std .. | .beq .. | .bne .. | .blt ..
  | .bge .. | .bltn .. | .bgen .. | .jmpl .. | .jmpr .. | .fadd .. | .fsub .. | .fmul .. | .fdiv .. | .fsqrt ..
  | .fminIeee .. | .fminNum .. | .fmaxIeee .. | .fmaxNum .. | .fcmpEq .. | .fcmpLt .. | .fcmpLe .. | .fcmpUn ..
  | .fcvtFf .. | .fcvtFromi .. | .fcvtFromn .. | .fcvtToi .. | .fcvtTon .. | .fcvtInt .. | .fmovMov ..
  | .fmovFromx .. | .fmovTox .. | .fmovNeg .. | .fmovAbs .. | .fmovCpys .. | .fclass .. | .ffma .. | .fld ..
  | .fst .. | .atomSwap .. | .atomAdd .. | .atomAnd .. | .atomOr .. | .atomXor .. | .atomMin .. | .atomMax ..
  | .atomMinn .. | .atomMaxn .. | .atomCas .. | .fence .. | .sysr .. | .sysw .. | .trap .. | .tret | .wfe | .svc ..
  | .gload .. | .inj .. | .snkpop .. | .freeze .. | .scan .. | .restore .. | .opwr .. | .diagstHbm ..
  | .diagstBank .. | .diagstSp .. | .thaw .. | .packageReset .. | .asyncCauseDelivery .. | .timerEvent ..
  | .wfeWake .. | .snkpopWaitResume .. | .injColourResume .. | .hwakeWrite .. | .htimecmpWrite ..
  | .registerWrite .. | .launchPeek .. | .launchCommit .. | .launchRelease .. | .effectivePriorityAging ..
  | .allocReq .. | .allocFree .. | .spanmapBind .. | .spanmapUnbind .. | .twinPair .. | .twinUnpair .. | .tctlClr ..
  | .leakthrWrite .. | .prtabLoad .. | .hrtabLoad .. | .tlbinvPage .. | .tlbinvAsid .. | .tlbinvAll
  | .kcmdRereadKey .. | .kcmdRevoke .. | .kcmdRereadConn .. | .msggo .. | .msgack | .hostMessageArrival
  | .opreqWrite .. | .operatingPointChange .. | .hostRead .. | .hostWrite .. | .cxlSnoop .. | .getId | .getMeas ..
  | .writeFw .. | .packetRouting .. | .configPacketHop .. | .tokenArrival .. | .tilePacketDelivery ..
  | .ejectionWaitPlacement .. | .matchOverflow .. | .tileOperandReady .. | .firingDispatch .. | .colourAllocation ..
  | .irrevocableHandshake .. | .flagUpdate .. | .frameRequest .. | .purgeRequest .. | .purgeEffect ..
  | .quarantineExpiry .. | .replay .. | .activationFailEffect .. | .sinkRingEntry .. | .spliceReplacement ..
  | .spliceTimeLimit .. | .markerArrival .. | .srcStreamEmit .. | .cmpxDigestArrival .. | .cmpxTimeout ..
  | .freezeEffect .. | .thawEffect .. | .spanSignalRelay .. | .quadLineStateQuery .. | .quadReadServe ..
  | .stencilQueueIssue .. | .streamTileStep .. | .ringTileStep .. | .retainedRingStep .. | .portRequestAccept ..
  | .generatorStart .. | .elementPerform .. | .waveAccessPerform .. | .readAhead .. | .bankRequestAccept ..
  | .combiningEntryApply .. | .waiterLimitExpiry .. | .routineFetch .. | .nackRetry .. | .memberIndexLookup ..
  | .rootSignalTake .. | .roundRelease .. | .reductionNoticeLanding .. | .deadlineEvaluation ..
  | .lateContribution .. | .finalPacket .. | .resultLanding .. | .ptimeExpiry .. | .markerSignalEffect ..
  | .snapshotComplete .. | .snapshotTimeout .. | .censusTick .. | .pquietWaitEmit .. | .deadlock .. | .wdog ..
  | .incomingRemoteAccess .. | .incomingSend .. | .linkWaitLimitExpiry .. | .scewenFlitReceive .. | .slotSync ..
  | .scewenPortDown .. | .ethernetRetransmit .. | .telemetryUpdate .. | .thermalClamp .. | .thermalShutdown ..
  | .clusterFailing .. | .illegalEncoding .. | .memoryFailure .. | .ethernetPortDown ..
  | .linkResponseArrival .. => true

end Sys2Proof
end

