-- ==== Sys2Proof/WellFormed.lean ====
section
/-! DEFINITION. Well-formed instructions: an operator whose fields its engine accepts (03 R72 to R74), and a device event
whose object the part has (00 R4, 04 R117, 09 R287, 10 R320, 11 R353, 12 R398, 13 R421). Hawk words are well formed by
their types (03 R80 to R82). -/

namespace Sys2Proof

/-- The numbers of the parts' objects: threads, clusters, regions, ports, banks, crews. -/
def Limits.threads : Nat := 64
def Limits.clusters : Nat := 4096
def Limits.regions : Nat := 128
def Limits.ports : Nat := 128
def Limits.banks : Nat := 1024
def Limits.crews : Nat := 256

/-- The event names an object that the part has. -/
def eventInRange : Instr → Bool
  | .asyncCauseDelivery th => decide (th < Limits.threads)
  | .timerEvent th => decide (th < Limits.threads)
  | .wfeWake th => decide (th < Limits.threads)
  | .snkpopWaitResume th => decide (th < Limits.threads)
  | .injColourResume th => decide (th < Limits.threads)
  | .hwakeWrite die _ => decide (die < 8)
  | .htimecmpWrite th _ => decide (th < Limits.threads)
  | .launchPeek th _ => decide (th < Limits.threads)
  | .launchCommit th _ => decide (th < Limits.threads)
  | .launchRelease th _ => decide (th < Limits.threads)
  | .effectivePriorityAging q => decide (q < 64)
  | .allocReq th _ _ => decide (th < Limits.threads)
  | .spanmapBind rid i _ => decide (rid < Limits.regions) && decide (i < 8)
  | .spanmapUnbind rid i => decide (rid < Limits.regions) && decide (i < 8)
  | .tctlClr rid => decide (rid < Limits.regions)
  | .leakthrWrite rid _ => decide (rid < Limits.regions)
  | .prtabLoad port _ => decide (port < Limits.ports)
  | .hrtabLoad die _ => decide (die < 8)
  | .kcmdRereadKey ix => decide (ix < 65536)
  | .kcmdRevoke ix => decide (ix < 65536)
  | .kcmdRereadConn ix => decide (ix < 65536)
  | .msggo th => decide (th < Limits.threads)
  | .hostRead bar _ _ => decide (bar < 6)
  | .hostWrite bar _ _ _ => decide (bar < 6)
  | .tokenArrival c => decide (c < Limits.clusters)
  | .tilePacketDelivery c => decide (c < Limits.clusters)
  | .ejectionWaitPlacement c => decide (c < Limits.clusters)
  | .matchOverflow c => decide (c < Limits.clusters)
  | .tileOperandReady c _ => decide (c < Limits.clusters)
  | .firingDispatch c eng => decide (c < Limits.clusters) && decide (eng < 8)
  | .colourAllocation rid _ => decide (rid < Limits.regions)
  | .irrevocableHandshake rid _ => decide (rid < Limits.regions)
  | .flagUpdate rid _ _ => decide (rid < Limits.regions)
  | .frameRequest rid _ _ => decide (rid < Limits.regions)
  | .purgeRequest rid _ => decide (rid < Limits.regions)
  | .purgeEffect rid => decide (rid < Limits.regions)
  | .quarantineExpiry rid => decide (rid < Limits.regions)
  | .replay rid => decide (rid < Limits.regions)
  | .activationFailEffect rid => decide (rid < Limits.regions)
  | .sinkRingEntry rid => decide (rid < Limits.regions)
  | .spliceReplacement c _ => decide (c < Limits.clusters)
  | .spliceTimeLimit c _ => decide (c < Limits.clusters)
  | .markerArrival c => decide (c < Limits.clusters)
  | .srcStreamEmit c _ => decide (c < Limits.clusters)
  | .cmpxDigestArrival c _ => decide (c < Limits.clusters)
  | .cmpxTimeout c _ => decide (c < Limits.clusters)
  | .freezeEffect rid => decide (rid < Limits.regions)
  | .thawEffect rid => decide (rid < Limits.regions)
  | .spanSignalRelay rid _ => decide (rid < Limits.regions)
  | .quadLineStateQuery owner _ => decide (owner < Limits.clusters)
  | .quadReadServe owner => decide (owner < Limits.clusters)
  | .stencilQueueIssue c q => decide (c < Limits.clusters) && decide (q < 4)
  | .streamTileStep c q => decide (c < Limits.clusters) && decide (q < 4)
  | .ringTileStep c q => decide (c < Limits.clusters) && decide (q < 4)
  | .retainedRingStep c q => decide (c < Limits.clusters) && decide (q < 4)
  | .portRequestAccept p => decide (p < Limits.ports)
  | .generatorStart p => decide (p < Limits.ports)
  | .elementPerform p g => decide (p < Limits.ports) && decide (g < 8)
  | .waveAccessPerform p _ => decide (p < Limits.ports)
  | .readAhead p => decide (p < Limits.ports)
  | .bankRequestAccept b => decide (b < Limits.banks)
  | .combiningEntryApply b _ => decide (b < Limits.banks)
  | .routineFetch b _ => decide (b < Limits.banks)
  | .roundRelease crew => decide (crew < Limits.crews)
  | .reductionNoticeLanding crew rnd => decide (crew < Limits.crews) && decide (rnd < 4)
  | .deadlineEvaluation crew rnd => decide (crew < Limits.crews) && decide (rnd < 4)
  | .finalPacket crew rnd => decide (crew < Limits.crews) && decide (rnd < 4)
  | .ptimeExpiry c _ => decide (c < Limits.clusters)
  | .markerSignalEffect rid => decide (rid < Limits.regions)
  | .snapshotComplete rid => decide (rid < Limits.regions)
  | .snapshotTimeout rid => decide (rid < Limits.regions)
  | .censusTick rid => decide (rid < Limits.regions)
  | .pquietWaitEmit rid => decide (rid < Limits.regions)
  | .deadlock rid => decide (rid < Limits.regions)
  | .wdog rid => decide (rid < Limits.regions)
  | .scewenFlitReceive port _ _ _ => decide (port < 6)
  | .slotSync port => decide (port < 6)
  | .scewenPortDown port _ => decide (port < 6)
  | .thermalClamp die _ => decide (die < 8)
  | .thermalShutdown die _ => decide (die < 8)
  | .clusterFailing die cluster _ => decide (die < 8) && decide (cluster < 320)
  | .ethernetPortDown port => decide (port < 6)
  | .add .. | .sub .. | .and .. | .or .. | .xor .. | .andn .. | .shl .. | .shr .. | .sar .. | .slt ..
  | .sltn .. | .mul .. | .mulh .. | .mulhn .. | .div .. | .divn .. | .rem .. | .remn .. | .addi .. | .andi ..
  | .ori .. | .xori .. | .shli .. | .shri .. | .sari .. | .slti .. | .ldhi .. | .addpc .. | .ldb .. | .ldh ..
  | .ldw .. | .ldd .. | .ldbn .. | .ldhn .. | .ldwn .. | .stb .. | .sth .. | .stw .. | .std .. | .beq ..
  | .bne .. | .blt .. | .bge .. | .bltn .. | .bgen .. | .jmpl .. | .jmpr .. | .fadd .. | .fsub .. | .fmul ..
  | .fdiv .. | .fsqrt .. | .fminIeee .. | .fminNum .. | .fmaxIeee .. | .fmaxNum .. | .fcmpEq .. | .fcmpLt ..
  | .fcmpLe .. | .fcmpUn .. | .fcvtFf .. | .fcvtFromi .. | .fcvtFromn .. | .fcvtToi .. | .fcvtTon ..
  | .fcvtInt .. | .fmovMov .. | .fmovFromx .. | .fmovTox .. | .fmovNeg .. | .fmovAbs .. | .fmovCpys ..
  | .fclass .. | .ffma .. | .fld .. | .fst .. | .atomSwap .. | .atomAdd .. | .atomAnd .. | .atomOr ..
  | .atomXor .. | .atomMin .. | .atomMax .. | .atomMinn .. | .atomMaxn .. | .atomCas .. | .fence .. | .sysr ..
  | .sysw .. | .trap .. | .tret | .wfe | .svc .. | .gload .. | .inj .. | .snkpop .. | .freeze .. | .scan ..
  | .restore .. | .opwr .. | .diagstHbm .. | .diagstBank .. | .diagstSp .. | .thaw .. | .pass .. | .const ..
  | .dup .. | .route .. | .steer .. | .gate .. | .sel .. | .join .. | .drop .. | .sink .. | .src .. | .tagx ..
  | .ctxEnter .. | .ctxNext .. | .ctxExit .. | .invSet .. | .invGet .. | .flagsGet .. | .flagsClr ..
  | .sadd .. | .ssub .. | .smul .. | .smad .. | .scmp .. | .slog .. | .sshf .. | .sminmax .. | .pfence ..
  | .splice .. | .cmpx .. | .mark .. | .vadd .. | .vsub .. | .vmul .. | .vfma .. | .vfms .. | .vdiv ..
  | .vsqrt .. | .vrsqrt .. | .vmin .. | .vmax .. | .vminn .. | .vmaxn .. | .vabs .. | .vneg .. | .vcpys ..
  | .vscale .. | .vrnd .. | .vclass .. | .vcmp .. | .vcvt .. | .vsplit .. | .vexp .. | .vexpm1 .. | .vlog ..
  | .vlog1p .. | .verf .. | .verfc .. | .vexp2 .. | .vlog2 .. | .viadd .. | .visub .. | .vimul .. | .vimulh ..
  | .vimad .. | .vimin .. | .vimax .. | .vicmp .. | .vand .. | .vor .. | .vxor .. | .vshl .. | .vshr ..
  | .vsar .. | .vpopc .. | .vclz .. | .vbcast .. | .vsel .. | .vperm .. | .vtrans .. | .viota .. | .vextr ..
  | .vins .. | .vslice .. | .vreduce .. | .vscan .. | .vcompr .. | .vexpnd .. | .vrng .. | .vquant ..
  | .vdeq .. | .mma .. | .mmaSp .. | .mwload .. | .maccRd .. | .maccWr .. | .maccClr .. | .mouter ..
  | .msort .. | .mtopk .. | .mmerge .. | .mtrans .. | .scopy .. | .sarm .. | .sfire .. | .schain ..
  | .sdisarm .. | .sempty .. | .sfill .. | .sgen .. | .sorder .. | .scancel .. | .ld .. | .st .. | .ldi ..
  | .sti .. | .lds .. | .sts .. | .portLdw .. | .portStw .. | .pref .. | .mresume .. | .mstart .. | .mmode ..
  | .bld .. | .bst .. | .bankAtom .. | .acas .. | .red .. | .rflush .. | .bupd .. | .fget .. | .fput ..
  | .fclr .. | .qinit .. | .qpush .. | .qpop .. | .wait .. | .wake .. | .bcall .. | .pbar .. | .pbcast ..
  | .predOpen .. | .predPut .. | .pcorr .. | .tred .. | .crewNew .. | .crewJoin .. | .crewLeave ..
  | .crewFree .. | .ptime .. | .pquiet .. | .psig .. | .lput .. | .lget .. | .latom .. | .lsend .. | .lrecv ..
  | .lfence .. | .packageReset .. | .registerWrite .. | .allocFree .. | .twinPair .. | .twinUnpair ..
  | .tlbinvPage .. | .tlbinvAsid .. | .tlbinvAll | .msgack | .hostMessageArrival | .opreqWrite ..
  | .operatingPointChange .. | .cxlSnoop .. | .getId | .getMeas .. | .writeFw .. | .packetRouting ..
  | .configPacketHop .. | .waiterLimitExpiry .. | .nackRetry .. | .memberIndexLookup .. | .rootSignalTake ..
  | .lateContribution .. | .resultLanding .. | .incomingRemoteAccess .. | .incomingSend ..
  | .linkWaitLimitExpiry .. | .ethernetRetransmit .. | .telemetryUpdate .. | .illegalEncoding ..
  | .memoryFailure .. | .linkResponseArrival .. => true

/-- A well-formed instruction. -/
def Instr.wellFormed (i : Instr) : Bool := accepts i && eventInRange i

end Sys2Proof
end

