-- ==== Sys2Proof/Decode.lean ====
section
/-! DEFINITION. Decoding and encoding: Hawk words (03 R80 to R83), operator words and their destinations (03 R70 to
R79). A decoder refuses by name what the encodings chapter does not assign; the encoder writes the same tables. -/

namespace Sys2Proof

/-- Why a word is no instruction. -/
inductive Reject where
  /-- An OP that R81 does not assign, or an ECL/OPC pair outside R79. -/
  | opcode
  /-- An FN, FFN or sub-code that R82, R137, R140 or R435 does not assign. -/
  | function
  /-- A field that R80 or R81 requires to be zero is not. -/
  | nonzero
  /-- An RM of 5 or 7 in a Hawk word that rounds (R80), or an RND of 7 (R77). -/
  | rounding
  /-- A scope code of 6 or 7 in ATOM or FENCE (04 R137, R138). -/
  | scope
  /-- An XFM of 5 to 7 (R77). -/
  | transform
  /-- A reserved FMT code (R77, R88). -/
  | format
  /-- A breach of R72 or R73: a form that the operator's engine does not accept. -/
  | form
  /-- Fewer bytes than the word needs. -/
  | short
  deriving DecidableEq, Repr

/-! ### Bytes -/

/-- The low n bytes of a word, least significant first (R70, R80). -/
def bytesLE : Nat → Nat → List Byte
  | 0, _ => []
  | n + 1, w => BitVec.ofNat 8 w :: bytesLE n (w / 256)

/-- The number that little-endian bytes hold. -/
def natLE : List Byte → Nat
  | [] => 0
  | b :: bs => b.toNat + 256 * natLE bs

/-! ### Codes -/

def Rnd.code : Rnd → BitVec 3
  | .rne => 0 | .rtz => 1 | .rup => 2 | .rdn => 3 | .rna => 4 | .rst => 5 | .dyn => 6

def Rnd.ofCode : Nat → Option Rnd
  | 0 => some .rne | 1 => some .rtz | 2 => some .rup | 3 => some .rdn | 4 => some .rna | 5 => some .rst
  | 6 => some .dyn | _ => none

def HRm.code : HRm → BitVec 3
  | .rne => 0 | .rtz => 1 | .rup => 2 | .rdn => 3 | .rna => 4 | .dyn => 6

def HRm.ofCode : Nat → Option HRm
  | 0 => some .rne | 1 => some .rtz | 2 => some .rup | 3 => some .rdn | 4 => some .rna | 6 => some .dyn | _ => none

def Xfm.code : Xfm → BitVec 3
  | .keep => 0 | .next => 1 | .exit => 2 | .new => 3 | .free => 4

def Xfm.ofCode : Nat → Option Xfm
  | 0 => some .keep | 1 => some .next | 2 => some .exit | 3 => some .new | 4 => some .free | _ => none

def Scope.code : Scope → BitVec 3
  | .cl => 0 | .quad => 1 | .die => 2 | .pkg => 3 | .dom => 4 | .sys => 5

def Scope.ofCode : Nat → Option Scope
  | 0 => some .cl | 1 => some .quad | 2 => some .die | 3 => some .pkg | 4 => some .dom | 5 => some .sys | _ => none

/-! ### The Hawk word (R80) -/

def baseWord (op : BitVec 6) (rd ra rb : Reg) (fn : BitVec 11) : BitVec 32 := op ++ rd ++ ra ++ rb ++ fn
def immWord (op : BitVec 6) (rd ra : Reg) (imm : BitVec 16) : BitVec 32 := op ++ rd ++ ra ++ imm
def jumpWord (op : BitVec 6) (off : BitVec 26) : BitVec 32 := op ++ off
def fpuWord (rd ra rb : Reg) (ffn : BitVec 5) (rm : BitVec 3) (single : Bool) : BitVec 32 :=
  0x1C#6 ++ rd ++ ra ++ rb ++ ffn ++ rm ++ BitVec.ofBool single ++ 0#2
def ffmaWord (rd ra rb rc : Reg) (rm : BitVec 3) (single : Bool) : BitVec 32 :=
  0x1D#6 ++ rd ++ ra ++ rb ++ rc ++ rm ++ BitVec.ofBool single ++ 0#2

def hOp (w : BitVec 32) : BitVec 6 := w.extractLsb' 26 6
def hRd (w : BitVec 32) : Reg := w.extractLsb' 21 5
def hRa (w : BitVec 32) : Reg := w.extractLsb' 16 5
def hRb (w : BitVec 32) : Reg := w.extractLsb' 11 5
def hRc (w : BitVec 32) : Reg := w.extractLsb' 6 5
def hFn (w : BitVec 32) : BitVec 11 := w.extractLsb' 0 11
def hImm (w : BitVec 32) : BitVec 16 := w.extractLsb' 0 16
def hOff (w : BitVec 32) : BitVec 26 := w.extractLsb' 0 26
def hRm (w : BitVec 32) : BitVec 3 := w.extractLsb' 3 3
def hSp (w : BitVec 32) : Bool := w.getLsbD 2
/-- Bits 1..0, which are zero in the FPU and FFMA formats. -/
def hLow (w : BitVec 32) : BitVec 2 := w.extractLsb' 0 2

/-- ALU words (R82). -/
def decodeAlu (w : BitVec 32) : Except Reject Instr :=
  let d := hRd w; let a := hRa w; let b := hRb w
  match (hFn w).toNat with
  | 0x000 => .ok (.add d a b) | 0x001 => .ok (.sub d a b) | 0x002 => .ok (.and d a b) | 0x003 => .ok (.or d a b)
  | 0x004 => .ok (.xor d a b) | 0x005 => .ok (.andn d a b) | 0x006 => .ok (.shl d a b) | 0x007 => .ok (.shr d a b)
  | 0x008 => .ok (.sar d a b) | 0x009 => .ok (.slt d a b) | 0x00A => .ok (.sltn d a b) | 0x00B => .ok (.mul d a b)
  | 0x00C => .ok (.mulh d a b) | 0x00D => .ok (.mulhn d a b) | 0x00E => .ok (.div d a b) | 0x00F => .ok (.divn d a b)
  | 0x010 => .ok (.rem d a b) | 0x011 => .ok (.remn d a b)
  | _ => .error .function

/-- SHIFTI: bits 15..8 of IMM16 zero, bits 7..6 the direction (R81). -/
def decodeShift (w : BitVec 32) : Except Reject Instr :=
  let sh : BitVec 6 := w.extractLsb' 0 6
  if w.extractLsb' 8 8 ≠ 0 then .error .nonzero
  else match (w.extractLsb' 6 2).toNat with
    | 0 => .ok (.shli (hRd w) (hRa w) sh)
    | 1 => .ok (.shri (hRd w) (hRa w) sh)
    | 2 => .ok (.sari (hRd w) (hRa w) sh)
    | _ => .error .function

/-- A rounding FPU function: RM of 5 or 7 is refused (R80). -/
def withRm (w : BitVec 32) (mk : HRm → Instr) : Except Reject Instr :=
  match HRm.ofCode (hRm w).toNat with
  | some rm => .ok (mk rm)
  | none => .error .rounding

/-- RB is zero, or the word is refused (R83). -/
def needRb0 (w : BitVec 32) (r : Except Reject Instr) : Except Reject Instr :=
  if hRb w = 0 then r else .error .nonzero

/-- FPU words (R82, 04 R140). -/
def decodeFpu (w : BitVec 32) : Except Reject Instr :=
  let d := hRd w; let a := hRa w; let b := hRb w; let sp := hSp w
  if hLow w ≠ 0 then .error .nonzero
  else match (hRc w).toNat with
    | 0 => withRm w fun rm => .fadd d a b rm sp
    | 1 => withRm w fun rm => .fsub d a b rm sp
    | 2 => withRm w fun rm => .fmul d a b rm sp
    | 3 => withRm w fun rm => .fdiv d a b rm sp
    | 4 => needRb0 w (withRm w fun rm => .fsqrt d a rm sp)
    | 5 => match (hRm w).toNat with
      | 0 => .ok (.fminIeee d a b sp) | 1 => .ok (.fminNum d a b sp) | _ => .error .function
    | 6 => match (hRm w).toNat with
      | 0 => .ok (.fmaxIeee d a b sp) | 1 => .ok (.fmaxNum d a b sp) | _ => .error .function
    | 7 => match (hRm w).toNat with
      | 0 => .ok (.fcmpEq d a b sp) | 1 => .ok (.fcmpLt d a b sp) | 2 => .ok (.fcmpLe d a b sp)
      | 3 => .ok (.fcmpUn d a b sp) | _ => .error .function
    | 8 => match b.toNat with
      | 0 => withRm w fun rm => .fcvtFf d a rm sp
      | 1 => withRm w fun rm => .fcvtFromi d a rm sp
      | 2 => withRm w fun rm => .fcvtFromn d a rm sp
      | 3 => withRm w fun rm => .fcvtToi d a rm sp
      | 4 => withRm w fun rm => .fcvtTon d a rm sp
      | 5 => withRm w fun rm => .fcvtInt d a rm sp
      | _ => .error .function
    | 9 => match (hRm w).toNat with
      | 0 => needRb0 w (.ok (.fmovMov d a sp))
      | 1 => needRb0 w (.ok (.fmovFromx d a sp))
      | 2 => needRb0 w (.ok (.fmovTox d a sp))
      | 3 => needRb0 w (.ok (.fmovNeg d a sp))
      | 4 => needRb0 w (.ok (.fmovAbs d a sp))
      | 5 => .ok (.fmovCpys d a b sp)
      | _ => .error .function
    | 10 => if hRm w = 0 then needRb0 w (.ok (.fclass d a sp)) else .error .function
    | _ => .error .function

/-- ATOM words (04 R137): FN bits 10..8 zero, bits 7..5 SCOPE, bit 4 W, bits 3..0 the operation. -/
def decodeAtom (w : BitVec 32) : Except Reject Instr :=
  let d := hRd w; let a := hRa w; let b := hRb w; let w32 := w.getLsbD 4
  if w.extractLsb' 8 3 ≠ 0 then .error .nonzero
  else match Scope.ofCode (w.extractLsb' 5 3).toNat with
    | none => .error .scope
    | some sc =>
      match (w.extractLsb' 0 4).toNat with
      | 0 => .ok (.atomSwap d a b sc w32) | 1 => .ok (.atomAdd d a b sc w32) | 2 => .ok (.atomAnd d a b sc w32)
      | 3 => .ok (.atomOr d a b sc w32) | 4 => .ok (.atomXor d a b sc w32) | 5 => .ok (.atomMin d a b sc w32)
      | 6 => .ok (.atomMax d a b sc w32) | 7 => .ok (.atomMinn d a b sc w32) | 8 => .ok (.atomMaxn d a b sc w32)
      | 9 => .ok (.atomCas d a b sc w32)
      | _ => .error .function

/-- A word of a fixed form: the listed fields are zero (R83). -/
def needZero (z : Bool) (i : Instr) : Except Reject Instr := if z then .ok i else .error .nonzero

/-- The graph instructions and DIAGST (0x30 to 0x38; 04 R120). -/
def decodeGraph (w : BitVec 32) : Except Reject Instr :=
  let d := hRd w; let a := hRa w; let b := hRb w; let fn := hFn w
  match (hOp w).toNat with
  | 0x30 => needZero (b == 0 && fn.extractLsb' 1 10 == 0) (.gload d a (fn.getLsbD 0))
  | 0x31 => needZero (fn.extractLsb' 2 9 == 0) (.inj d a b (fn.getLsbD 1) (fn.getLsbD 0))
  | 0x32 => needZero (a == 0 && fn.extractLsb' 1 10 == 0) (.snkpop d b (fn.getLsbD 0))
  | 0x33 => needZero (a == 0 && b == 0 && fn == 0) (.freeze d)
  | 0x34 => needZero (b == 0 && fn == 0) (.scan d a)
  | 0x35 => needZero (b == 0 && fn == 0) (.restore d a)
  | 0x36 => needZero (fn == 0) (.opwr d a b)
  | 0x37 => match fn.toNat with
    | 0 => .ok (.diagstHbm d a b) | 1 => .ok (.diagstBank d a b) | 2 => .ok (.diagstSp d a b) | _ => .error .function
  | 0x38 => needZero (a == 0 && b == 0 && fn == 0) (.thaw d)
  | _ => .error .opcode

/-- The instruction a Hawk word holds (R80 to R83), or the name of what is wrong with it. -/
def decodeHawk (w : BitVec 32) : Except Reject Instr :=
  let d := hRd w; let a := hRa w; let b := hRb w; let i := hImm w
  match (hOp w).toNat with
  | 0x00 => decodeAlu w
  | 0x01 => .ok (.addi d a i) | 0x02 => .ok (.andi d a i) | 0x03 => .ok (.ori d a i) | 0x04 => .ok (.xori d a i)
  | 0x05 => decodeShift w
  | 0x06 => .ok (.slti d a i)
  | 0x07 => needZero (a == 0) (.ldhi d i)
  | 0x08 => needZero (a == 0) (.addpc d i)
  | 0x09 => .ok (.ldb d a i) | 0x0A => .ok (.ldh d a i) | 0x0B => .ok (.ldw d a i) | 0x0C => .ok (.ldd d a i)
  | 0x0D => .ok (.ldbn d a i) | 0x0E => .ok (.ldhn d a i) | 0x0F => .ok (.ldwn d a i)
  | 0x10 => .ok (.stb d a i) | 0x11 => .ok (.sth d a i) | 0x12 => .ok (.stw d a i) | 0x13 => .ok (.std d a i)
  | 0x14 => .ok (.beq d a i) | 0x15 => .ok (.bne d a i) | 0x16 => .ok (.blt d a i) | 0x17 => .ok (.bge d a i)
  | 0x18 => .ok (.bltn d a i) | 0x19 => .ok (.bgen d a i)
  | 0x1A => .ok (.jmpl (hOff w))
  | 0x1B => needZero (b == 0 && hFn w == 0) (.jmpr d a)
  | 0x1C => decodeFpu w
  | 0x1D => if hLow w = 0 then withRm w fun rm => .ffma d a b (hRc w) rm (hSp w) else .error .nonzero
  | 0x1E => .ok (.fld d a i) | 0x1F => .ok (.fst d a i)
  | 0x20 => decodeAtom w
  | 0x22 =>
    match Scope.ofCode (w.extractLsb' 0 3).toNat with
    | some sc => needZero (w.extractLsb' 3 23 == 0) (.fence sc)
    | none => .error .scope
  | 0x28 => needZero (a == 0) (.sysr d i)
  | 0x29 => needZero (a == 0) (.sysw d i)
  | 0x2A => needZero (w.extractLsb' 16 10 == 0) (.trap i)
  | 0x2B => needZero (hOff w == 0) .tret
  | 0x2C => needZero (hOff w == 0) .wfe
  | 0x2D => needZero (w.extractLsb' 16 10 == 0) (.svc i)
  | _ => decodeGraph w

/-! ### The operator word (R70, R73) -/

def Dst.word (d : Dst) : BitVec 32 := BitVec.ofBool d.valid ++ d.port ++ d.die ++ d.cluster ++ d.slot ++ d.rwi

def Dst.ofWord (w : BitVec 32) : Dst :=
  { valid := w.getLsbD 31, port := w.extractLsb' 29 2, die := w.extractLsb' 26 3, cluster := w.extractLsb' 17 9,
    slot := w.extractLsb' 6 11, rwi := w.extractLsb' 0 6 }

/-- The operator word of an ECL, an OPC and the other fields (R70). -/
def opWord (ecl : BitVec 3) (opc : BitVec 8) (o : Op) : Word128 :=
  ecl ++ opc ++ BitVec.ofNat 5 o.fmt.code ++ o.rnd.code ++ o.ports ++ o.xfm.code ++ BitVec.ofBool o.sat ++
  BitVec.ofBool o.fe ++ BitVec.ofBool o.ord ++ o.imm ++ o.dst1.word ++ o.dst0.word

/-- The operator that an ECL/OPC pair names (03 R79). -/
noncomputable def operatorOf (ecl opc : Nat) : Option (Op → Instr) :=
  match ecl with
  | 0 =>
    match opc with
    | 0x00 => some .pass | 0x01 => some .const | 0x02 => some .dup | 0x03 => some .route | 0x04 => some .steer
    | 0x05 => some .gate | 0x06 => some .sel | 0x07 => some .join | 0x08 => some .drop | 0x09 => some .sink
    | 0x0A => some .src | 0x0B => some .tagx | 0x10 => some .ctxEnter | 0x11 => some .ctxNext
    | 0x12 => some .ctxExit | 0x13 => some .invSet | 0x14 => some .invGet | 0x15 => some .flagsGet
    | 0x16 => some .flagsClr | 0x18 => some .sadd | 0x19 => some .ssub | 0x1A => some .smul | 0x1B => some .smad
    | 0x1C => some .scmp | 0x1D => some .slog | 0x1E => some .sshf | 0x1F => some .sminmax | 0x20 => some .pfence
    | 0x21 => some .splice | 0x22 => some .cmpx | 0x23 => some .mark
    | _ => none
  | 1 =>
    match opc with
    | 0x00 => some .vadd | 0x01 => some .vsub | 0x02 => some .vmul | 0x03 => some .vfma | 0x04 => some .vfms
    | 0x05 => some .vdiv | 0x06 => some .vsqrt | 0x07 => some .vrsqrt | 0x08 => some .vmin | 0x09 => some .vmax
    | 0x0A => some .vminn | 0x0B => some .vmaxn | 0x0C => some .vabs | 0x0D => some .vneg | 0x0E => some .vcpys
    | 0x0F => some .vscale | 0x10 => some .vrnd | 0x11 => some .vclass | 0x12 => some .vcmp | 0x13 => some .vcvt
    | 0x14 => some .vsplit | 0x18 => some .vexp | 0x19 => some .vexpm1 | 0x1A => some .vlog | 0x1B => some .vlog1p
    | 0x1C => some .verf | 0x1D => some .verfc | 0x1E => some .vexp2 | 0x1F => some .vlog2 | 0x20 => some .viadd
    | 0x21 => some .visub | 0x22 => some .vimul | 0x23 => some .vimulh | 0x24 => some .vimad | 0x25 => some .vimin
    | 0x26 => some .vimax | 0x27 => some .vicmp | 0x28 => some .vand | 0x29 => some .vor | 0x2A => some .vxor
    | 0x2B => some .vshl | 0x2C => some .vshr | 0x2D => some .vsar | 0x2E => some .vpopc | 0x2F => some .vclz
    | 0x30 => some .vbcast | 0x31 => some .vsel | 0x32 => some .vperm | 0x33 => some .vtrans | 0x34 => some .viota
    | 0x35 => some .vextr | 0x36 => some .vins | 0x37 => some .vslice | 0x38 => some .vreduce | 0x39 => some .vscan
    | 0x3A => some .vcompr | 0x3B => some .vexpnd | 0x3C => some .vrng | 0x3D => some .vquant | 0x3E => some .vdeq
    | _ => none
  | 2 =>
    match opc with
    | 0x00 => some .mma | 0x01 => some .mmaSp | 0x02 => some .mwload | 0x03 => some .maccRd | 0x04 => some .maccWr
    | 0x05 => some .maccClr | 0x06 => some .mouter | 0x08 => some .msort | 0x09 => some .mtopk
    | 0x0A => some .mmerge | 0x0B => some .mtrans
    | _ => none
  | 3 =>
    match opc with
    | 0x00 => some .scopy | 0x01 => some .sarm | 0x02 => some .sfire | 0x03 => some .schain | 0x04 => some .sdisarm
    | 0x05 => some .sempty | 0x06 => some .sfill | 0x07 => some .sgen | 0x08 => some .sorder | 0x09 => some .scancel
    | _ => none
  | 4 =>
    match opc with
    | 0x00 => some .ld | 0x01 => some .st | 0x02 => some .ldi | 0x03 => some .sti | 0x04 => some .lds
    | 0x05 => some .sts | 0x06 => some .portLdw | 0x07 => some .portStw | 0x08 => some .pref | 0x09 => some .mresume
    | 0x0A => some .mstart | 0x0B => some .mmode
    | _ => none
  | 5 =>
    match opc with
    | 0x00 => some .bld | 0x01 => some .bst | 0x02 => some .bankAtom | 0x03 => some .acas | 0x04 => some .red
    | 0x05 => some .rflush | 0x06 => some .bupd | 0x08 => some .fget | 0x09 => some .fput | 0x0A => some .fclr
    | 0x0C => some .qinit | 0x0D => some .qpush | 0x0E => some .qpop | 0x10 => some .wait | 0x11 => some .wake
    | 0x12 => some .bcall
    | _ => none
  | 6 =>
    match opc with
    | 0x00 => some .pbar | 0x01 => some .pbcast | 0x02 => some .predOpen | 0x03 => some .predPut
    | 0x04 => some .pcorr | 0x05 => some .tred | 0x08 => some .crewNew | 0x09 => some .crewJoin
    | 0x0A => some .crewLeave | 0x0B => some .crewFree | 0x0C => some .ptime | 0x0D => some .pquiet
    | 0x0E => some .psig
    | _ => none
  | 7 =>
    match opc with
    | 0x00 => some .lput | 0x01 => some .lget | 0x02 => some .latom | 0x03 => some .lsend | 0x04 => some .lrecv
    | 0x05 => some .lfence
    | _ => none
  | _ => none

/-- The ECL and OPC of an operator (03 R79), none for a Hawk word or a device event. -/
def opcodeOf : Instr → Option (BitVec 3 × BitVec 8)
  | .pass _ => some (0x0#3, 0x00#8)
  | .const _ => some (0x0#3, 0x01#8)
  | .dup _ => some (0x0#3, 0x02#8)
  | .route _ => some (0x0#3, 0x03#8)
  | .steer _ => some (0x0#3, 0x04#8)
  | .gate _ => some (0x0#3, 0x05#8)
  | .sel _ => some (0x0#3, 0x06#8)
  | .join _ => some (0x0#3, 0x07#8)
  | .drop _ => some (0x0#3, 0x08#8)
  | .sink _ => some (0x0#3, 0x09#8)
  | .src _ => some (0x0#3, 0x0A#8)
  | .tagx _ => some (0x0#3, 0x0B#8)
  | .ctxEnter _ => some (0x0#3, 0x10#8)
  | .ctxNext _ => some (0x0#3, 0x11#8)
  | .ctxExit _ => some (0x0#3, 0x12#8)
  | .invSet _ => some (0x0#3, 0x13#8)
  | .invGet _ => some (0x0#3, 0x14#8)
  | .flagsGet _ => some (0x0#3, 0x15#8)
  | .flagsClr _ => some (0x0#3, 0x16#8)
  | .sadd _ => some (0x0#3, 0x18#8)
  | .ssub _ => some (0x0#3, 0x19#8)
  | .smul _ => some (0x0#3, 0x1A#8)
  | .smad _ => some (0x0#3, 0x1B#8)
  | .scmp _ => some (0x0#3, 0x1C#8)
  | .slog _ => some (0x0#3, 0x1D#8)
  | .sshf _ => some (0x0#3, 0x1E#8)
  | .sminmax _ => some (0x0#3, 0x1F#8)
  | .pfence _ => some (0x0#3, 0x20#8)
  | .splice _ => some (0x0#3, 0x21#8)
  | .cmpx _ => some (0x0#3, 0x22#8)
  | .mark _ => some (0x0#3, 0x23#8)
  | .vadd _ => some (0x1#3, 0x00#8)
  | .vsub _ => some (0x1#3, 0x01#8)
  | .vmul _ => some (0x1#3, 0x02#8)
  | .vfma _ => some (0x1#3, 0x03#8)
  | .vfms _ => some (0x1#3, 0x04#8)
  | .vdiv _ => some (0x1#3, 0x05#8)
  | .vsqrt _ => some (0x1#3, 0x06#8)
  | .vrsqrt _ => some (0x1#3, 0x07#8)
  | .vmin _ => some (0x1#3, 0x08#8)
  | .vmax _ => some (0x1#3, 0x09#8)
  | .vminn _ => some (0x1#3, 0x0A#8)
  | .vmaxn _ => some (0x1#3, 0x0B#8)
  | .vabs _ => some (0x1#3, 0x0C#8)
  | .vneg _ => some (0x1#3, 0x0D#8)
  | .vcpys _ => some (0x1#3, 0x0E#8)
  | .vscale _ => some (0x1#3, 0x0F#8)
  | .vrnd _ => some (0x1#3, 0x10#8)
  | .vclass _ => some (0x1#3, 0x11#8)
  | .vcmp _ => some (0x1#3, 0x12#8)
  | .vcvt _ => some (0x1#3, 0x13#8)
  | .vsplit _ => some (0x1#3, 0x14#8)
  | .vexp _ => some (0x1#3, 0x18#8)
  | .vexpm1 _ => some (0x1#3, 0x19#8)
  | .vlog _ => some (0x1#3, 0x1A#8)
  | .vlog1p _ => some (0x1#3, 0x1B#8)
  | .verf _ => some (0x1#3, 0x1C#8)
  | .verfc _ => some (0x1#3, 0x1D#8)
  | .vexp2 _ => some (0x1#3, 0x1E#8)
  | .vlog2 _ => some (0x1#3, 0x1F#8)
  | .viadd _ => some (0x1#3, 0x20#8)
  | .visub _ => some (0x1#3, 0x21#8)
  | .vimul _ => some (0x1#3, 0x22#8)
  | .vimulh _ => some (0x1#3, 0x23#8)
  | .vimad _ => some (0x1#3, 0x24#8)
  | .vimin _ => some (0x1#3, 0x25#8)
  | .vimax _ => some (0x1#3, 0x26#8)
  | .vicmp _ => some (0x1#3, 0x27#8)
  | .vand _ => some (0x1#3, 0x28#8)
  | .vor _ => some (0x1#3, 0x29#8)
  | .vxor _ => some (0x1#3, 0x2A#8)
  | .vshl _ => some (0x1#3, 0x2B#8)
  | .vshr _ => some (0x1#3, 0x2C#8)
  | .vsar _ => some (0x1#3, 0x2D#8)
  | .vpopc _ => some (0x1#3, 0x2E#8)
  | .vclz _ => some (0x1#3, 0x2F#8)
  | .vbcast _ => some (0x1#3, 0x30#8)
  | .vsel _ => some (0x1#3, 0x31#8)
  | .vperm _ => some (0x1#3, 0x32#8)
  | .vtrans _ => some (0x1#3, 0x33#8)
  | .viota _ => some (0x1#3, 0x34#8)
  | .vextr _ => some (0x1#3, 0x35#8)
  | .vins _ => some (0x1#3, 0x36#8)
  | .vslice _ => some (0x1#3, 0x37#8)
  | .vreduce _ => some (0x1#3, 0x38#8)
  | .vscan _ => some (0x1#3, 0x39#8)
  | .vcompr _ => some (0x1#3, 0x3A#8)
  | .vexpnd _ => some (0x1#3, 0x3B#8)
  | .vrng _ => some (0x1#3, 0x3C#8)
  | .vquant _ => some (0x1#3, 0x3D#8)
  | .vdeq _ => some (0x1#3, 0x3E#8)
  | .mma _ => some (0x2#3, 0x00#8)
  | .mmaSp _ => some (0x2#3, 0x01#8)
  | .mwload _ => some (0x2#3, 0x02#8)
  | .maccRd _ => some (0x2#3, 0x03#8)
  | .maccWr _ => some (0x2#3, 0x04#8)
  | .maccClr _ => some (0x2#3, 0x05#8)
  | .mouter _ => some (0x2#3, 0x06#8)
  | .msort _ => some (0x2#3, 0x08#8)
  | .mtopk _ => some (0x2#3, 0x09#8)
  | .mmerge _ => some (0x2#3, 0x0A#8)
  | .mtrans _ => some (0x2#3, 0x0B#8)
  | .scopy _ => some (0x3#3, 0x00#8)
  | .sarm _ => some (0x3#3, 0x01#8)
  | .sfire _ => some (0x3#3, 0x02#8)
  | .schain _ => some (0x3#3, 0x03#8)
  | .sdisarm _ => some (0x3#3, 0x04#8)
  | .sempty _ => some (0x3#3, 0x05#8)
  | .sfill _ => some (0x3#3, 0x06#8)
  | .sgen _ => some (0x3#3, 0x07#8)
  | .sorder _ => some (0x3#3, 0x08#8)
  | .scancel _ => some (0x3#3, 0x09#8)
  | .ld _ => some (0x4#3, 0x00#8)
  | .st _ => some (0x4#3, 0x01#8)
  | .ldi _ => some (0x4#3, 0x02#8)
  | .sti _ => some (0x4#3, 0x03#8)
  | .lds _ => some (0x4#3, 0x04#8)
  | .sts _ => some (0x4#3, 0x05#8)
  | .portLdw _ => some (0x4#3, 0x06#8)
  | .portStw _ => some (0x4#3, 0x07#8)
  | .pref _ => some (0x4#3, 0x08#8)
  | .mresume _ => some (0x4#3, 0x09#8)
  | .mstart _ => some (0x4#3, 0x0A#8)
  | .mmode _ => some (0x4#3, 0x0B#8)
  | .bld _ => some (0x5#3, 0x00#8)
  | .bst _ => some (0x5#3, 0x01#8)
  | .bankAtom _ => some (0x5#3, 0x02#8)
  | .acas _ => some (0x5#3, 0x03#8)
  | .red _ => some (0x5#3, 0x04#8)
  | .rflush _ => some (0x5#3, 0x05#8)
  | .bupd _ => some (0x5#3, 0x06#8)
  | .fget _ => some (0x5#3, 0x08#8)
  | .fput _ => some (0x5#3, 0x09#8)
  | .fclr _ => some (0x5#3, 0x0A#8)
  | .qinit _ => some (0x5#3, 0x0C#8)
  | .qpush _ => some (0x5#3, 0x0D#8)
  | .qpop _ => some (0x5#3, 0x0E#8)
  | .wait _ => some (0x5#3, 0x10#8)
  | .wake _ => some (0x5#3, 0x11#8)
  | .bcall _ => some (0x5#3, 0x12#8)
  | .pbar _ => some (0x6#3, 0x00#8)
  | .pbcast _ => some (0x6#3, 0x01#8)
  | .predOpen _ => some (0x6#3, 0x02#8)
  | .predPut _ => some (0x6#3, 0x03#8)
  | .pcorr _ => some (0x6#3, 0x04#8)
  | .tred _ => some (0x6#3, 0x05#8)
  | .crewNew _ => some (0x6#3, 0x08#8)
  | .crewJoin _ => some (0x6#3, 0x09#8)
  | .crewLeave _ => some (0x6#3, 0x0A#8)
  | .crewFree _ => some (0x6#3, 0x0B#8)
  | .ptime _ => some (0x6#3, 0x0C#8)
  | .pquiet _ => some (0x6#3, 0x0D#8)
  | .psig _ => some (0x6#3, 0x0E#8)
  | .lput _ => some (0x7#3, 0x00#8)
  | .lget _ => some (0x7#3, 0x01#8)
  | .latom _ => some (0x7#3, 0x02#8)
  | .lsend _ => some (0x7#3, 0x03#8)
  | .lrecv _ => some (0x7#3, 0x04#8)
  | .lfence _ => some (0x7#3, 0x05#8)
  | .add .. | .sub .. | .and .. | .or .. | .xor .. | .andn .. | .shl .. | .shr .. | .sar .. | .slt .. | .sltn ..
  | .mul .. | .mulh .. | .mulhn .. | .div .. | .divn .. | .rem .. | .remn .. | .addi .. | .andi .. | .ori ..
  | .xori .. | .shli .. | .shri .. | .sari .. | .slti .. | .ldhi .. | .addpc .. | .ldb .. | .ldh .. | .ldw ..
  | .ldd .. | .ldbn .. | .ldhn .. | .ldwn .. | .stb .. | .sth .. | .stw .. | .std .. | .beq .. | .bne ..
  | .blt .. | .bge .. | .bltn .. | .bgen .. | .jmpl .. | .jmpr .. | .fadd .. | .fsub .. | .fmul .. | .fdiv ..
  | .fsqrt .. | .fminIeee .. | .fminNum .. | .fmaxIeee .. | .fmaxNum .. | .fcmpEq .. | .fcmpLt .. | .fcmpLe ..
  | .fcmpUn .. | .fcvtFf .. | .fcvtFromi .. | .fcvtFromn .. | .fcvtToi .. | .fcvtTon .. | .fcvtInt ..
  | .fmovMov .. | .fmovFromx .. | .fmovTox .. | .fmovNeg .. | .fmovAbs .. | .fmovCpys .. | .fclass .. | .ffma ..
  | .fld .. | .fst .. | .atomSwap .. | .atomAdd .. | .atomAnd .. | .atomOr .. | .atomXor .. | .atomMin ..
  | .atomMax .. | .atomMinn .. | .atomMaxn .. | .atomCas .. | .fence .. | .sysr .. | .sysw .. | .trap .. | .tret
  | .wfe | .svc .. | .gload .. | .inj .. | .snkpop .. | .freeze .. | .scan .. | .restore .. | .opwr ..
  | .diagstHbm .. | .diagstBank .. | .diagstSp .. | .thaw .. | .packageReset .. | .asyncCauseDelivery ..
  | .timerEvent .. | .wfeWake .. | .snkpopWaitResume .. | .injColourResume .. | .hwakeWrite ..
  | .htimecmpWrite .. | .registerWrite .. | .launchPeek .. | .launchCommit .. | .launchRelease ..
  | .effectivePriorityAging .. | .allocReq .. | .allocFree .. | .spanmapBind .. | .spanmapUnbind ..
  | .twinPair .. | .twinUnpair .. | .tctlClr .. | .leakthrWrite .. | .prtabLoad .. | .hrtabLoad ..
  | .tlbinvPage .. | .tlbinvAsid .. | .tlbinvAll | .kcmdRereadKey .. | .kcmdRevoke .. | .kcmdRereadConn ..
  | .msggo .. | .msgack | .hostMessageArrival | .opreqWrite .. | .operatingPointChange .. | .hostRead ..
  | .hostWrite .. | .cxlSnoop .. | .getId | .getMeas .. | .writeFw .. | .packetRouting .. | .configPacketHop ..
  | .tokenArrival .. | .tilePacketDelivery .. | .ejectionWaitPlacement .. | .matchOverflow ..
  | .tileOperandReady .. | .firingDispatch .. | .colourAllocation .. | .irrevocableHandshake .. | .flagUpdate ..
  | .frameRequest .. | .purgeRequest .. | .purgeEffect .. | .quarantineExpiry .. | .replay ..
  | .activationFailEffect .. | .sinkRingEntry .. | .spliceReplacement .. | .spliceTimeLimit ..
  | .markerArrival .. | .srcStreamEmit .. | .cmpxDigestArrival .. | .cmpxTimeout .. | .freezeEffect ..
  | .thawEffect .. | .spanSignalRelay .. | .quadLineStateQuery .. | .quadReadServe .. | .stencilQueueIssue ..
  | .streamTileStep .. | .ringTileStep .. | .retainedRingStep .. | .portRequestAccept .. | .generatorStart ..
  | .elementPerform .. | .waveAccessPerform .. | .readAhead .. | .bankRequestAccept .. | .combiningEntryApply ..
  | .waiterLimitExpiry .. | .routineFetch .. | .nackRetry .. | .memberIndexLookup .. | .rootSignalTake ..
  | .roundRelease .. | .reductionNoticeLanding .. | .deadlineEvaluation .. | .lateContribution ..
  | .finalPacket .. | .resultLanding .. | .ptimeExpiry .. | .markerSignalEffect .. | .snapshotComplete ..
  | .snapshotTimeout .. | .censusTick .. | .pquietWaitEmit .. | .deadlock .. | .wdog ..
  | .incomingRemoteAccess .. | .incomingSend .. | .linkWaitLimitExpiry .. | .scewenFlitReceive .. | .slotSync ..
  | .scewenPortDown .. | .ethernetRetransmit .. | .telemetryUpdate .. | .thermalClamp .. | .thermalShutdown ..
  | .clusterFailing .. | .illegalEncoding .. | .memoryFailure .. | .ethernetPortDown ..
  | .linkResponseArrival .. => none


/-- The fields of an operator word (R70 to R73), or the name of the one that holds a reserved code (R77). -/
def fieldsOf (w : Word128) : Except Reject Op :=
  match Fmt.ofCode (w.extractLsb' 112 5).toNat with
  | none => .error .format
  | some fmt =>
    match Rnd.ofCode (w.extractLsb' 109 3).toNat with
    | none => .error .rounding
    | some rnd =>
      match Xfm.ofCode (w.extractLsb' 104 3).toNat with
      | none => .error .transform
      | some xfm =>
        .ok { fmt := fmt, rnd := rnd, ports := w.extractLsb' 107 2, xfm := xfm, sat := w.getLsbD 103,
              fe := w.getLsbD 102, ord := w.getLsbD 101, imm := w.extractLsb' 64 37,
              dst1 := Dst.ofWord (w.extractLsb' 32 32), dst0 := Dst.ofWord (w.extractLsb' 0 32) }

/-- The instruction an operator word holds (R70 to R73, R77, R79), or the name of what is wrong with it. -/
noncomputable def decodeOp (w : Word128) : Except Reject Instr :=
  match operatorOf (w.extractLsb' 125 3).toNat (w.extractLsb' 117 8).toNat with
  | none => .error .opcode
  | some mk =>
    match fieldsOf w with
    | .error e => .error e
    | .ok o => if opAccepts (w.extractLsb' 125 3).toNat (w.extractLsb' 117 8).toNat o then .ok (mk o) else .error .form

/-- The word holds an operator (R77). -/
def isOpWord (w : Word128) : Bool :=
  match fieldsOf w with
  | .error _ => false
  | .ok o => opAccepts (w.extractLsb' 125 3).toNat (w.extractLsb' 117 8).toNat o

/-- The operator word of an instruction, none for a Hawk word or a device event. -/
def encodeOp (i : Instr) : Option Word128 :=
  match opcodeOf i, opOf i with
  | some (ecl, opc), some o => some (opWord ecl opc o)
  | _, _ => none

/-! ### Route words (R74) -/

/-- One entry of a route word. -/
structure RouteEntry where
  port : BitVec 2
  cluster : BitVec 9
  slotLo : BitVec 10
  deriving DecidableEq, Repr

def routeEntry (w : Word128) (i : Nat) : RouteEntry :=
  { port := w.extractLsb' (21 * i + 19) 2, cluster := w.extractLsb' (21 * i + 10) 9, slotLo := w.extractLsb' (21 * i) 10 }

/-- The destination that entry i names on the sender's die: SH is bit 10 of the slot (R74). -/
def routeDst (w : Word128) (die : BitVec 3) (i : Nat) : Dst :=
  let e := routeEntry w i
  { valid := true, port := e.port, die := die, cluster := e.cluster,
    slot := BitVec.ofBool (w.getLsbD 127) ++ e.slotLo, rwi := 0 }

/-- Bit 126 and the entries that are not in use are zero (R74). -/
def routeWordOk (w : Word128) (rwi : Nat) : Bool :=
  !w.getLsbD 126 && (w.extractLsb' 0 126 >>> (21 * rwi) == 0)

/-! ### Hawk words -/

/-- The 32-bit word of a Hawk instruction (03 R80 to R82; 04 R137 to R140), none for an operator or a device event. -/
def encodeHawk : Instr → Option (BitVec 32)
  | .add rd ra rb => some (baseWord 0x00#6 rd ra rb 0x000#11)
  | .sub rd ra rb => some (baseWord 0x00#6 rd ra rb 0x001#11)
  | .and rd ra rb => some (baseWord 0x00#6 rd ra rb 0x002#11)
  | .or rd ra rb => some (baseWord 0x00#6 rd ra rb 0x003#11)
  | .xor rd ra rb => some (baseWord 0x00#6 rd ra rb 0x004#11)
  | .andn rd ra rb => some (baseWord 0x00#6 rd ra rb 0x005#11)
  | .shl rd ra rb => some (baseWord 0x00#6 rd ra rb 0x006#11)
  | .shr rd ra rb => some (baseWord 0x00#6 rd ra rb 0x007#11)
  | .sar rd ra rb => some (baseWord 0x00#6 rd ra rb 0x008#11)
  | .slt rd ra rb => some (baseWord 0x00#6 rd ra rb 0x009#11)
  | .sltn rd ra rb => some (baseWord 0x00#6 rd ra rb 0x00A#11)
  | .mul rd ra rb => some (baseWord 0x00#6 rd ra rb 0x00B#11)
  | .mulh rd ra rb => some (baseWord 0x00#6 rd ra rb 0x00C#11)
  | .mulhn rd ra rb => some (baseWord 0x00#6 rd ra rb 0x00D#11)
  | .div rd ra rb => some (baseWord 0x00#6 rd ra rb 0x00E#11)
  | .divn rd ra rb => some (baseWord 0x00#6 rd ra rb 0x00F#11)
  | .rem rd ra rb => some (baseWord 0x00#6 rd ra rb 0x010#11)
  | .remn rd ra rb => some (baseWord 0x00#6 rd ra rb 0x011#11)
  | .addi rd ra imm => some (immWord 0x01#6 rd ra imm)
  | .andi rd ra imm => some (immWord 0x02#6 rd ra imm)
  | .ori rd ra imm => some (immWord 0x03#6 rd ra imm)
  | .xori rd ra imm => some (immWord 0x04#6 rd ra imm)
  | .shli rd ra sh => some (immWord 0x05#6 rd ra (0#8 ++ 0#2 ++ sh))
  | .shri rd ra sh => some (immWord 0x05#6 rd ra (0#8 ++ 1#2 ++ sh))
  | .sari rd ra sh => some (immWord 0x05#6 rd ra (0#8 ++ 2#2 ++ sh))
  | .slti rd ra imm => some (immWord 0x06#6 rd ra imm)
  | .ldhi rd imm => some (immWord 0x07#6 rd 0#5 imm)
  | .addpc rd imm => some (immWord 0x08#6 rd 0#5 imm)
  | .ldb rd ra imm => some (immWord 0x09#6 rd ra imm)
  | .ldh rd ra imm => some (immWord 0x0A#6 rd ra imm)
  | .ldw rd ra imm => some (immWord 0x0B#6 rd ra imm)
  | .ldd rd ra imm => some (immWord 0x0C#6 rd ra imm)
  | .ldbn rd ra imm => some (immWord 0x0D#6 rd ra imm)
  | .ldhn rd ra imm => some (immWord 0x0E#6 rd ra imm)
  | .ldwn rd ra imm => some (immWord 0x0F#6 rd ra imm)
  | .stb rd ra imm => some (immWord 0x10#6 rd ra imm)
  | .sth rd ra imm => some (immWord 0x11#6 rd ra imm)
  | .stw rd ra imm => some (immWord 0x12#6 rd ra imm)
  | .std rd ra imm => some (immWord 0x13#6 rd ra imm)
  | .beq rd ra imm => some (immWord 0x14#6 rd ra imm)
  | .bne rd ra imm => some (immWord 0x15#6 rd ra imm)
  | .blt rd ra imm => some (immWord 0x16#6 rd ra imm)
  | .bge rd ra imm => some (immWord 0x17#6 rd ra imm)
  | .bltn rd ra imm => some (immWord 0x18#6 rd ra imm)
  | .bgen rd ra imm => some (immWord 0x19#6 rd ra imm)
  | .jmpl off => some (jumpWord 0x1A#6 off)
  | .jmpr rd ra => some (baseWord 0x1B#6 rd ra 0#5 0#11)
  | .fadd rd ra rb rm single => some (fpuWord rd ra rb 0#5 rm.code single)
  | .fsub rd ra rb rm single => some (fpuWord rd ra rb 1#5 rm.code single)
  | .fmul rd ra rb rm single => some (fpuWord rd ra rb 2#5 rm.code single)
  | .fdiv rd ra rb rm single => some (fpuWord rd ra rb 3#5 rm.code single)
  | .fsqrt rd ra rm single => some (fpuWord rd ra 0#5 4#5 rm.code single)
  | .fminIeee rd ra rb single => some (fpuWord rd ra rb 5#5 0#3 single)
  | .fminNum rd ra rb single => some (fpuWord rd ra rb 5#5 1#3 single)
  | .fmaxIeee rd ra rb single => some (fpuWord rd ra rb 6#5 0#3 single)
  | .fmaxNum rd ra rb single => some (fpuWord rd ra rb 6#5 1#3 single)
  | .fcmpEq rd ra rb single => some (fpuWord rd ra rb 7#5 0#3 single)
  | .fcmpLt rd ra rb single => some (fpuWord rd ra rb 7#5 1#3 single)
  | .fcmpLe rd ra rb single => some (fpuWord rd ra rb 7#5 2#3 single)
  | .fcmpUn rd ra rb single => some (fpuWord rd ra rb 7#5 3#3 single)
  | .fcvtFf rd ra rm single => some (fpuWord rd ra 0#5 8#5 rm.code single)
  | .fcvtFromi rd ra rm single => some (fpuWord rd ra 1#5 8#5 rm.code single)
  | .fcvtFromn rd ra rm single => some (fpuWord rd ra 2#5 8#5 rm.code single)
  | .fcvtToi rd ra rm single => some (fpuWord rd ra 3#5 8#5 rm.code single)
  | .fcvtTon rd ra rm single => some (fpuWord rd ra 4#5 8#5 rm.code single)
  | .fcvtInt rd ra rm single => some (fpuWord rd ra 5#5 8#5 rm.code single)
  | .fmovMov rd ra single => some (fpuWord rd ra 0#5 9#5 0#3 single)
  | .fmovFromx rd ra single => some (fpuWord rd ra 0#5 9#5 1#3 single)
  | .fmovTox rd ra single => some (fpuWord rd ra 0#5 9#5 2#3 single)
  | .fmovNeg rd ra single => some (fpuWord rd ra 0#5 9#5 3#3 single)
  | .fmovAbs rd ra single => some (fpuWord rd ra 0#5 9#5 4#3 single)
  | .fmovCpys rd ra rb single => some (fpuWord rd ra rb 9#5 5#3 single)
  | .fclass rd ra single => some (fpuWord rd ra 0#5 10#5 0#3 single)
  | .ffma rd ra rb rc rm single => some (ffmaWord rd ra rb rc rm.code single)
  | .fld rd ra imm => some (immWord 0x1E#6 rd ra imm)
  | .fst rd ra imm => some (immWord 0x1F#6 rd ra imm)
  | .atomSwap rd ra rb scope word32 => some (baseWord 0x20#6 rd ra rb (0#3 ++ scope.code ++ BitVec.ofBool word32 ++ 0#4))
  | .atomAdd rd ra rb scope word32 => some (baseWord 0x20#6 rd ra rb (0#3 ++ scope.code ++ BitVec.ofBool word32 ++ 1#4))
  | .atomAnd rd ra rb scope word32 => some (baseWord 0x20#6 rd ra rb (0#3 ++ scope.code ++ BitVec.ofBool word32 ++ 2#4))
  | .atomOr rd ra rb scope word32 => some (baseWord 0x20#6 rd ra rb (0#3 ++ scope.code ++ BitVec.ofBool word32 ++ 3#4))
  | .atomXor rd ra rb scope word32 => some (baseWord 0x20#6 rd ra rb (0#3 ++ scope.code ++ BitVec.ofBool word32 ++ 4#4))
  | .atomMin rd ra rb scope word32 => some (baseWord 0x20#6 rd ra rb (0#3 ++ scope.code ++ BitVec.ofBool word32 ++ 5#4))
  | .atomMax rd ra rb scope word32 => some (baseWord 0x20#6 rd ra rb (0#3 ++ scope.code ++ BitVec.ofBool word32 ++ 6#4))
  | .atomMinn rd ra rb scope word32 => some (baseWord 0x20#6 rd ra rb (0#3 ++ scope.code ++ BitVec.ofBool word32 ++ 7#4))
  | .atomMaxn rd ra rb scope word32 => some (baseWord 0x20#6 rd ra rb (0#3 ++ scope.code ++ BitVec.ofBool word32 ++ 8#4))
  | .atomCas rd ra rb scope word32 => some (baseWord 0x20#6 rd ra rb (0#3 ++ scope.code ++ BitVec.ofBool word32 ++ 9#4))
  | .fence scope => some (baseWord 0x22#6 0#5 0#5 0#5 (0#8 ++ scope.code))
  | .sysr rd num => some (immWord 0x28#6 rd 0#5 num)
  | .sysw rd num => some (immWord 0x29#6 rd 0#5 num)
  | .trap imm => some (immWord 0x2A#6 0#5 0#5 imm)
  | .tret => some (baseWord 0x2B#6 0#5 0#5 0#5 0#11)
  | .wfe => some (baseWord 0x2C#6 0#5 0#5 0#5 0#11)
  | .svc imm => some (immWord 0x2D#6 0#5 0#5 imm)
  | .gload rd ra entry => some (baseWord 0x30#6 rd ra 0#5 (0#10 ++ BitVec.ofBool entry))
  | .inj rd ra rb new fen => some (baseWord 0x31#6 rd ra rb (0#9 ++ BitVec.ofBool new ++ BitVec.ofBool fen))
  | .snkpop rd rb wait => some (baseWord 0x32#6 rd 0#5 rb (0#10 ++ BitVec.ofBool wait))
  | .freeze rd => some (baseWord 0x33#6 rd 0#5 0#5 0#11)
  | .scan rd ra => some (baseWord 0x34#6 rd ra 0#5 0#11)
  | .restore rd ra => some (baseWord 0x35#6 rd ra 0#5 0#11)
  | .opwr rd ra rb => some (baseWord 0x36#6 rd ra rb 0x000#11)
  | .diagstHbm rd ra rb => some (baseWord 0x37#6 rd ra rb 0x000#11)
  | .diagstBank rd ra rb => some (baseWord 0x37#6 rd ra rb 0x001#11)
  | .diagstSp rd ra rb => some (baseWord 0x37#6 rd ra rb 0x002#11)
  | .thaw rd => some (baseWord 0x38#6 rd 0#5 0#5 0#11)
  | .pass .. | .const .. | .dup .. | .route .. | .steer .. | .gate .. | .sel .. | .join .. | .drop .. | .sink ..
  | .src .. | .tagx .. | .ctxEnter .. | .ctxNext .. | .ctxExit .. | .invSet .. | .invGet .. | .flagsGet ..
  | .flagsClr .. | .sadd .. | .ssub .. | .smul .. | .smad .. | .scmp .. | .slog .. | .sshf .. | .sminmax ..
  | .pfence .. | .splice .. | .cmpx .. | .mark .. | .vadd .. | .vsub .. | .vmul .. | .vfma .. | .vfms ..
  | .vdiv .. | .vsqrt .. | .vrsqrt .. | .vmin .. | .vmax .. | .vminn .. | .vmaxn .. | .vabs .. | .vneg ..
  | .vcpys .. | .vscale .. | .vrnd .. | .vclass .. | .vcmp .. | .vcvt .. | .vsplit .. | .vexp .. | .vexpm1 ..
  | .vlog .. | .vlog1p .. | .verf .. | .verfc .. | .vexp2 .. | .vlog2 .. | .viadd .. | .visub .. | .vimul ..
  | .vimulh .. | .vimad .. | .vimin .. | .vimax .. | .vicmp .. | .vand .. | .vor .. | .vxor .. | .vshl ..
  | .vshr .. | .vsar .. | .vpopc .. | .vclz .. | .vbcast .. | .vsel .. | .vperm .. | .vtrans .. | .viota ..
  | .vextr .. | .vins .. | .vslice .. | .vreduce .. | .vscan .. | .vcompr .. | .vexpnd .. | .vrng ..
  | .vquant .. | .vdeq .. | .mma .. | .mmaSp .. | .mwload .. | .maccRd .. | .maccWr .. | .maccClr ..
  | .mouter .. | .msort .. | .mtopk .. | .mmerge .. | .mtrans .. | .scopy .. | .sarm .. | .sfire .. | .schain ..
  | .sdisarm .. | .sempty .. | .sfill .. | .sgen .. | .sorder .. | .scancel .. | .ld .. | .st .. | .ldi ..
  | .sti .. | .lds .. | .sts .. | .portLdw .. | .portStw .. | .pref .. | .mresume .. | .mstart .. | .mmode ..
  | .bld .. | .bst .. | .bankAtom .. | .acas .. | .red .. | .rflush .. | .bupd .. | .fget .. | .fput ..
  | .fclr .. | .qinit .. | .qpush .. | .qpop .. | .wait .. | .wake .. | .bcall .. | .pbar .. | .pbcast ..
  | .predOpen .. | .predPut .. | .pcorr .. | .tred .. | .crewNew .. | .crewJoin .. | .crewLeave ..
  | .crewFree .. | .ptime .. | .pquiet .. | .psig .. | .lput .. | .lget .. | .latom .. | .lsend .. | .lrecv ..
  | .lfence .. | .packageReset .. | .asyncCauseDelivery .. | .timerEvent .. | .wfeWake .. | .snkpopWaitResume ..
  | .injColourResume .. | .hwakeWrite .. | .htimecmpWrite .. | .registerWrite .. | .launchPeek ..
  | .launchCommit .. | .launchRelease .. | .effectivePriorityAging .. | .allocReq .. | .allocFree ..
  | .spanmapBind .. | .spanmapUnbind .. | .twinPair .. | .twinUnpair .. | .tctlClr .. | .leakthrWrite ..
  | .prtabLoad .. | .hrtabLoad .. | .tlbinvPage .. | .tlbinvAsid .. | .tlbinvAll | .kcmdRereadKey ..
  | .kcmdRevoke .. | .kcmdRereadConn .. | .msggo .. | .msgack | .hostMessageArrival | .opreqWrite ..
  | .operatingPointChange .. | .hostRead .. | .hostWrite .. | .cxlSnoop .. | .getId | .getMeas .. | .writeFw ..
  | .packetRouting .. | .configPacketHop .. | .tokenArrival .. | .tilePacketDelivery ..
  | .ejectionWaitPlacement .. | .matchOverflow .. | .tileOperandReady .. | .firingDispatch ..
  | .colourAllocation .. | .irrevocableHandshake .. | .flagUpdate .. | .frameRequest .. | .purgeRequest ..
  | .purgeEffect .. | .quarantineExpiry .. | .replay .. | .activationFailEffect .. | .sinkRingEntry ..
  | .spliceReplacement .. | .spliceTimeLimit .. | .markerArrival .. | .srcStreamEmit .. | .cmpxDigestArrival ..
  | .cmpxTimeout .. | .freezeEffect .. | .thawEffect .. | .spanSignalRelay .. | .quadLineStateQuery ..
  | .quadReadServe .. | .stencilQueueIssue .. | .streamTileStep .. | .ringTileStep .. | .retainedRingStep ..
  | .portRequestAccept .. | .generatorStart .. | .elementPerform .. | .waveAccessPerform .. | .readAhead ..
  | .bankRequestAccept .. | .combiningEntryApply .. | .waiterLimitExpiry .. | .routineFetch .. | .nackRetry ..
  | .memberIndexLookup .. | .rootSignalTake .. | .roundRelease .. | .reductionNoticeLanding ..
  | .deadlineEvaluation .. | .lateContribution .. | .finalPacket .. | .resultLanding .. | .ptimeExpiry ..
  | .markerSignalEffect .. | .snapshotComplete .. | .snapshotTimeout .. | .censusTick .. | .pquietWaitEmit ..
  | .deadlock .. | .wdog .. | .incomingRemoteAccess .. | .incomingSend .. | .linkWaitLimitExpiry ..
  | .scewenFlitReceive .. | .slotSync .. | .scewenPortDown .. | .ethernetRetransmit .. | .telemetryUpdate ..
  | .thermalClamp .. | .thermalShutdown .. | .clusterFailing .. | .illegalEncoding .. | .memoryFailure ..
  | .ethernetPortDown .. | .linkResponseArrival .. => none

/-! ### Bytes in memory -/

/-- Decode the Hawk word at the head of a byte list. -/
def decodeHawkBytes : List Byte → Except Reject (Instr × List Byte)
  | b0 :: b1 :: b2 :: b3 :: rest => (decodeHawk (b3 ++ b2 ++ b1 ++ b0)).map (·, rest)
  | _ => .error .short

/-- Decode the operator word at the head of a byte list. -/
noncomputable def decodeOpBytes (bs : List Byte) : Except Reject (Instr × List Byte) :=
  if bs.length < 16 then .error .short
  else (decodeOp (BitVec.ofNat 128 (natLE (bs.take 16)))).map (·, bs.drop 16)

/-- The words of a well-formed instruction as they stand in memory; a device event has none. -/
def encode (i : Instr) : Option (List Byte) :=
  match encodeHawk i with
  | some w => some (bytesLE 4 w.toNat)
  | none => (encodeOp i).map fun w => bytesLE 16 w.toNat

/-- The decoder on a word of the opcode table: 32 bits hold a Hawk word and 128 bits an operator word. -/
noncomputable def decodeTableWord (nbits w : Nat) : Option Instr :=
  if nbits = 0 then none
  else if nbits ≤ 32 then (decodeHawkBytes (bytesLE 4 w)).toOption.map (·.1)
  else (decodeOpBytes (bytesLE 16 w)).toOption.map (·.1)

end Sys2Proof
end

