-- ==== Sys2Proof/Config.lean ====
section
/-! DEFINITION. What an installation fixes and what the spec leaves open: constants without a body, so that no proof can
see their values. Each is named in notes/assumptions. -/

namespace Sys2Proof.Config

/-- Which of the enabled moves comes next, by the step counter (notes/assumptions/1.md). -/
opaque pick : Nat → Nat

/-- A free value of w bits for a place the spec leaves open, by the step counter (notes/assumptions/8.md). -/
opaque free : Nat → Nat

/-- What a scratchpad word's check bits, set by DIAGST to differ from those of its data by a pattern, report: 0 nothing,
1 a corrected error, anything else an uncorrectable one. The spec gives no code for scratchpad words
(notes/assumptions/10.md). -/
opaque scratchCheck : BitVec 8 → Nat

/-- The check bits of a scratchpad word. The spec gives no code for scratchpad words (notes/assumptions/10.md). -/
opaque scratchCode : BitVec 64 → BitVec 8

/-- Whether the rates that a graph image declares keep every buffer within its depth: the spec names the check and gives
no formula (01 R40; notes/assumptions/11.md). -/
opaque ratesBalance : List Byte → Bool

/-- Whether the bank that holds a routine has a forward slot free for its fetch, by the step counter (01 R29;
notes/assumptions/119.md). -/
opaque forwardFree : Nat → Bool

/-- This package's DEST: domain in bits 20..12, torus X in 11..8, Y in 7..4, Z in 3..0 (12 R399; fixed by the
installation, notes/assumptions/5.md). -/
opaque dest : BitVec 21

/-- Sizes of the torus dimensions minus one: X in bits 11..8, Y in 7..4, Z in 3..0 (13 R425). -/
opaque torus : BitVec 12

/-- Whether a DEST names a package of the system (12 R399). -/
opaque isPackage : BitVec 21 → Bool

/-- Whether packets for a package travel the − way around the first torus dimension in which it differs; the spec fixes
the order of the dimensions and not the way around each (01 R33; notes/assumptions/8.md). -/
opaque torusMinus : BitVec 12 → Bool

/-- Whether another package of the domain accepts a SPANMAP entry (01 R32): the peer's state lies outside this package. -/
opaque spanAccepts : BitVec 64 → Bool

/-- What the member packages of a spanning region report for its census of a tick: whether any part is busy, and their
internal parked and external waits (01 R32, 11 R377; notes/assumptions/124.md). -/
opaque memberBusy : Nat → Nat → Bool
opaque memberParked : Nat → Nat → Nat
opaque memberExternal : Nat → Nat → Nat

/-- The vendor public key as its 97-byte uncompressed point, the hash fused at manufacture, the device identity key, the
nonces that its signatures draw, and the certificate chain (13 R417, R418; notes/assumptions/9.md). -/
opaque vendorKey : List Byte
opaque vendorKeyHash : List Byte
opaque deviceKey : Nat
opaque signNonce : List Byte → Nat → Nat
opaque certificates : List Byte

/-- Whether the host has enabled viral in its CXL control register (12 R388). -/
opaque hostViral : Bool

/-- The module form of this part: 0 bare package, 1 module (13 R425). -/
opaque form : BitVec 8

/-- The eight bytes of a TWIN_MISMATCH record that stand for a digest; the spec names what a digest covers and not how
its eight bytes are formed (05 R170, R179; notes/assumptions/8.md). -/
opaque digest8 : Nat → BitVec 64

end Sys2Proof.Config
end

