-- ==== Sys2Proof/Machine/Flags.lean ====
section
/-! DEFINITION. Number formats, rounding and the exception flags (03 R88 to R94; 06 R189 to R201): exact arithmetic on
dyadic values, one rounding function, and every flag computation the spec gives. Element bits are natural numbers. -/

namespace Sys2Proof.Machine

/-! ### Flags (R94, R95): SAT NV DZ OF UF NX, bits 5 to 0 -/

abbrev Flags := BitVec 6
def fNX : Flags := 1
def fUF : Flags := 2
def fOF : Flags := 4
def fDZ : Flags := 8
def fNV : Flags := 16
def fSAT : Flags := 32

/-! ### Floating formats (R89) -/

/-- The three ways a format treats its top codes: infinities and NaNs, one NaN code (e4m3), or neither (E2M1). -/
inductive Top where
  | ieee | oneNan | plain
  deriving DecidableEq, Repr

structure FP where
  ebits : Nat
  mbits : Nat
  bias : Int
  top : Top
  deriving DecidableEq, Repr

def fpF16 : FP := ⟨5, 10, 15, .ieee⟩
def fpBf16 : FP := ⟨8, 7, 127, .ieee⟩
def fpF32 : FP := ⟨8, 23, 127, .ieee⟩
def fpF64 : FP := ⟨11, 52, 1023, .ieee⟩
def fpE5m2 : FP := ⟨5, 2, 15, .ieee⟩
def fpE4m3 : FP := ⟨4, 3, 7, .oneNan⟩
def fpE2m1 : FP := ⟨2, 1, 1, .plain⟩

/-- The layout of a floating format, and of the elements of mx8 (e4m3) and mx4 (E2M1). -/
def fpOf : Fmt → Option FP
  | .f16 => some fpF16 | .bf16 => some fpBf16 | .f32 => some fpF32 | .f64 => some fpF64
  | .e5m2 => some fpE5m2 | .e4m3 => some fpE4m3 | .mx8 => some fpE4m3 | .mx4 => some fpE2m1
  | .raw | .i8 | .i16 | .i32 | .i64 | .n8 | .n16 | .n32 | .n64 | .b1 => none

def FP.width (p : FP) : Nat := 1 + p.ebits + p.mbits
def FP.emin (p : FP) : Int := 1 - p.bias
/-- The exponent of the largest finite value. -/
def FP.emax (p : FP) : Int :=
  match p.top with
  | .ieee => p.bias
  | .oneNan | .plain => (2 ^ p.ebits - 1 : Nat) - p.bias
/-- The significand of the largest finite value. -/
def FP.maxSig (p : FP) : Nat :=
  match p.top with
  | .oneNan => 2 ^ (p.mbits + 1) - 2
  | .ieee | .plain => 2 ^ (p.mbits + 1) - 1
def FP.signBit (p : FP) (s : Bool) : Nat := if s then 2 ^ (p.ebits + p.mbits) else 0

/-- A value: a NaN with its trailing significand aligned to 52 bits, an infinity, or (-1)^s m 2^e. -/
inductive Val where
  | nan (s : Bool) (frac : Nat) (signalling : Bool)
  | inf (s : Bool)
  | fin (s : Bool) (m : Nat) (e : Int)
  deriving DecidableEq, Repr

def unpack (p : FP) (bits : Nat) : Val :=
  let s := (bits >>> (p.ebits + p.mbits)) % 2 == 1
  let ef := (bits >>> p.mbits) % 2 ^ p.ebits
  let mf := bits % 2 ^ p.mbits
  let fin := if ef = 0 then Val.fin s mf (p.emin - p.mbits)
             else Val.fin s (2 ^ p.mbits + mf) ((ef : Int) - p.bias - p.mbits)
  if ef = 2 ^ p.ebits - 1 then
    match p.top with
    | .ieee => if mf = 0 then .inf s else .nan s (mf * 2 ^ (52 - p.mbits)) (decide (mf < 2 ^ (p.mbits - 1)))
    | .oneNan => if mf = 2 ^ p.mbits - 1 then .nan s (mf * 2 ^ (52 - p.mbits)) false else fin
    | .plain => fin
  else fin

/-- The default NaN (R90). -/
def defaultNan (p : FP) : Nat :=
  match p.top with
  | .oneNan => 2 ^ (p.ebits + p.mbits) - 1
  | .ieee | .plain => (2 ^ p.ebits - 1) * 2 ^ p.mbits + 2 ^ (p.mbits - 1)

/-- A NaN converted into a format: sign and leading bits kept, quiet bit set (R90). -/
def packNan (p : FP) (s : Bool) (frac : Nat) : Nat :=
  match p.top with
  | .oneNan => p.signBit s + (2 ^ (p.ebits + p.mbits) - 1)
  | .ieee | .plain =>
    p.signBit s + (2 ^ p.ebits - 1) * 2 ^ p.mbits + (frac / 2 ^ (52 - p.mbits)) ||| 2 ^ (p.mbits - 1)

def packInf (p : FP) (s : Bool) : Nat := p.signBit s + (2 ^ p.ebits - 1) * 2 ^ p.mbits
def packZero (p : FP) (s : Bool) : Nat := p.signBit s

/-- A finite value whose significand fits: m below 2^(mbits+1), and e the subnormal quantum when m is below 2^mbits. -/
def packFinite (p : FP) (s : Bool) (m : Nat) (e : Int) : Nat :=
  if m < 2 ^ p.mbits then p.signBit s + m
  else p.signBit s + (e + p.mbits + p.bias).toNat * 2 ^ p.mbits + (m - 2 ^ p.mbits)

def packMax (p : FP) (s : Bool) : Nat := packFinite p s p.maxSig (p.emax - p.mbits)

/-! ### Rounding (R92, R93) -/

/-- The number of bits of a natural number. -/
def bitLen (n : Nat) : Nat := if n = 0 then 0 else n.log2 + 1

/-- Whether a magnitude with quotient lo and remainder rem below 2^k (k at least 1), and something below that when
sticky, rounds up. rnd holds the 32 random bits of RST. -/
def roundsUp (mode : Rnd) (s : Bool) (rnd lo rem k : Nat) (sticky : Bool) : Bool :=
  let inexact := rem != 0 || sticky
  let half := 2 ^ (k - 1)
  match mode with
  | .rne | .dyn => decide (half < rem) || (rem == half && (sticky || lo % 2 == 1))
  | .rna => decide (half ≤ rem)
  | .rtz => false
  | .rup => !s && inexact
  | .rdn => s && inexact
  | .rst => inexact && decide (2 ^ 32 ≤ rem * 2 ^ 32 / 2 ^ k + rnd)

/-- m 2^e (and a little more when sticky) rounded to a multiple of 2^q: the multiple and whether it is inexact. -/
def roundTo (mode : Rnd) (s : Bool) (rnd m : Nat) (e : Int) (sticky : Bool) (q : Int) : Nat × Bool :=
  if q ≤ e then
    if sticky then (m * 2 ^ (e - q).toNat + (if roundsUp mode s rnd m 0 1 true then 1 else 0), true)
    else (m * 2 ^ (e - q).toNat, false)
  else
    let k := (q - e).toNat
    let lo := m / 2 ^ k
    let rem := m % 2 ^ k
    (if roundsUp mode s rnd lo rem k sticky then lo + 1 else lo, rem != 0 || sticky)

/-- Compare m1 2^e1 with m2 2^e2. -/
def cmpMag (m1 : Nat) (e1 : Int) (m2 : Nat) (e2 : Int) : Ordering :=
  if e1 ≤ e2 then compare m1 (m2 * 2 ^ (e2 - e1).toNat) else compare (m1 * 2 ^ (e1 - e2).toNat) m2

/-- The result of an overflow (R91, R93): toInf says that the mode gives an infinity. SAT is raised where FLG.SAT
replaces that infinity (06 R190); notes/assumptions/13.md. The clip of an E2M1 element raises SAT and NX only (06 R218). -/
def overflow (p : FP) (sat toInf s : Bool) : Nat × Flags :=
  match p.top with
  | .plain => (packMax p s, if toInf then fNX ||| fSAT else fNX)
  | .ieee | .oneNan =>
    if toInf then
      if sat then (packMax p s, fOF ||| fNX ||| fSAT)
      else if p.top = .oneNan then (packNan p s 0, fNV ||| fOF ||| fNX)
      else (packInf p s, fOF ||| fNX)
    else (packMax p s, fOF ||| fNX)

/-- Round (-1)^s m 2^e, with something below the last bit when sticky, into a format, and the flags it raises (R92 to
R94, 06 R190). Tininess is detected after rounding with an unbounded exponent. -/
def roundPack (p : FP) (mode : Rnd) (sat : Bool) (rnd : Nat) (s : Bool) (m : Nat) (e : Int) (sticky : Bool) :
    Nat × Flags :=
  if m = 0 && !sticky then (packZero p s, 0)
  else
    let top : Int := bitLen m + e
    let qn : Int := top - 1 - p.mbits
    let qsub : Int := p.emin - p.mbits
    let q := max qn qsub
    let r := roundTo mode s rnd m e sticky q
    let big := decide (cmpMag r.1 q p.maxSig (p.emax - p.mbits) = .gt)
    let aboveMax := decide (cmpMag m e p.maxSig (p.emax - p.mbits) = .gt) ||
      (sticky && decide (cmpMag m e p.maxSig (p.emax - p.mbits) = .eq))
    if mode = .rst then
      if aboveMax then
        -- m0 is the largest finite magnitude and m1 is 2^(emax+1) (R92)
        let sc : Int := min e (p.emax - p.mbits)
        let x := m * 2 ^ (e - sc).toNat
        let m0 := p.maxSig * 2 ^ (p.emax - p.mbits - sc).toNat
        let m1 := 2 ^ (p.emax + 1 - sc).toNat
        let t := (x - m0) * 2 ^ 32 / (m1 - m0)
        -- with an unbounded exponent the next magnitude has the significand maxSig + 1: from there on x overflows (R93)
        let past := decide (cmpMag m e (p.maxSig + 1) (p.emax - p.mbits) ≠ .lt)
        if 2 ^ 32 ≤ t + rnd then overflow p sat true s else if past then overflow p sat false s else (packMax p s, fNX)
      else finish r qn q
    else if big then
      overflow p sat (match mode with
        | .rne | .rna | .dyn | .rst => true
        | .rtz => false
        | .rup => !s
        | .rdn => s) s
    else finish r qn q
where
  /-- Deliver the rounded magnitude, with UF for a tiny inexact result and NX for an inexact one. -/
  finish (r : Nat × Bool) (qn q : Int) : Nat × Flags :=
    let unbounded := roundTo mode s rnd m e sticky qn
    let tiny := decide (cmpMag unbounded.1 qn 1 p.emin = .lt)
    let fl := if r.2 then (if tiny then fNX ||| fUF else fNX) else 0
    if r.1 < 2 ^ (p.mbits + 1) then (packFinite p s r.1 q, fl) else (packFinite p s (r.1 / 2) (q + 1), fl)

/-- The NaN that an operation returns: the first NaN among the operands, quieted, or the default NaN (06 R189), with NV
when some operand is signalling. -/
def nanResult (p : FP) (ops : List Val) : Nat × Flags :=
  let nv : Flags := if ops.any (fun v => match v with | .nan _ _ sg => sg | _ => false) then fNV else 0
  match ops.find? (fun v => match v with | .nan .. => true | _ => false) with
  | some (.nan s frac _) => (packNan p s frac, nv)
  | _ => (defaultNan p, nv)

def Val.isNan : Val → Bool
  | .nan .. => true
  | _ => false

def Val.isSignalling : Val → Bool
  | .nan _ _ sg => sg
  | _ => false

def Val.sign : Val → Bool
  | .nan s _ _ | .inf s | .fin s _ _ => s

def Val.neg : Val → Val
  | .nan s f g => .nan (!s) f g
  | .inf s => .inf (!s)
  | .fin s m e => .fin (!s) m e

/-- The default NaN with NV: an invalid operation. -/
def invalid (p : FP) : Nat × Flags := (defaultNan p, fNV)

/-- Round a finite value or deliver an infinity; a zero keeps its sign. -/
def deliver (p : FP) (mode : Rnd) (sat : Bool) (rnd : Nat) : Val → Nat × Flags
  | .nan s f g => nanResult p [.nan s f g]
  | .inf s => (packInf p s, 0)
  | .fin s m e => roundPack p mode sat rnd s m e false

/-! ### Arithmetic (06 R193, R196, R197; 04 R140) -/

/-- The exact sum of two finite values; an exact zero of opposite signs is +0, or -0 under RDN (R190). -/
def exactAdd (mode : Rnd) (s1 : Bool) (m1 : Nat) (e1 : Int) (s2 : Bool) (m2 : Nat) (e2 : Int) : Bool × Nat × Int :=
  let e := min e1 e2
  let a : Int := m1 * 2 ^ (e1 - e).toNat
  let b : Int := m2 * 2 ^ (e2 - e).toNat
  let x : Int := (if s1 then -a else a) + (if s2 then -b else b)
  if x = 0 then (if s1 = s2 then s1 else mode = .rdn, 0, e) else (decide (x < 0), x.natAbs, e)

def fpAdd (p : FP) (mode : Rnd) (sat : Bool) (rnd : Nat) (a b : Val) : Nat × Flags :=
  match a, b with
  | .fin s1 m1 e1, .fin s2 m2 e2 =>
    let r := exactAdd mode s1 m1 e1 s2 m2 e2
    roundPack p mode sat rnd r.1 r.2.1 r.2.2 false
  | .inf s1, .inf s2 => if s1 = s2 then (packInf p s1, 0) else invalid p
  | .inf s, .fin .. | .fin .., .inf s => (packInf p s, 0)
  | a, b => nanResult p [a, b]

/-- Subtraction: b negated, but a NaN b keeps its own sign. -/
def fpSub (p : FP) (mode : Rnd) (sat : Bool) (rnd : Nat) (a b : Val) : Nat × Flags :=
  if b.isNan then fpAdd p mode sat rnd a b else fpAdd p mode sat rnd a b.neg

def fpMul (p : FP) (mode : Rnd) (sat : Bool) (rnd : Nat) (a b : Val) : Nat × Flags :=
  match a, b with
  | .fin s1 m1 e1, .fin s2 m2 e2 => roundPack p mode sat rnd (s1 != s2) (m1 * m2) (e1 + e2) false
  | .inf s1, .inf s2 => (packInf p (s1 != s2), 0)
  | .inf s1, .fin s2 m _ | .fin s2 m _, .inf s1 => if m = 0 then invalid p else (packInf p (s1 != s2), 0)
  | a, b => nanResult p [a, b]

def fpDiv (p : FP) (mode : Rnd) (sat : Bool) (rnd : Nat) (a b : Val) : Nat × Flags :=
  match a, b with
  | .fin s1 m1 e1, .fin s2 m2 e2 =>
    if m2 = 0 then (if m1 = 0 then invalid p else (packInf p (s1 != s2), fDZ))
    else
      let k := 128 + bitLen m2
      let n := m1 * 2 ^ k
      roundPack p mode sat rnd (s1 != s2) (n / m2) (e1 - e2 - k) (n % m2 != 0)
  | .inf _, .inf _ => invalid p
  | .inf s1, .fin s2 _ _ => (packInf p (s1 != s2), 0)
  | .fin s1 _ _, .inf s2 => (packZero p (s1 != s2), 0)
  | a, b => nanResult p [a, b]

/-- The integer square root, bit by bit from bit k - 1 down. -/
def isqrtFrom (n : Nat) : Nat → Nat → Nat
  | 0, r => r
  | k + 1, r => let t := r + 2 ^ k; if t * t ≤ n then isqrtFrom n k t else isqrtFrom n k r

def isqrt (n : Nat) : Nat := isqrtFrom n (bitLen n / 2 + 1) 0

def fpSqrt (p : FP) (mode : Rnd) (sat : Bool) (rnd : Nat) (a : Val) : Nat × Flags :=
  match a with
  | .nan .. => nanResult p [a]
  | .inf s => if s then invalid p else (packInf p false, 0)
  | .fin s m e =>
    if m = 0 then (packZero p s, 0)
    else if s then invalid p
    else
      let k := 256 + (e % 2).toNat
      let n := m * 2 ^ k
      let r := isqrt n
      roundPack p mode sat rnd false r ((e - k) / 2) (r * r != n)

/-- The reciprocal square root (06 R193). -/
def fpRsqrt (p : FP) (mode : Rnd) (sat : Bool) (rnd : Nat) (a : Val) : Nat × Flags :=
  match a with
  | .nan .. => nanResult p [a]
  | .inf s => if s then invalid p else (packZero p false, 0)
  | .fin s m e =>
    if m = 0 then (packInf p s, fDZ)
    else if s then invalid p
    else
      -- with e + d even, 1 / Sqrt (m 2^e) = 2^(-(e + d)/2 - k) Sqrt (2^(2k + d) / m)
      let d := (e % 2).toNat
      let k := 256 + bitLen m
      let n := 2 ^ (2 * k + d)
      let r := isqrt (n / m)
      roundPack p mode sat rnd false r (-((e + d) / 2) - k) (r * r * m != n)

/-- Fused multiply-add with one rounding; infinity times zero raises NV even when c is a quiet NaN. -/
def fpFma (p : FP) (mode : Rnd) (sat : Bool) (rnd : Nat) (a b c : Val) : Nat × Flags :=
  let infZero := match a, b with
    | .inf _, .fin _ 0 _ | .fin _ 0 _, .inf _ => true
    | _, _ => false
  if a.isNan || b.isNan then nanResult p [a, b, c]
  else if infZero then
    if c.isNan then ((nanResult p [c]).1, fNV) else invalid p
  else match a, b, c with
    | .fin s1 m1 e1, .fin s2 m2 e2, .fin s3 m3 e3 =>
      let r := exactAdd mode (s1 != s2) (m1 * m2) (e1 + e2) s3 m3 e3
      roundPack p mode sat rnd r.1 r.2.1 r.2.2 false
    | .fin .., .fin .., .inf s => (packInf p s, 0)
    | a, b, .inf s => if (a.sign != b.sign) = s then (packInf p s, 0) else invalid p
    | _, _, .nan .. => nanResult p [c]
    | a, b, .fin .. => (packInf p (a.sign != b.sign), 0)

/-- a 2^n (06 R196). -/
def fpScale (p : FP) (mode : Rnd) (sat : Bool) (rnd : Nat) (a : Val) (n : Int) : Nat × Flags :=
  match a with
  | .nan .. => nanResult p [a]
  | .inf s => (packInf p s, 0)
  | .fin s m e => if m = 0 then (packZero p s, 0) else
      -- far beyond every format's range the exponent is cut, which changes neither result nor flags
      roundPack p mode sat rnd s m (max (min (e + n) 8192) (-8192)) false

/-- a rounded to an integral value in its own format, and whether it changed (06 R197, 04 R140). -/
def fpIntegral (p : FP) (mode : Rnd) (rnd : Nat) (a : Val) : Nat × Bool × Flags :=
  match a with
  | .nan .. => let r := nanResult p [a]; (r.1, false, r.2)
  | .inf s => (packInf p s, false, 0)
  | .fin s m e =>
    if 0 ≤ e then ((roundPack p .rtz false 0 s m e false).1, false, 0)
    else
      let r := roundTo mode s rnd m e false 0
      ((roundPack p .rtz false 0 s r.1 0 false).1, r.2, 0)

/-! ### Comparison, minimum and maximum (06 R194, R199; 04 R140) -/

/-- The order of two values that are not NaN; the zeros are equal. -/
def cmpVal (a b : Val) : Ordering :=
  match a, b with
  | .inf s1, .inf s2 => if s1 = s2 then .eq else if s1 then .lt else .gt
  | .inf s, _ => if s then .lt else .gt
  | _, .inf s => if s then .gt else .lt
  | .fin s1 m1 e1, .fin s2 m2 e2 =>
    if m1 = 0 && m2 = 0 then .eq
    else if m1 = 0 then (if s2 then .gt else .lt)
    else if m2 = 0 then (if s1 then .lt else .gt)
    else if s1 != s2 then (if s1 then .lt else .gt)
    else if s1 then cmpMag m2 e2 m1 e1 else cmpMag m1 e1 m2 e2
  | _, _ => .eq

/-- a goes before b, -0 before +0. -/
def beforeVal (a b : Val) : Bool :=
  match cmpVal a b with
  | .lt => true
  | .gt => false
  | .eq => a.sign && !b.sign

/-- minimum and maximum of IEEE 754-2019 on bit patterns; a NaN operand gives a NaN. -/
def fpMinMax (p : FP) (isMax : Bool) (x y : Nat) : Nat × Flags :=
  let a := unpack p x
  let b := unpack p y
  if a.isNan || b.isNan then nanResult p [a, b]
  else if isMax then (if beforeVal a b then y else x, 0)
  else (if beforeVal b a then y else x, 0)

/-- minimumNumber and maximumNumber: a number beats a NaN, and a signalling NaN raises NV. -/
def fpMinMaxNum (p : FP) (isMax : Bool) (x y : Nat) : Nat × Flags :=
  let a := unpack p x
  let b := unpack p y
  let nv : Flags := if a.isSignalling || b.isSignalling then fNV else 0
  if a.isNan && b.isNan then nanResult p [a, b]
  else if a.isNan then (y, nv)
  else if b.isNan then (x, nv)
  else ((fpMinMax p isMax x y).1, nv)

/-- The predicates EQ NE LT LE GT GE UN OD (R199) and the NV each raises. -/
def fpCompare (fn : Nat) (a b : Val) : Bool × Flags :=
  let un := a.isNan || b.isNan
  let quietOnly := fn = 0 ∨ fn = 1 ∨ fn = 6 ∨ fn = 7
  let nv : Flags := if a.isSignalling || b.isSignalling || (un && !decide quietOnly) then fNV else 0
  let c := cmpVal a b
  let r := match fn with
    | 0 => !un && c == .eq
    | 1 => un || c != .eq
    | 2 => !un && c == .lt
    | 3 => !un && c != .gt
    | 4 => !un && c == .gt
    | 5 => !un && c != .lt
    | 6 => un
    | _ => !un
  (r, nv)

/-- The class mask of FCLASS and VCLASS (04 R140, 06 R198). -/
def fpClass (p : FP) (bits : Nat) : Nat :=
  match unpack p bits with
  | .nan _ _ sg => if sg then 2 ^ 8 else 2 ^ 9
  | .inf s => if s then 2 ^ 0 else 2 ^ 7
  | .fin s m _ =>
    if m = 0 then (if s then 2 ^ 3 else 2 ^ 4)
    else if m < 2 ^ p.mbits then (if s then 2 ^ 2 else 2 ^ 5)
    else (if s then 2 ^ 1 else 2 ^ 6)

/-! ### Integers and conversions (R88; 06 R200; 04 R140) -/

/-- The value of a bit pattern in an integer format. -/
def intOf (f : Fmt) (bits : Nat) : Int :=
  let w := fmtBits f
  let u := bits % 2 ^ w
  if f.isSigned && decide (2 ^ (w - 1) ≤ u) then (u : Int) - 2 ^ w else u

/-- The bit pattern of an integer modulo 2^w. -/
def intBits (w : Nat) (x : Int) : Nat := (x % 2 ^ w).toNat

def intMin (f : Fmt) : Int := if f.isSigned then -(2 ^ (fmtBits f - 1)) else 0
def intMax (f : Fmt) : Int := if f.isSigned then 2 ^ (fmtBits f - 1) - 1 else 2 ^ fmtBits f - 1

/-- Adjust an exact integer result to its format: clipped with SAT under FLG.SAT, otherwise modulo 2^w (05 R165, 06
R204). -/
def fitInt (f : Fmt) (sat : Bool) (x : Int) : Nat × Flags :=
  let w := fmtBits f
  if x < intMin f then (if sat then (intBits w (intMin f), fSAT) else (intBits w x, 0))
  else if intMax f < x then (if sat then (intBits w (intMax f), fSAT) else (intBits w x, 0))
  else (intBits w x, 0)

/-- A value rounded to an integer format: NaN gives 0 with NV; out of range gives the nearest bound, with SAT under
FLG.SAT and NV otherwise; in range NX when inexact (06 R200, 04 R140). -/
def fpToInt (f : Fmt) (mode : Rnd) (sat : Bool) (rnd : Nat) (a : Val) : Nat × Flags :=
  let w := fmtBits f
  let out : Flags := if sat then fSAT else fNV
  match a with
  | .nan .. => (0, fNV)
  | .inf s => (intBits w (if s then intMin f else intMax f), out)
  | .fin s m e =>
    if 0 ≤ e && decide (64 < bitLen m + e) then (intBits w (if s then intMin f else intMax f), out)
    else
      let r := if 0 ≤ e then (m * 2 ^ e.toNat, false) else roundTo mode s rnd m e false 0
      let x : Int := if s then -r.1 else r.1
      if x < intMin f then (intBits w (intMin f), out)
      else if intMax f < x then (intBits w (intMax f), out)
      else (intBits w x, if r.2 then fNX else 0)

/-- An integer rounded into a floating format. -/
def intToFp (p : FP) (mode : Rnd) (sat : Bool) (rnd : Nat) (x : Int) : Nat × Flags :=
  roundPack p mode sat rnd (decide (x < 0)) x.natAbs 0 false

/-- A floating value converted into another floating format; an infinity into e4m3 gives NaN with NV, or the largest
value with SAT under FLG.SAT (R90, R91). -/
def fpConvert (p : FP) (mode : Rnd) (sat : Bool) (rnd : Nat) (a : Val) : Nat × Flags :=
  match a with
  | .nan .. => nanResult p [a]
  | .inf s =>
    match p.top with
    | .oneNan => if sat then (packMax p s, fSAT) else (packNan p s 0, fNV)
    | .ieee | .plain => (packInf p s, 0)
  | .fin s m e => roundPack p mode sat rnd s m e false

/-- A payload's low bits in a format narrower than 64, extended as R88 says: by sign for i formats, by zero otherwise. -/
def narrow (f : Fmt) (bits : Nat) : Word :=
  match f with
  | .raw => BitVec.ofNat 64 bits
  | _ => if f.isSigned then BitVec.ofInt 64 (intOf f bits) else BitVec.ofNat 64 (bits % 2 ^ fmtBits f)

/-! ### Random bits (06 R216, 03 R92) -/

def rotl64 (x : Word) (n : Nat) : Word := (x <<< n) ||| (x >>> (64 - n))

def genStep : Nat → Word → Word → Word
  | 0, x, _ => x
  | n + 1, x, y =>
    let x := (x + y) * 0xC6D13A8570F3B2E9
    let x := x ^^^ (x >>> 31)
    genStep n x (rotl64 y 17 + 0x8B27E4C95D06F1A3)

/-- Gen(k, c) of R216. -/
def gen (k c : Word) : Word := genStep 6 c k

/-- The stochastic rounding bits of a strand, a node and an element (R216). -/
def counterBits32 (ctx : BitVec 8) (key : BitVec 12) (slot : BitVec 11) (elem : Nat) : Nat :=
  let k : Word := 0xFFFF000000000000 ||| (ctx.setWidth 64 <<< 23) ||| (key.setWidth 64 <<< 11) ||| slot.setWidth 64
  (gen k (BitVec.ofNat 64 elem)).toNat % 2 ^ 32

end Sys2Proof.Machine
end

