-- ==== Sys2Proof/Machine/Tab.lean ====
section
/-! DEFINITION. Sparse tables: lists of (key, value) pairs in one canonical form, keys strictly rising and no entry equal
to what an unlisted key reads as. Memory is a table of bytes. -/

namespace Sys2Proof.Machine

/-- A sparse table over natural keys. -/
abbrev Tab (α : Type) := List (Nat × α)

/-- What key i reads as; d is what an unlisted key reads as. -/
def Tab.get {α : Type} (d : α) : Tab α → Nat → α
  | [], _ => d
  | (k, v) :: t, i => if k = i then v else Tab.get d t i

/-- Put an entry before the first larger key. -/
def Tab.insert {α : Type} (i : Nat) (v : α) : Tab α → Tab α
  | [] => [(i, v)]
  | (k, w) :: t => if i < k then (i, v) :: (k, w) :: t else (k, w) :: Tab.insert i v t

/-- Write v at key i; writing d removes the entry. -/
def Tab.set {α : Type} [DecidableEq α] (d : α) (t : Tab α) (i : Nat) (v : α) : Tab α :=
  let u := t.filter fun e => e.1 != i
  if v = d then u else Tab.insert i v u

/-- Keys strictly rising above a bound, and no entry equal to d. -/
def Tab.wfFrom {α : Type} [DecidableEq α] (d : α) : Nat → Tab α → Bool
  | _, [] => true
  | b, (k, v) :: t => decide (b ≤ k) && decide (v ≠ d) && Tab.wfFrom d (k + 1) t

/-- The canonical form. -/
def Tab.wf {α : Type} [DecidableEq α] (d : α) (t : Tab α) : Bool := Tab.wfFrom d 0 t

/-- Drop every entry whose key lies in [lo, lo + n). -/
def Tab.clear {α : Type} (t : Tab α) (lo n : Nat) : Tab α := t.filter fun e => decide (e.1 < lo) || decide (lo + n ≤ e.1)

/-! ### Byte memory -/

/-- The bytes that are not zero among those written from address a upward, as entries. -/
def Mem.entries : Nat → List (BitVec 8) → Tab (BitVec 8)
  | _, [] => []
  | a, b :: bs => if b = 0 then Mem.entries (a + 1) bs else (a, b) :: Mem.entries (a + 1) bs

/-- One byte; an unlisted address reads as zero (02 R46; for memory outside R46 notes/assumptions/3.md). -/
def Mem.byte (m : Tab (BitVec 8)) (a : Nat) : BitVec 8 := Tab.get 0 m a

/-- n bytes from address a upward. -/
def Mem.read (m : Tab (BitVec 8)) (a n : Nat) : List (BitVec 8) := (List.range n).map fun i => Mem.byte m (a + i)

/-- Write bytes from address a upward. -/
def Mem.write (m : Tab (BitVec 8)) (a : Nat) (bs : List (BitVec 8)) : Tab (BitVec 8) :=
  m.filter (fun e => decide (e.1 < a)) ++ Mem.entries a bs ++ m.filter (fun e => decide (a + bs.length ≤ e.1))

/-- The canonical form of memory. -/
def Memory.wf (m : Tab (BitVec 8)) : Bool := Tab.wf 0 m

end Sys2Proof.Machine
end

