-- ==== Sys2Proof/Machine/State.lean ====
section
/-! DEFINITION. The state of the part, as plain data: Hawk threads, memory, regions, clusters and their engines, ports,
banks, Plumb, links and the Service Engine; the faults and refusals of a step; and the state after reset. -/

namespace Sys2Proof.Machine

/-- A step that stops with a fault. The spec gives every instruction an effect in every state, so the model raises none
of its own; the type has one constructor so that it names what it would mean. -/
inductive Fault where
  /-- Raised by nothing in this model: every meaning answers a next state. Safe. -/
  | stuck
  deriving DecidableEq, Repr

/-- A step that has no meaning. -/
inductive Refusal where
  /-- Raised by an arm of exec whose instruction has no meaning yet, under its mnemonic. Safe: nothing is claimed of it. -/
  | notModelled (mnemonic : String)
  deriving DecidableEq, Repr

/-! ### Tokens and firings -/

/-- A token: the header's fields and the payload (01 R16, R17). -/
structure Tok where
  dst : Dst
  tag : Tag
  kind : Kind
  flag : Flag
  payload : Word
  deriving DecidableEq, Repr

def Flag.none : Flag := { poison := false, irrev := false, keep := false, last := false }
def Dst.none : Dst := { valid := false, port := 0, die := 0, cluster := 0, slot := 0, rwi := 0 }
def Tag.none : Tag := { ctx := 0, col := 0, gen := 0 }
def Tok.none : Tok := { dst := Dst.none, tag := Tag.none, kind := .scalar, flag := Flag.none, payload := 0 }

/-- A firing: its node, its tag, its operands by port, the word and route word it read when it issued (05 R146), and the
dynamic rounding mode its strand held then (03 R95). agent is its place in the matched
order of its cluster (05 R147). -/
structure Firing where
  region : Nat
  cluster : Nat
  slot : BitVec 11
  tag : Tag
  toks : List Tok
  word : Word128
  route : Word128
  rmode : BitVec 3
  stale : Bool
  agent : Nat
  deriving DecidableEq, Repr

def Firing.none : Firing :=
  { region := 0, cluster := 0, slot := 0, tag := Tag.none, toks := [], word := 0, route := 0, rmode := 0,
    stale := false, agent := 0 }

/-! ### Hawk threads (04 R106 to R111) -/

/-- What a blocked instruction waits for (04 R106, R120, R122; 12 R391). -/
inductive Block where
  | none
  /-- SNKPOP.wait on an empty ring: the two destination registers. -/
  | snkpop (rd rb : Reg)
  /-- INJ.new while R19 refuses the allocation: the header's and payload's registers, the destination, and FEN. -/
  | inj (rd ra rb : Reg) (fen : Bool)
  /-- GLOAD.entry while R19 refuses an entry's colour: the entries still to inject. -/
  | entries (rd : Reg) (left : List Tok)
  /-- FREEZE until the region has drained. -/
  | freeze (rd : Reg)
  /-- THAW until its tick. -/
  | thaw (rd : Reg)
  /-- A graph instruction that takes effect after the GLOAD.entry of another thread on its region (04 R116). -/
  | graphTurn
  /-- A store of MSGGO while the device-to-host ring is full. -/
  | msggo
  /-- An access or a fetch that waits for a page: the address. -/
  | page (addr : Word)
  deriving DecidableEq, Repr

/-- An asynchronous cause on its way to a thread: code, region, and the fault-record address that HXVAL takes (R129). -/
structure Cause where
  code : BitVec 8
  region : Nat
  record : Word
  deriving DecidableEq, Repr

structure Thread where
  x : Vector Word 32
  d : Vector Word 32
  pc : Word
  halt : Bool
  wait : Bool
  pie : Bool
  ie : Bool
  pmode : Bool
  mode : Bool
  cause : Word
  xpc : Word
  xval : Word
  vec : Word
  scratch : Word
  flags : BitVec 5
  en : BitVec 5
  rmode : BitVec 3
  timecmp : Word
  timer : Bool
  region : Word
  asid : BitVec 32
  wake : Bool
  block : Block
  pending : List Cause
  faultSeq : BitVec 16
  deriving DecidableEq, Repr

/-- The address of local SRAM, where every thread starts (04 R112, R132). -/
def resetVector : Word := 0xFF00000000000000

/-- A thread after reset (04 R109, R132): thread 0 of each die runs, the others wait. -/
def Thread.reset (waiting : Bool) : Thread :=
  { x := Vector.replicate 32 0, d := Vector.replicate 32 0, pc := resetVector, halt := false, wait := waiting,
    pie := false, ie := false, pmode := true, mode := true, cause := 0, xpc := 0, xval := 0, vec := resetVector,
    scratch := 0, flags := 0, en := 0, rmode := 0, timecmp := 0xFFFFFFFFFFFFFFFF, timer := false, region := 0,
    asid := 0, wake := false, block := .none, pending := [], faultSeq := 0 }

/-! ### Regions, contexts and colours (01 R18 to R24, R31; 04 R116) -/

/-- The four states of a region (R116). -/
inductive RState where
  | free | granted | loaded | frozen
  deriving DecidableEq, Repr

/-- A live colour: its stamp, key colour, parent, frame, successor and counts (01 R22; 04 R123 FRAMES). line is the
number of its spawn line (05 R152), and rmode0 the rounding mode at its creation, which a replay restores (05 R173). -/
structure Colour where
  col : BitVec 12
  gen : BitVec 4
  key : BitVec 12
  parent : Option Tag
  f : Vector Word 7
  flags : BitVec 6
  rmode : BitVec 3
  rmode0 : BitVec 3
  irrev : Bool
  succ : Option Tag
  count : Nat
  exits : Bool
  nexts : Bool
  line : Nat
  deriving DecidableEq, Repr

/-- A replay that waits for its colour (05 R173): its spawn line, parent and rounding mode. -/
structure Waiting where
  line : Nat
  parent : Option Tag
  rmode : BitVec 3
  deriving DecidableEq, Repr

/-- One context as its home cluster keeps it (01 R18, R19; 05 R172). live is in order of age, oldest first; a
quarantined number stands with the unfrozen ticks that remain. -/
structure Ctx where
  declared : Bool
  die : Nat
  home : Nat
  window : Nat
  maxtile : Nat
  ptr : BitVec 12
  gen : BitVec 4
  live : List Colour
  quarantine : List (BitVec 12 × Nat)
  waiting : List Waiting
  deriving DecidableEq, Repr

def Ctx.none : Ctx :=
  { declared := false, die := 0, home := 0, window := 0, maxtile := 0, ptr := 0, gen := 0, live := [],
    quarantine := [], waiting := [] }

/-- A region-wide signal on Plumb (05 R172, R174; 11 R374, R375). -/
inductive Signal where
  /-- A purge of a colour: replayed, or a child purged without a replay. -/
  | purge (tag : Tag) (replay : Bool)
  /-- A purge that reports the activation failed: the reason of R179 and the error code of the tokens sent. -/
  | fail (tag : Tag) (reason : BitVec 8) (code : BitVec 8)
  /-- The marker signal of a PSIG firing, which names its group and epoch. -/
  | marker (firing : Firing)
  deriving DecidableEq, Repr

/-- A configuration packet's contents: the word, whether it is a route word, and the context of the node (03 R104). -/
structure Config where
  word : Word128
  rw : Bool
  ctx : Option (BitVec 8)
  deriving DecidableEq, Repr

/-- A configuration packet on its way along a row (01 R35): the physical column it has reached and its hop count. -/
structure Hop where
  region : Nat
  die : Nat
  row : Nat
  col : Nat
  count : Nat
  slot : BitVec 11
  what : Config
  deriving DecidableEq, Repr

/-- A splice load in progress (05 R167): the splicing cluster, the configuration packets still to send, and the ENTRIES
records still to inject. -/
structure Splice where
  cluster : Nat
  hops : List Hop
  entries : List Tok
  deriving DecidableEq, Repr

/-- What the parts of a region report for the census: whether any is busy, and how many internal parked and external waits
there are (11 R377). -/
structure Reports where
  busy : Bool
  parked : Nat
  external : Nat
  deriving DecidableEq, Repr

/-- A snapshot in progress (11 R375). -/
structure Snapshot where
  group : BitVec 16
  epoch : Word
  /-- The tick of the signal's effect, and the tick after which it has timed out. -/
  start : Nat
  due : Nat
  firing : Firing
  /-- Bytes of records written so far. -/
  used : Nat
  records : Nat
  overflow : Bool
  /-- Nodes that have saved and not yet forwarded: cluster, slot, and the ports whose marker has arrived. -/
  saving : List (Nat × BitVec 11 × BitVec 4)
  /-- Nodes that have forwarded, or are MARK nodes that have saved. -/
  done : List (Nat × BitVec 11)
  deriving DecidableEq, Repr

structure Region where
  state : RState
  handle : Word
  /-- Region die index to physical die of this package; none where the entry is absent or another package's (R31). -/
  dies : List (Option Nat)
  /-- The SPANMAP entries of bound peer regions (01 R32). -/
  span : Tab Word
  /-- This region is a member of another package's spanning region. -/
  member : Bool
  /-- Part of the region is out of reach (SPAN_LOST, 01 R32). -/
  lost : Bool
  owner : Nat
  hsinks : BitVec 32
  sinks : List Tok
  /-- SINK tokens that wait in their routers, in arrival order (04 R121). -/
  sinkWait : List Tok
  /-- Strands that CMPX has purged: context, key colour and key (05 R170). -/
  twinPurges : List (BitVec 8 × BitVec 12 × Word)
  ctxs : Tab Ctx
  /-- Leak counters and their control (05 R175, R176). -/
  stale : BitVec 32
  reclaimed : BitVec 32
  discarded : BitVec 32
  purged : BitVec 32
  replays : BitVec 32
  failed : BitVec 32
  leakThr : BitVec 32
  leakTrap : Bool
  leakArmed : Bool
  /-- FP trap enables of the region (06 R191). -/
  fpTrap : BitVec 6
  /-- The tick on which a freeze takes effect, and the thread that asked (04 R120). -/
  freezeAt : Option Nat
  /-- No firing issues: from the freeze tick to the thaw tick. -/
  stopped : Bool
  frozenAt : Nat
  thawAt : Option Nat
  signals : List (Nat × Signal)
  /-- The latest tick named by a signal that the Link Engine has relayed to the member packages (01 R32). -/
  relayed : Nat
  /-- Twin partner, and whether this region is the primary (05 R169). -/
  twin : Option (Nat × Bool)
  splice : Option Splice
  /-- The address of the latest successor image (05 R179). -/
  imageAt : Word
  /-- The page that a successor image's read waits for: its missing byte, and the tick of the ticket (05 R167). -/
  splicePage : Option (Nat × Nat)
  /-- The contexts of the latest successor image (05 R167). -/
  succs : List (BitVec 8)
  /-- The SCRATCH section that GLOAD or RESTORE loaded (05 R167). -/
  scratch : List Byte
  snapshot : Option Snapshot
  /-- The Plumb block (11 R352). -/
  wdEn : Bool
  wdWin : BitVec 6
  census : BitVec 2
  /-- Internal parked waits of the latest census. -/
  parked : Nat
  parkTicks : BitVec 32
  dlCtl : Bool
  snapBase : Word
  snapLen : BitVec 32
  snapLim : BitVec 6
  /-- The watchdog's window start and whether anything fired or answered in it (11 R380). -/
  wdStart : Nat
  wdSeen : Bool
  /-- The tick of the last firing, and the last tick whose census has been formed. -/
  lastFire : Nat
  censusAt : Nat
  /-- What the parts of the region have reported in ticks whose census the root has not formed yet (11 R377). -/
  reports : List (Nat × Reports)
  deriving DecidableEq, Repr

/-- A free region: counters and registers as a grant leaves them (05 R175, 11 R352). -/
def Region.free : Region :=
  { state := .free, handle := 0, dies := [], span := [], member := false, lost := false, owner := 0,
    hsinks := 0, sinks := [], sinkWait := [], twinPurges := [], ctxs := [], stale := 0, reclaimed := 0, discarded := 0,
    purged := 0, replays := 0, failed := 0, leakThr := 0x10000, leakTrap := true, leakArmed := true, fpTrap := 0,
    freezeAt := none, stopped := false, frozenAt := 0, thawAt := none, signals := [], relayed := 0, twin := none,
    splice := none, imageAt := 0, splicePage := none, succs := [], scratch := [], snapshot := none,
    wdEn := true, wdWin := 30, census := 0, parked := 0, parkTicks := 0, dlCtl := true, snapBase := 0, snapLen := 0, snapLim := 24,
    wdStart := 0, wdSeen := false, lastFire := 0, censusAt := 0, reports := [] }

/-! ### Clusters: operator store, matching store, lines (05 R141 to R152, 02 R47) -/

/-- One slot of the operator store (05 R146), with what the splicing rules keep of its node (01 R38). -/
structure Slot where
  occ : Bool
  rw : Bool
  bad : Bool
  /-- The word's check bits report an uncorrectable error. -/
  broken : Bool
  /-- OPWR wrote the word: its node is checked when it fires (03 R77). -/
  opwr : Bool
  word : Word128
  ctx : Option (BitVec 8)
  /-- The slot has raised the OP_ILLEGAL of R18. -/
  foreign : Bool
  waiting : Option Config
  since : Nat
  blocked : Bool
  last : BitVec 4
  fired : List Tag
  deriving DecidableEq, Repr

def Slot.empty : Slot :=
  { occ := false, rw := false, bad := false, broken := false, opwr := false, word := 0, ctx := none, foreign := false,
    waiting := none, since := 0, blocked := false, last := 0, fired := [] }

/-- Where an entry stands: a way of its set, a place of the overflow buffer, or in neither: a token that bypasses the
store, and a matched firing whose KEEP cells stay in its place (05 R141 to R145). -/
inductive Place where
  | way (n : Nat)
  | over (n : Nat)
  | bypass
  deriving DecidableEq, Repr

/-- What an entry waits for: tokens, lines (01 R27), or the dispatcher. -/
inductive Match where
  | part
  | lines (n : Nat)
  | ready (n : Nat) (stale : Bool)
  /-- Passed over by the dispatcher (R41) in this tick. -/
  | held (n : Nat) (stale : Bool) (tick : Nat)
  /-- Handed to its engine, which has not yet taken it (R145). -/
  | issued (n : Nat) (stale : Bool)
  deriving DecidableEq, Repr

/-- One entry of the matching store (05 R141). -/
structure Entry where
  region : Nat
  slot : BitVec 11
  tag : Tag
  cells : List (Option Tok)
  seq : Nat
  place : Place
  st : Match
  deriving DecidableEq, Repr

/-- One scratchpad line (02 R47, 08 R254). -/
structure Line where
  full : Bool
  gen : BitVec 4
  written : BitVec 4
  deriving DecidableEq, Repr

def Line.empty : Line := { full := false, gen := 0, written := 0 }

/-- A run of lines; for an allocation, ctx names the reservation it uses (05 R150, R151). -/
structure Run where
  first : Nat
  len : Nat
  ctx : Option (BitVec 8)
  deriving DecidableEq, Repr

/-- Bytes that travel with a tile token, and the offsets of its poisoned 8-byte words. -/
structure Payload where
  bytes : List Byte
  bad : List Nat
  deriving DecidableEq, Repr

/-- A token packet (01 R30) between two clusters of a region, or from the Hawk. -/
structure Packet where
  region : Nat
  src : Nat
  dst : Nat
  tok : Tok
  data : Option Payload
  deriving DecidableEq, Repr

/-- A running SRC stream (05 R159). -/
structure Stream where
  firing : Firing
  left : Nat
  next : Word
  deriving DecidableEq, Repr

/-- A waiting CMPX firing (05 R170): its key, digest and the tick it began. -/
structure Cmpx where
  firing : Firing
  key : Word
  digest : Nat
  since : Nat
  deriving DecidableEq, Repr

/-- A digest on its way to the CMPX node at the same relative address of the partner region. -/
structure Digest where
  region : Nat
  die : Nat
  cluster : Nat
  slot : BitVec 11
  ctx : BitVec 8
  key : Word
  digest : Nat
  deriving DecidableEq, Repr

/-! ### Translators and memory ports (09 R287 to R312) -/

/-- A range entry (09 R292); an unused entry has length 0. -/
structure RangeEntry where
  vbase : Word
  len : Word
  pte : Word
  asid : BitVec 32
  deriving DecidableEq, Repr

/-- A TLB entry: the ASID, the page's first byte, and the entry installed (09 R293). -/
structure TlbEntry where
  asid : BitVec 32
  page : Nat
  pte : Word
  deriving DecidableEq, Repr

/-- A translator: range entries in order, and the TLB. -/
structure Xlate where
  ranges : List RangeEntry
  tlb : List TlbEntry
  deriving DecidableEq, Repr

def Xlate.empty : Xlate := { ranges := [], tlb := [] }

/-- One element of a class-4 firing (09 R305): its index, its exact address, its size, and for a store the bytes and
whether they are poisoned. -/
structure Elem where
  ix : Nat
  addr : Int
  size : Nat
  write : Option (List Byte)
  poison : Bool
  deriving DecidableEq, Repr

/-- A firing accepted by a memory port: its result tag, the elements still to perform, what has been read, the lowest
failing element, and how many elements were performed. bytes counts performed bytes. -/
structure Job where
  no : Nat
  firing : Firing
  tag : Tag
  started : Bool
  elems : List Elem
  got : List (Nat × List Byte × Bool)
  fail : Option (Nat × BitVec 8)
  count : Nat
  bytes : Nat
  /-- The fault of the held element, the first of elems: first missing byte, KIND, fault sequence, and whether the ticket
  was escalated. -/
  held : Option (Word × BitVec 4 × BitVec 8 × Bool)
  handshake : Bool
  /-- The range entries that the firing completes against, where a store to PRTAB followed its acceptance (09 R292). -/
  ranges : Option (List RangeEntry)
  deriving DecidableEq, Repr

/-- A wave record (09 R311). -/
structure Wave where
  region : Nat
  tag : Tag
  last : BitVec 8
  lastSucc : BitVec 8
  deriving DecidableEq, Repr

/-- A memory port: registers (09 R289), translator, queues and modes. -/
structure Port where
  en : Bool
  owner : BitVec 7
  copy : Bool
  mode : BitVec 2
  asid : BitVec 32
  pce : BitVec 32
  pue : BitVec 32
  pminor : BitVec 32
  pmajor : BitVec 32
  xlate : Xlate
  incoming : List Job
  queue : List Job
  gens : Tab (Option Job)
  seqs : Tab (BitVec 8)
  waves : List Wave
  waiting : List Job
  range : Option (Word × Word)
  /-- The read-ahead buffer: granule addresses with the bytes read ahead and the difference of their check bits. -/
  ahead : List (Nat × List Byte × BitVec 16)
  /-- The highest demanded byte and the byte up to which the port has read ahead, both virtual. -/
  demand : Nat
  aheadTo : Nat
  /-- Firings accepted so far, and the first missing byte of each ticket the port has sent (09 R300). -/
  accepted : Nat
  tickets : Tab (Option Word)
  deriving DecidableEq, Repr

def Port.reset : Port :=
  { en := false, owner := 0, copy := false, mode := 0, asid := 0, pce := 0, pue := 0, pminor := 0, pmajor := 0,
    xlate := Xlate.empty, incoming := [], queue := [], gens := [], seqs := [], waves := [], waiting := [],
    range := none, ahead := [], demand := 0, aheadTo := 0, accepted := 0, tickets := [] }

/-! ### A die's Hawk core (04 R121, R129; 09 R295, R297) -/

structure Die where
  /-- The fault-record ring: eight 8-byte words a record. -/
  ring : Tab (List Word)
  ringIdx : BitVec 64
  undelivered : Nat
  lost : BitVec 64
  xlate : Xlate
  pmiss : Word
  /-- The first missing byte of each ticket of the Hawk translator (09 R300). -/
  tickets : Tab (Option Word)
  /-- Causes behind the one that a thread of the die has pending, with their threads, in ring order (04 R129). -/
  causes : List (Nat × Cause)
  /-- The thread that comes first in the round robin (04 R106). -/
  first : Nat
  deriving DecidableEq, Repr

def Die.reset : Die :=
  { ring := [], ringIdx := 0, undelivered := 0, lost := 0, xlate := Xlate.empty, pmiss := 0, tickets := [], causes := [], first := 0 }

/-! ### Banks (10 R320 to R345) -/

/-- The hidden mode of a bank word, with the FULL bit of a future (10 R321). -/
inductive BMode where
  | plain
  | future (full : Bool)
  | header
  | slot
  deriving DecidableEq, Repr

/-- The kinds of parked waiters (10 R345). -/
inductive WKind where
  | reader | wait | pusher | popper
  deriving DecidableEq, Repr

/-- A parked waiter of a bank word: the word, the offset of its element in the word, the pool entry it takes, its request's
number, the firing and its result tag, the operand (of a WAIT) or value (of a pusher), the ticks it has waited,
and whether its trap has been raised. -/
structure Waiter where
  word : Nat
  sub : Nat
  no : Nat
  entry : BitVec 8
  kind : WKind
  firing : Firing
  tag : Tag
  operand : Word
  lim : Nat
  err : Bool
  ext : Bool
  eq : Bool
  waited : Nat
  raised : Bool
  deriving DecidableEq, Repr

/-- A request to a bank: its number in the order of issue, the bank that its results leave from, the firing, its result tag,
its source cluster, the NACKs it has received, the elements still to perform, what they have read, the lowest failing
element, and the elements and bytes performed with the flags they raised. -/
structure BankReq where
  no : Nat
  home : Option Nat
  firing : Firing
  tag : Tag
  src : Nat
  nacks : Nat
  elems : List Elem
  got : List (Nat × List Byte × Bool)
  fail : Option (Nat × BitVec 8)
  count : Nat
  bytes : Nat
  flags : BitVec 6
  trapElem : Option Nat
  deriving DecidableEq, Repr

/-- A combining entry (10 R333). -/
structure Combine where
  addr : Nat
  fn : Nat
  fmt : Fmt
  rnd : Rnd
  value : Nat
  parts : List BankReq
  opened : Nat
  deriving DecidableEq, Repr

/-- Results that FLG.ORD holds until the node's earlier requests have sent theirs (03 R71; 10 R326). -/
structure Late where
  no : Nat
  firing : Firing
  toks : List Tok
  data : Option Payload
  deriving DecidableEq, Repr

structure Bank where
  input : List BankReq
  lastSrc : Nat
  combine : List Combine
  late : List Late
  /-- Cached routines: physical address and micro-op words, each with the error its use yields (10 R342). -/
  routines : List (Nat × List (Word × BitVec 8))
  /-- The routine whose fetch another bank has refused: its address, the NACKs, and the tick of the next try (01 R29). -/
  fetch : Option (Nat × Nat × Nat)
  deriving DecidableEq, Repr

def Bank.reset : Bank := { input := [], lastSrc := 0, combine := [], late := [], routines := [], fetch := none }

/-! ### Stencil Copy Engine (08 R256 to R284) -/

/-- One stencil slot: its 128-byte descriptor while armed, its outgoing link 8q + s, and its ring cursor. -/
structure Sten where
  desc : Option (List Byte)
  link : Option Nat
  cursor : BitVec 32
  deriving DecidableEq, Repr

def Sten.empty : Sten := { desc := none, link := none, cursor := 0 }

/-- An element held at a page fault (09 R298; 08 R269): the first missing byte, its ticket, and whether the ticket was
escalated. -/
structure Held where
  addr : Word
  ticket : Word
  escalated : Bool
  deriving DecidableEq, Repr

/-- A pending or issued class-3 firing (08 R256, R284): its acceptance position, the stencil slot it works on, the next
element of that slot, marks sent, elements and bytes performed, tiles sent, the lowest failing element. -/
structure SFiring where
  no : Nat
  firing : Firing
  slot : Nat
  next : Nat
  marks : Nat
  done : Nat
  bytes : Nat
  tiles : Nat
  fail : Option (Nat × BitVec 8)
  cancelled : Bool
  shaken : Bool
  /-- The error token's payload of a firing found in error (08 R255, R261, R273). -/
  error : Option Word
  held : Option Held
  /-- The code that MRESUME has failed the next element with. -/
  failNext : Option (BitVec 8)
  /-- The tile of the tile step under way with the position after its last element, whether it holds poisoned data, and
  its lowest failing element (08 R262, R269). -/
  tile : Option (Word × Nat)
  bad : Bool
  tileFail : Option (Nat × BitVec 8)
  /-- Granules that window writes have touched and not yet marked: cluster × 2 ^ 14 + line, and the mask (08 R254). -/
  marked : List (Nat × BitVec 4)
  /-- Bytes written of a tile destination, by line from its BASE, as a mask (08 R254). -/
  filled : Tab Nat
  /-- The next element has been issued and was held: a cancel does not drop it (08 R279). -/
  begun : Bool
  /-- The stencil its word names sends tiles. -/
  tiled : Bool
  /-- Granules written: address, the step of the first write, and the bytes written, as a mask (08 R281). -/
  wrote : List (Nat × Nat × Nat)
  deriving DecidableEq, Repr

/-- An SORDER note (08 R278): its acceptance position, TO mask, and the noted firings' positions. -/
structure SNote where
  no : Nat
  onto : BitVec 4
  noted : List Nat
  region : Nat
  slot : BitVec 11
  tag : Tag
  deriving DecidableEq, Repr

/-- One stencil queue. -/
structure SQueue where
  pending : List SFiring
  issued : Option SFiring
  deriving DecidableEq, Repr

def SQueue.empty : SQueue := { pending := [], issued := none }

/-- An SCANCEL waiting for its cancelled firings to send their tokens: their positions (08 R279). -/
structure SCancel where
  firing : Firing
  left : List Nat
  deriving DecidableEq, Repr

/-! ### Matrix Engine (07 R221) -/

/-- A weight binding: a dense tile's handle, or a sparse pair's values and metadata handles. -/
inductive Binding where
  | unbound
  | dense (h : Word)
  | sparse (v d : Word)
  deriving DecidableEq, Repr

/-! ### A cluster -/

/-- A token in a cluster's ejection or capture buffer. -/
structure Arrival where
  region : Nat
  src : Nat
  tok : Tok
  data : Option Payload
  /-- Since when it has waited with no entry of its set or of the overflow buffer freed (05 R144). -/
  since : Nat := 0
  deriving DecidableEq, Repr

structure Cluster where
  slots : Tab Slot
  entries : List Entry
  nextSeq : Nat
  arrivals : List Arrival
  capture : List Arrival
  lines : Tab Line
  pool : Option Run
  reserved : List Run
  pinned : List Run
  /-- The spawn area of the contexts homed here (05 R152): one of the pinned areas. -/
  spawn : Option Run
  allocs : List Run
  streams : List Stream
  cmpx : List Cmpx
  ptimes : List (Firing × Nat)
  /-- The context last served, by engine class (05 R147). -/
  lastCtx : Tab Nat
  acc : Tab (BitVec 32)
  /-- Accumulator words that report an uncorrectable error (07 R247), by index of their even element. -/
  accBad : Tab Bool
  w0 : Binding
  w1 : Binding
  /-- Firings that wait for this cluster's pinned lines over the quad link, in order of arrival: the first eight are its
  queue, the others wait issued (07 R241). -/
  quad : List Firing
  /-- The pinned areas of the cluster's quad peers, by peer, as the last load of its region sent them (07 R240). -/
  peers : Tab (List Run)
  sten : Tab Sten
  queues : Tab SQueue
  notes : List SNote
  cancels : List SCancel
  /-- Completed and cancelled firings that have left their queues and not yet sent their last tokens: queue, firing. -/
  finishing : List (Nat × SFiring)
  accepted : Nat
  /-- Sink tokens each SINK node has sent since GLOAD (11 R375). -/
  sunk : Tab Nat
  deriving DecidableEq, Repr

def Cluster.reset : Cluster :=
  { slots := [], entries := [], nextSeq := 0, arrivals := [], capture := [], lines := [],
    pool := none, reserved := [], pinned := [], spawn := none, allocs := [], streams := [], cmpx := [], ptimes := [], lastCtx := [],
    acc := [], accBad := [], w0 := .unbound, w1 := .unbound, quad := [], peers := [], sten := [], queues := [], notes := [],
    cancels := [], finishing := [], accepted := 0, sunk := [] }

/-! ### Plumb (11 R349 to R383) -/

/-- A member of a crew: its index, its strand and key colour, and the numbers of the rounds it took part in before a purge
that replays it, while they last (11 R356). -/
structure Member where
  index : Nat
  tag : Tag
  key : BitVec 12
  owed : List Nat
  deriving DecidableEq, Repr

/-- The kinds of rounds (11 R355, R383). -/
inductive RoundKind where
  | barrier | broadcast | reduction | tileReduction
  deriving DecidableEq, Repr

/-- A firing that waits for a round's release or result: the member it stands for, none for a sender or opener, and
whether its contribution was late. Firing.none stands for one that RESTORE has put back into the matching store. -/
structure Waits where
  firing : Firing
  member : Option Nat
  late : Bool
  deriving DecidableEq, Repr

/-- A packet a reduction round has sent: member index (0xFFFFFFFF for the final packet), the value, or the handle of a
leaf tile in the reduce cluster, and POISON (11 R369, R372). -/
structure RPacket where
  member : Nat
  value : Word
  poison : Bool
  deriving DecidableEq, Repr

/-- A leaf: a member's value, or its tile's handle in the reduce cluster, and POISON (11 R366). -/
structure Leaf where
  member : Nat
  value : Word
  poison : Bool
  onTime : Bool
  deriving DecidableEq, Repr

structure Round where
  kind : RoundKind
  no : Nat
  /-- Member indices of the set, those that have arrived or contributed, and those that have left (01 R25). -/
  set : List Nat
  arrived : List Nat
  gone : List Nat
  waits : List Waits
  /-- The latest entry tick counted so far (11 R362), and the tick in which a barrier or broadcast releases. -/
  latest : Nat
  releaseAt : Option Nat
  /-- The token that a broadcast carries (11 R363). -/
  sent : Option Tok
  op : Nat
  fmt : Fmt
  rnd : Rnd
  sat : Bool
  rows : Nat
  epr : Nat
  /-- Reduce cluster of a tile reduction. -/
  cluster : Nat
  width : Nat
  deadline : Nat
  evaluated : Bool
  leaves : List Leaf
  /-- The result over the on-time contributions, and the flags its formation raised. -/
  result : RPacket
  flags : BitVec 6
  packets : List RPacket
  /-- The tick in which the final packet goes out. -/
  finalAt : Option Nat
  /-- A reduction has retired, or a barrier or broadcast has released. -/
  retired : Bool
  deriving DecidableEq, Repr

/-- What a signal on its way up asks of its root (11 R351, R355, R357). -/
inductive Ask where
  | leave (tag : Tag)
  | free
  | drop (tag : Tag)
  | new (pkg : Bool) (quorum : Nat)
  | join
  | send
  | open (fmt : Fmt) (deadline : Nat)
  | arrive (member : Nat)
  | put (member round : Nat)
  deriving DecidableEq, Repr

/-- A signal on its way to a root, or held there: the crew, the tick it reaches the root, its entry tick, the firing, the
tile that a tile contribution carries, and whether a purge has removed the firing since (11 R356, R382). -/
structure Up where
  crew : Nat
  at_ : Nat
  entry : Nat
  firing : Firing
  ask : Ask
  held : Bool
  data : Option Payload
  gone : Bool
  deriving DecidableEq, Repr

/-- What lands at the endpoints (11 R349, R366 to R369). -/
inductive Down where
  /-- The tokens that a firing sends when the signal lands: on DST0 and the route entries, and on DST1. -/
  | emit (firing : Firing) (t0 t1 : Tok)
  | error (firing : Firing) (code : BitVec 8)
  | notice (crew : Nat) (round : Nat)
  | packet (crew : Nat) (round : Nat) (ix : Nat) (p : RPacket)
  /-- The result of a round for its opener and the members on time, or, with a member, for one late member. -/
  | result (crew : Nat) (round : Nat) (late : Option Nat)
  deriving DecidableEq, Repr

structure Landing where
  at_ : Nat
  what : Down
  deriving DecidableEq, Repr

structure Crew where
  used : Bool
  region : Nat
  pkg : Bool
  die : Nat
  gen : BitVec 8
  quorum : Nat
  joins : Nat
  members : List Member
  nextRound : Nat
  open_ : Option Round
  /-- Rounds that no longer stand open: barriers on their way to release, reductions past their deadline, and rounds that
  have ended and still owe a replayed member what they gave (11 R356). -/
  rounds : List Round
  freeing : Bool
  /-- Rounds whose notice has landed. -/
  noticed : List Nat
  /-- Indices of departed members, each with the rounds that keep it from use (01 R25). -/
  kept : List (Nat × List Nat)
  deriving DecidableEq, Repr

def Crew.reset : Crew :=
  { used := false, region := 0, pkg := false, die := 0, gen := 0, quorum := 0, joins := 0, members := [],
    nextRound := 0, open_ := none, rounds := [], freeing := false, noticed := [], kept := [] }

/-- A packet kept in a die's logs (11 R369). -/
structure Logged where
  die : Nat
  crew : Nat
  gen : BitVec 8
  round : Nat
  ix : Nat
  packet : RPacket
  deriving DecidableEq, Repr

structure Plumb where
  crews : Tab Crew
  ups : List Up
  downs : List Landing
  lookups : List Firing
  puts : List (Firing × Nat × Nat)
  pcorrs : List Firing
  logs : List Logged
  /-- PQUIETs that wait for their census, with their entry tick. -/
  quiets : List (Firing × Nat)
  /-- PSIGs that wait for the snapshot before them. -/
  psigs : List Firing
  deriving DecidableEq, Repr

def Plumb.reset : Plumb :=
  { crews := [], ups := [], downs := [], lookups := [], puts := [], pcorrs := [], logs := [], quiets := [], psigs := [] }

/-! ### Link Engine (12 R385 to R413) -/

/-- An issued link firing: the target word, the elements not yet answered with what has been asked of the target, the
notification that follows them, the message of an LSEND and, once a full queue has refused it, when it retries; what has
been read, the lowest failing element, the bytes written, whether KEY_REVOKED has been raised, the refusals so far, the
ticks since the first one, and whether QUEUE_WAIT has been raised. -/
structure LinkReq where
  firing : Firing
  tag : Tag
  target : Word
  asks : List (Nat × RemoteAccess)
  note : Option (Nat × RemoteAccess)
  msg : Option RemoteSend
  retryAt : Option Nat
  got : List (Nat × List Byte × Bool)
  fail : Option (Nat × BitVec 8)
  bytes : Nat
  revoked : Bool
  nacks : Nat
  waited : Nat
  raised : Bool
  deriving DecidableEq, Repr

/-- A message stored in a receive queue's slot (12 R408): its bytes lie in the slot. -/
structure Stored where
  slot : Nat
  source : Word
  tile : Bool
  fmt : Fmt
  rows : Nat
  epr : Nat
  size : Nat
  deriving DecidableEq, Repr

structure RecvQueue where
  base : BitVec 32
  hi : BitVec 8
  en : Bool
  owner : BitVec 7
  slots : BitVec 10
  next : Nat
  msgs : List Stored
  deriving DecidableEq, Repr

def RecvQueue.reset : RecvQueue :=
  { base := 0, hi := 0, en := false, owner := 0, slots := 0, next := 0, msgs := [] }

/-- A Scewen port (12 R392 to R395): the lanes that work when some are lost; as a sender, the next SEQ, the flits kept
for resending with their receive buffers, the flits that wait, the cumulative counts U and the latest RET of each buffer,
the flits since the last slot-sync, and the buffer its next header reports; as a receiver, the last good SEQ and the slots
returned for each buffer. -/
structure SPort where
  lanes : Option Nat
  nextSeq : BitVec 12
  unacked : List (BitVec 12 × Nat × List Byte)
  /-- Flits that wait: receive buffer and bytes. -/
  queue : List (Nat × List Byte)
  /-- The flits received of the packet under way in each receive buffer. -/
  parts : Tab (List (List Byte))
  sent : Tab (BitVec 12)
  ret : Tab (BitVec 12)
  sinceSync : Nat
  rsel : BitVec 3
  lastGood : BitVec 12
  returned : Tab (BitVec 12)
  deriving DecidableEq, Repr

def SPort.reset : SPort :=
  { lanes := none, nextSeq := 0, unacked := [], queue := [], parts := [], sent := [], ret := [], sinceSync := 0, rsel := 0,
    lastGood := 0xFFF, returned := [] }

/-- A waiting LRECV (12 R408), with the ticks it has waited. -/
structure Recv where
  firing : Firing
  tag : Tag
  waited : Nat
  raised : Bool
  deriving DecidableEq, Repr

structure Link where
  hpctl : Word
  refused : BitVec 32
  aborts : BitVec 32
  ktbase : Word
  kcmd : Word
  ctbase : Word
  msgout : List Byte
  msgin : List Byte
  d2hbase : Word
  d2htail : BitVec 32
  d2hhead : BitVec 32
  h2dbase : Word
  h2dtail : BitVec 32
  h2dhead : BitVec 32
  ringsz : BitVec 4
  queues : Tab RecvQueue
  /-- Key entries as the engine holds them: 32 bytes each; connection entries: 64 bytes each. -/
  keys : Tab (List Byte)
  conns : Tab (List Byte)
  reqs : Tab (Option LinkReq)
  nextReq : Nat
  recvs : List Recv
  /-- Accesses and messages for this package itself, and the answers under way. -/
  loop : List RemoteAccess
  sends : List RemoteSend
  answers : List (Nat × LinkAnswer)
  ports : Tab SPort
  ethUp : BitVec 6
  /-- Reliable-layer messages not yet acknowledged: request number and the tick of their last transmission. -/
  eth : List (Nat × Nat)
  /-- How many entries of State.sent have been put on Scewen ports. -/
  shipped : Nat
  deriving DecidableEq, Repr

def Link.reset : Link :=
  { hpctl := 0, refused := 0, aborts := 0, ktbase := 0, kcmd := 0, ctbase := 0, msgout := List.replicate 64 0,
    msgin := List.replicate 64 0, d2hbase := 0, d2htail := 0, d2hhead := 0, h2dbase := 0, h2dtail := 0, h2dhead := 0,
    ringsz := 8, queues := [], keys := [], conns := [], reqs := [], nextReq := 0, recvs := [], loop := [],
    sends := [], answers := [], ports := [], ethUp := 0x3F, eth := [], shipped := 0 }

/-! ### Launch queues (04 R117, R118) -/

/-- A lease of a queue's head record: the thread that holds it. -/
structure LaunchQueue where
  base : Word
  mask : BitVec 32
  head : BitVec 32
  tail : BitVec 32
  en : Bool
  lease : Option Nat
  since : Nat
  raised : Bool
  deriving DecidableEq, Repr

def LaunchQueue.reset : LaunchQueue :=
  { base := 0, mask := 0, head := 0, tail := 0, en := false, lease := none, since := 0, raised := false }

/-! ### Service Engine (13 R415 to R432) -/

structure Service where
  ready : Bool
  bootfail : Bool
  replace : Bool
  degraded : Bool
  thermal : Bool
  fatal : Bool
  rcause : BitVec 7
  plim : BitVec 16
  opreq : Tab (BitVec 2)
  opnow : Tab (BitVec 2)
  powerClamp : BitVec 2
  /-- Dies under the thermal clamp, each with the tick since when it has been below 95 °C. -/
  hot : Tab (Option Nat)
  coolPeriods : Nat
  pwr : BitVec 32
  energy : Word
  temp : Word
  poisoned : BitVec 32
  corrected : BitVec 32
  teltick : Word
  frbase : Word
  frtail : BitVec 32
  frhead : BitVec 32
  frlost : Word
  /-- Items lost since the ring filled, to be reported by a KIND 0xFF item. -/
  frGap : Nat
  capgen : BitVec 32
  fused : BitVec 7
  flashA : Tab Byte
  flashB : Tab Byte
  /-- The bundle running now. -/
  running : List Byte
  code : BitVec 8
  /-- Enabled physical dies, ascending. -/
  dies : List Nat
  /-- Clusters marked failing and not yet mapped out: (die, row, physical column). -/
  failing : List (Nat × Nat × Nat)
  /-- Physical columns mapped out: (die, row, physical column). -/
  mapped : List (Nat × Nat × Nat)
  failedRouters : List (Nat × Nat)
  failedChannels : List Nat
  failedBanks : List Nat
  scewenUp : BitVec 6
  deriving DecidableEq, Repr

/-- The Service Engine before bring-up (13 R415, R419; part, flash and fuses: notes/assumptions/5.md). -/
def Service.reset : Service :=
  { ready := false, bootfail := false, replace := false, degraded := false, thermal := false, fatal := false,
    rcause := 0, plim := 5000, opreq := [], opnow := [], powerClamp := 0, hot := [], coolPeriods := 0, pwr := 0,
    energy := 0, temp := 0, poisoned := 0, corrected := 0, teltick := 0, frbase := 0, frtail := 0, frhead := 0,
    frlost := 0, frGap := 0, capgen := 0, fused := 0, flashA := [], flashB := [], running := [], code := 0x80,
    dies := [0, 1, 2, 3, 4, 5, 6, 7], failing := [], mapped := [], failedRouters := [], failedChannels := [],
    failedBanks := [], scewenUp := 0x3F }

/-! ### The whole part -/

/-- What has left the package. -/
inductive Sent where
  | msix (vector : Nat)
  | completion (data : List Byte) (poisoned : Bool)
  | abort
  | snoopAnswer (addr : Word)
  | pageRequest (asid : BitVec 32) (addr : Word) (write : Bool)
  /-- A link access, a message, and the answer to request k of another sender; dest is PEER and DEST of R399. -/
  | access (dest : BitVec 22) (a : RemoteAccess)
  | message (dest : BitVec 22) (m : RemoteSend)
  | answer (dest : BitVec 22) (k : Nat) (a : LinkAnswer)
  | doe (data : List Byte)
  | viral
  | relay (region : Nat) (tick : Nat)
  /-- A token packet for a member package of a spanning region, with its source (01 R31). -/
  | packet (region src : Nat) (tok : Tok) (data : Option Payload)
  /-- A configuration packet for a slot of a member die of a spanning region: region die index, cluster, slot and word
  (01 R32). -/
  | config (region die cluster slot : Nat) (word : Word128)
  /-- A firing whose memory port or bank lies in a member package, with its result tag (01 R31). -/
  | firing (f : Firing) (tag : Tag)
  /-- A Scewen flit: its header word, and the bytes of its mesh flit or slot-sync that the spec gives. -/
  | flit (port : Nat) (hdr : Word) (data : List Byte)
  | digest (key : Word) (digest : Word)
  deriving DecidableEq, Repr

/-- Which agent moves next (notes/assumptions/1.md). -/
inductive Turn where
  | hawk (th : Nat)
  | firing
  | event (i : Instr)
  | tick
  deriving DecidableEq, Repr

structure State where
  turn : Turn
  steps : Nat
  inbox : List Instr
  sent : List Sent
  firing : Firing
  issued : List Firing
  htime : Nat
  mem : Tab Byte
  chk : Tab (BitVec 16)
  threads : Tab Thread
  dies : Tab Die
  regions : Tab Region
  clusters : Tab Cluster
  ports : Tab Port
  banks : Tab Bank
  /-- Modes of bank words that are not plain, by flat address. -/
  bankWords : Tab BMode
  waiters : List Waiter
  nacked : List (BankReq × Nat × Nat)
  net : List Packet
  hops : List Hop
  digests : List Digest
  plumb : Plumb
  link : Link
  launch : Tab LaunchQueue
  lastCommit : Tab Nat
  invVa : Word
  invAsid : BitVec 32
  service : Service
  deriving DecidableEq, Repr

/-- The reset value of thread th = 8 × die + number (04 R132). -/
def Thread.initial (th : Nat) : Thread := Thread.reset (th % 8 != 0)

/-- The machine right after package reset: every register at the value the spec states, the others as
notes/assumptions/4.md names them, memory with nothing listed (02 R46). -/
def State.reset : State :=
  { turn := .hawk 0, steps := 0, inbox := [], sent := [], firing := Firing.none, issued := [], htime := 0, mem := [],
    chk := [], threads := (List.range 8).map fun d => (8 * d, Thread.initial (8 * d)), dies := [], regions := [],
    clusters := [], ports := [], banks := [], bankWords := [], waiters := [], nacked := [], net := [], hops := [], digests := [],
    plumb := Plumb.reset, link := Link.reset, launch := [], lastCommit := [], invVa := 0, invAsid := 0,
    service := Service.reset }

end Sys2Proof.Machine
end

