-- ==== Sys2Proof/Machine/Mem.lean ====
section
/-! DEFINITION. Memory: where each space lies in the flat table of bytes, the protection units and their check bits
(09 R313 to R315, 10 R323, 04 R113), and reads and writes that observe them. -/

namespace Sys2Proof.Machine

/-! ### The flat places of the memory spaces -/

/-- The key of cluster cl of physical die d. -/
def clusterKey (d cl : Nat) : Nat := 512 * d + cl

def bankBase : Nat := 2 ^ 44
/-- A byte of a die's 64 MiB of bank memory (02 R51). Die 8 + 8 × pkg + d is die d of the peer package pkg. -/
def bankAddr (d off : Nat) : Nat := 2 ^ 44 + d * 2 ^ 26 + off
/-- Byte off of the scratchpad of the cluster with key c (02 R47). -/
def spAddr (c off : Nat) : Nat := 2 ^ 47 + c * 2 ^ 21 + off
/-- Byte off of a die's local SRAM (04 R112). -/
def sramAddr (d off : Nat) : Nat := 2 ^ 50 + d * 2 ^ 20 + off
/-- Byte a of host memory. -/
def hostAddr (a : Nat) : Nat := 2 ^ 58 + a
/-- Byte a of the HBM of the package at torus coordinates pkg = X Y Z. -/
def peerAddr (pkg a : Nat) : Nat := 2 ^ 52 + pkg * 2 ^ 40 + a

inductive MKind where
  | hbm | bank | sp | sram | far
  deriving DecidableEq, Repr

def kindOf (a : Nat) : MKind :=
  if a < 2 ^ 40 then .hbm else if a < 2 ^ 45 then .bank else if a < 2 ^ 48 then .sp else if a < 2 ^ 52 then .sram else .far

/-- Bytes of a protection unit: a granule, or an 8-byte word. -/
def unitOf (k : MKind) : Nat := match k with | .hbm | .far => 32 | _ => 8

/-- The bank a flat bank address lies in, 128 × die + bank (02 R51). -/
def bankOf (a : Nat) : Nat := (a - bankBase) / 2 ^ 26 * 128 + a / 256 % 128

/-- The word index within its bank (10 R320). -/
def wordIndex (a : Nat) : Nat := a / 2 ^ 15 % 2 ^ 11 * 32 + a / 8 % 32

/-- The flat address of word w of bank b = 128 × die + bank. -/
def bankWordAddr (b w : Nat) : Nat := bankAddr (b / 128) (w / 32 * 2 ^ 15 + b % 128 * 256 + w % 32 * 8)

/-- The channel of an HBM byte, 64 × die + channel, and the port that serves it, 16 × die + port (09 R287). -/
def channelOf (a : Nat) : Nat := a / 2 ^ 37 * 64 + a / 256 % 64
def portOfChannel (c : Nat) : Nat := c / 64 * 16 + c % 64 / 4

/-! ### Small updates -/

def setMem (s : State) (m : Tab Byte) : State := { s with mem := m }
def setChk (s : State) (u : Nat) (v : BitVec 16) : State := { s with chk := Tab.set 0 s.chk u v }
def getPort (s : State) (p : Nat) : Port := Tab.get Port.reset s.ports p
def setPort (s : State) (p : Nat) (x : Port) : State := { s with ports := Tab.set Port.reset s.ports p x }

def satInc (x : BitVec 32) : BitVec 32 := if x = 0xFFFFFFFF then x else x + 1

def countPce (s : State) (a : Nat) : State :=
  let p := portOfChannel (channelOf a)
  setPort s p { getPort s p with pce := satInc (getPort s p).pce }

def countPue (s : State) (a : Nat) : State :=
  let p := portOfChannel (channelOf a)
  setPort s p { getPort s p with pue := satInc (getPort s p).pue }

/-! ### Check bits -/

inductive UnitState where
  | clean
  /-- A single error; the data bit to flip, if it is one. -/
  | single (bit : Option Nat)
  | poisoned
  deriving DecidableEq, Repr

def popcount (n : Nat) : Nat := (List.range 64).foldl (fun c i => if n.testBit i then c + 1 else c) 0

/-- What a syndrome of w low bits and one parity bit reports, for nbits data bits (R314, R323): column v has rank
v - 1 - bitLen v among the values with at least two bits set. -/
def syndrome (w nbits S : Nat) : UnitState :=
  let low := S % 2 ^ w
  if !S.testBit w then (if low = 0 then .clean else .poisoned)
  else if popcount low ≤ 1 then .single none
  else if low - 1 - bitLen low < nbits then .single (some (low - 1 - bitLen low)) else .poisoned

/-- The state of a protection unit, from the difference between its stored check bits and Check(data). -/
def unitState (k : MKind) (x : BitVec 16) : UnitState :=
  match k with
  | .hbm | .far =>
    let m := popcount (x.toNat / 1024)
    if 2 ≤ m then .poisoned
    else match syndrome 9 256 (x.toNat % 1024) with
      | .clean => if m = 0 then .clean else .single none
      | r => r
  | .bank => syndrome 7 64 (x.toNat % 256)
  | _ =>
    if x = 0 then .clean
    else if x.toNat / 256 % 2 = 1 then .poisoned
    else match Config.scratchCheck (BitVec.ofNat 8 x.toNat) with
      | 0 => .clean
      | 1 => .single none
      | _ => .poisoned

/-- The poison marking of a unit (R313, R323). -/
def poisonMark (k : MKind) : BitVec 16 := match k with | .hbm | .far => 0xFC00 | .bank => 0x03 | _ => 0x100

/-- A failed channel or bank reads as poisoned (13 R429). -/
def unitFailed (s : State) (k : MKind) (u : Nat) : Bool :=
  match k with
  | .hbm => s.service.failedChannels.contains (channelOf u)
  | .bank => s.service.failedBanks.contains (bankOf u)
  | _ => false

def flipBit (m : Tab Byte) (u bit : Nat) : Tab Byte :=
  Mem.write m (u + bit / 8) [Mem.byte m (u + bit / 8) ^^^ BitVec.ofNat 8 (2 ^ (bit % 8))]

/-- Read the unit that starts at u: correct and write back a single error, count it on HBM, and say whether it reads as
poisoned (R314, R323). -/
def readUnit (s : State) (u : Nat) : State × Bool :=
  let k := kindOf u
  if unitFailed s k u then ((if k = .hbm then countPue s u else s), true)
  else match unitState k (Tab.get 0 s.chk u) with
    | .clean => (s, false)
    | .poisoned => ((if k = .hbm then countPue s u else s), true)
    | .single b =>
      let s := setChk s u 0
      let s := match b with | none => s | some i => setMem s (flipBit s.mem u i)
      ((if k = .hbm then countPce s u else s), false)

/-- The units that n bytes from a touch. -/
def unitsOf (a n : Nat) : List Nat :=
  let w := unitOf (kindOf a)
  (List.range ((a + n + w - 1) / w - a / w)).map fun i => (a / w + i) * w

def readUnits (s : State) : List Nat → State × Bool
  | [] => (s, false)
  | u :: us =>
    let (s, p) := readUnit s u
    let (s, q) := readUnits s us
    (s, p || q)

/-- Read n bytes from a: the corrected bytes, and whether any unit reads as poisoned. -/
def readMem (s : State) (a n : Nat) : State × List Byte × Bool :=
  let (s, p) := readUnits s (unitsOf a n)
  (s, Mem.read s.mem a n, p)

/-- Write part or all of one unit. A whole write stores fresh check bits, with the marking when it writes poison or its
channel has failed. A write of part of a poisoned granule merges and stays poisoned (R315); on a poisoned 8-byte word it
performs nothing (R323, R113), and the answer is false. -/
def writeUnit (s : State) (u a : Nat) (bs : List Byte) (poison : Bool) : State × Bool :=
  let k := kindOf u
  let mark := if poison || unitFailed s k u then poisonMark k else 0
  if bs.length = unitOf k then (setChk (setMem s (Mem.write s.mem a bs)) u mark, true)
  else
    let (s, bad) := readUnit s u
    if !bad then (setChk (setMem s (Mem.write s.mem a bs)) u mark, true)
    else match k with
      | .hbm | .far => (setChk (setMem s (Mem.write s.mem a bs)) u (poisonMark k), true)
      | _ => (s, false)

def writeUnits (s : State) (a : Nat) (bs : List Byte) (poison : Bool) : List Nat → State × Bool
  | [] => (s, true)
  | u :: us =>
    let w := unitOf (kindOf u)
    let lo := max a u
    let (s, ok) := writeUnit s u lo ((bs.drop (lo - a)).take (u + w - lo)) poison
    let (s, ok') := writeUnits s a bs poison us
    (s, ok && ok')

/-- Write bytes from a; false if part of the write fell on a poisoned 8-byte word and was not performed. -/
def writeMem (s : State) (a : Nat) (bs : List Byte) (poison : Bool) : State × Bool :=
  writeUnits s a bs poison (unitsOf a bs.length)

/-! ### Bytes and numbers -/

def leNat : List Byte → Nat
  | [] => 0
  | b :: bs => b.toNat + 256 * leNat bs

def leBytes : Nat → Nat → List Byte
  | 0, _ => []
  | n + 1, v => BitVec.ofNat 8 v :: leBytes n (v / 256)

/-- Read n bytes as a little-endian number, without observing check bits. -/
def peek (s : State) (a n : Nat) : Nat := leNat (Mem.read s.mem a n)

end Sys2Proof.Machine
end

