-- ==== Sys2Proof/Machine/Ops.lean ====
section
/-! DEFINITION. The named operations over the state: access to threads, regions, clusters and their parts; region geometry;
traps and their return; fault records; leak counters; region-wide signals; and tokens on their way. -/

namespace Sys2Proof.Machine

/-! ### Access to the parts -/

def getThread (s : State) (th : Nat) : Thread := Tab.get (Thread.reset true) s.threads th
def setThread (s : State) (th : Nat) (t : Thread) : State :=
  { s with threads := Tab.set (Thread.reset true) s.threads th t }
def getRegion (s : State) (r : Nat) : Region := Tab.get Region.free s.regions r
def setRegion (s : State) (r : Nat) (x : Region) : State := { s with regions := Tab.set Region.free s.regions r x }
def modRegion (s : State) (r : Nat) (f : Region → Region) : State := setRegion s r (f (getRegion s r))
def getCluster (s : State) (c : Nat) : Cluster := Tab.get Cluster.reset s.clusters c
def setCluster (s : State) (c : Nat) (x : Cluster) : State := { s with clusters := Tab.set Cluster.reset s.clusters c x }
def modCluster (s : State) (c : Nat) (f : Cluster → Cluster) : State := setCluster s c (f (getCluster s c))
def getDie (s : State) (d : Nat) : Die := Tab.get Die.reset s.dies d
def setDie (s : State) (d : Nat) (x : Die) : State := { s with dies := Tab.set Die.reset s.dies d x }
def getBank (s : State) (b : Nat) : Bank := Tab.get Bank.reset s.banks b
def setBank (s : State) (b : Nat) (x : Bank) : State := { s with banks := Tab.set Bank.reset s.banks b x }
def modPort (s : State) (p : Nat) (f : Port → Port) : State := setPort s p (f (getPort s p))
def getCtx (r : Region) (c : Nat) : Ctx := Tab.get Ctx.none r.ctxs c
def setCtx (r : Region) (c : Nat) (x : Ctx) : Region := { r with ctxs := Tab.set Ctx.none r.ctxs c x }
def getCrew (s : State) (c : Nat) : Crew := Tab.get Crew.reset s.plumb.crews c
def setCrew (s : State) (c : Nat) (x : Crew) : State :=
  { s with plumb := { s.plumb with crews := Tab.set Crew.reset s.plumb.crews c x } }
def getSlot (s : State) (c : Nat) (i : BitVec 11) : Slot := Tab.get Slot.empty (getCluster s c).slots i.toNat
def setSlot (s : State) (c : Nat) (i : BitVec 11) (x : Slot) : State :=
  modCluster s c fun k => { k with slots := Tab.set Slot.empty k.slots i.toNat x }
def getLine (s : State) (c l : Nat) : Line := Tab.get Line.empty (getCluster s c).lines l
def setLine (s : State) (c l : Nat) (x : Line) : State :=
  modCluster s c fun k => { k with lines := Tab.set Line.empty k.lines l x }
def send (s : State) (x : Sent) : State := { s with sent := s.sent ++ [x] }

/-- A free value below n (notes/assumptions/8.md); the step counter moves on with every step. -/
def freeBelow (s : State) (n : Nat) : Nat := Config.free s.steps % n

/-- What a register that is only written reads as: a free value (notes/assumptions/28.md). -/
def writeOnly (s : State) : Word := BitVec.ofNat 64 (Config.free s.steps)

/-- Bits hi to lo of a word, as a number. -/
def bits {w : Nat} (x : BitVec w) (hi lo : Nat) : Nat := (x.extractLsb' lo (hi + 1 - lo)).toNat

/-! ### Region geometry (01 R31, R35, R36, R50, R76; 04 R116) -/

def Region.whole (r : Region) : Bool := r.handle.getLsbD 55
def Region.row0 (r : Region) : Nat := bits r.handle 51 47
def Region.col0 (r : Region) : Nat := bits r.handle 46 43
def Region.rows (r : Region) : Nat := bits r.handle 42 38 + 1
def Region.cols (r : Region) : Nat := bits r.handle 37 34 + 1

/-- Mapped-out clusters of a row (R35, R36). -/
def mappedOut (s : State) (d row : Nat) : Nat := (s.service.mapped.filter fun m => m.1 == d && m.2.1 == row).length

/-- Logical columns that a row of an enabled die presents (R36). -/
def presentCols (s : State) (d row : Nat) : Nat :=
  if !s.service.dies.contains d || s.service.failedRouters.contains (d, row) then 0 else min 16 (17 - mappedOut s d row)

def present (s : State) (d cl : Nat) : Bool := decide (cl < 320) && decide (cl % 16 < presentCols s d (cl / 16))

/-- A logical cluster lies in a rectangle region. -/
def Region.inRect (r : Region) (cl : Nat) : Bool :=
  decide (r.row0 ≤ cl / 16) && decide (cl / 16 < r.row0 + r.rows) && decide (r.col0 ≤ cl % 16) &&
  decide (cl % 16 < r.col0 + r.cols)

/-- A cluster of the pager region of die d (09 R297). -/
def isPager (s : State) (d cl : Nat) : Bool :=
  let r := getRegion s (120 + d)
  r.state != .free && r.inRect cl

/-- A logical cluster of physical die d belongs to the region. -/
def regionHolds (s : State) (r : Region) (d cl : Nat) : Bool :=
  present s d cl && (if r.whole then !isPager s d cl else r.inRect cl)

/-- The cluster that region die index i and logical cluster cl name (01 R15, R31). -/
def regionCluster (s : State) (r : Region) (i cl : Nat) : Option Nat :=
  match r.dies.getD i none with
  | none => none
  | some d => if regionHolds s r d cl then some (clusterKey d cl) else none

/-- The absolute logical number of a relative cluster, if its column lies in the region's columns (R76). -/
def Region.absolute (r : Region) (rel : Nat) : Option Nat :=
  if r.whole then (if rel < 320 then some rel else none)
  else if rel / 16 < r.rows ∧ rel % 16 < r.cols then some (rel + 16 * r.row0 + r.col0) else none

/-- The relative number of an absolute logical cluster. -/
def Region.relative (r : Region) (cl : Nat) : Nat := if r.whole then cl else cl - (16 * r.row0 + r.col0)

/-- The region die index of physical die d. -/
def Region.dieIx (r : Region) (d : Nat) : Nat := r.dies.findIdx fun x => x == some d

/-- Every cluster of the region on this package, in die and logical order. -/
def regionClusters (s : State) (r : Region) : List Nat :=
  r.dies.flatMap fun x => match x with
    | none => []
    | some d => ((List.range 320).filter (regionHolds s r d)).map (clusterKey d)

def ownerDie (r : Region) : Nat := r.owner / 8

/-- Ticks that a region-wide signal takes from its entry (01 R32; 05 R172; 11 R374). -/
def signalDelay (r : Region) : Nat :=
  if !r.span.isEmpty || r.member then 2144 else if (r.dies.filter Option.isSome).length ≤ 1 then 48 else 96

/-- The home cluster of a context (01 R18). -/
def homeOf (s : State) (r : Region) (c : Nat) : Option Nat := regionCluster s r (getCtx r c).die (getCtx r c).home

/-! ### Colours -/

/-- The live colour a tag names, if its generation is the one stamped (01 R23). -/
def liveColour (r : Region) (t : Tag) : Option Colour :=
  (getCtx r t.ctx.toNat).live.find? fun c => c.col == t.col && c.gen == t.gen

def isLive (r : Region) (t : Tag) : Bool := (liveColour r t).isSome

/-- Replace a live colour of a context. -/
def Ctx.put (x : Ctx) (c : Colour) : Ctx :=
  { x with live := x.live.map fun k => if k.col = c.col then c else k }

def setColour (r : Region) (t : Tag) (c : Colour) : Region :=
  setCtx r t.ctx.toNat ((getCtx r t.ctx.toNat).put c)

/-- Update the live colour a tag names; nothing if it is not live. -/
def modColour (r : Region) (t : Tag) (f : Colour → Colour) : Region :=
  match liveColour r t with
  | none => r
  | some c => setColour r t (f c)

/-- The age of a colour: its distance from the context's oldest live colour (R19). -/
def ageOf (x : Ctx) (col : BitVec 12) : Nat :=
  match x.live with
  | [] => 0
  | c :: _ => (col - c.col).toNat

/-- The strand's dynamic rounding mode (03 R95). -/
def modeOf (r : Region) (t : Tag) : BitVec 3 :=
  match liveColour r t with
  | none => 0
  | some c => c.rmode

/-- f7 of a colour (03 R95). -/
def f7 (c : Colour) : Word :=
  BitVec.ofNat 64 ((if c.irrev then 2048 else 0) + c.rmode.toNat * 256 + c.flags.toNat)

/-! ### Tokens as words (01 R16, R17; 03 R73) -/

def kindCode : Kind → Nat
  | .scalar => 0 | .tile => 1 | .marker => 2 | .error => 3 | .done => 4 | .bitmap => 5 | .res6 => 6 | .res7 => 7

def kindOfCode (n : Nat) : Kind :=
  match n % 8 with
  | 0 => .scalar | 1 => .tile | 2 => .marker | 3 => .error | 4 => .done | 5 => .bitmap | 6 => .res6 | _ => .res7

/-- FLAG, bits 4..0 of a header: POISON 4, IRREV 3, KEEP 2, LAST 1 (R17). -/
def flagBits (f : Flag) : Nat :=
  (if f.poison then 16 else 0) + (if f.irrev then 8 else 0) + (if f.keep then 4 else 0) + (if f.last then 2 else 0)

def flagOf (n : Nat) : Flag :=
  { poison := n.testBit 4, irrev := n.testBit 3, keep := n.testBit 2, last := n.testBit 1 }

/-- Bits 31..0 of a token header. -/
def tagBits (t : Tag) (k : Kind) (f : Flag) : Nat :=
  t.ctx.toNat * 2 ^ 24 + t.col.toNat * 2 ^ 12 + t.gen.toNat * 2 ^ 8 + kindCode k * 2 ^ 5 + flagBits f

/-- A destination as a 32-bit field (R73). -/
def dstBits (d : Dst) : Nat :=
  (if d.valid then 2 ^ 31 else 0) + d.port.toNat * 2 ^ 29 + d.die.toNat * 2 ^ 26 + d.cluster.toNat * 2 ^ 17 +
  d.slot.toNat * 2 ^ 6 + d.rwi.toNat

def dstOf (n : Nat) : Dst :=
  { valid := n.testBit 31, port := BitVec.ofNat 2 (n / 2 ^ 29), die := BitVec.ofNat 3 (n / 2 ^ 26),
    cluster := BitVec.ofNat 9 (n / 2 ^ 17), slot := BitVec.ofNat 11 (n / 2 ^ 6), rwi := BitVec.ofNat 6 n }

/-- A token header. -/
def headerBits (t : Tok) : Word :=
  BitVec.ofNat 64 (dstBits { t.dst with rwi := 0 } * 2 ^ 32 + tagBits t.tag t.kind t.flag)

def tokOf (h p : Word) : Tok :=
  { dst := dstOf (bits h 63 32), tag := { ctx := h.extractLsb' 24 8, col := h.extractLsb' 12 12, gen := h.extractLsb' 8 4 },
    kind := kindOfCode (bits h 7 5), flag := flagOf (bits h 4 0), payload := p }

/-- A node in the DST layout with its cluster relative and VALID 1 (R73). -/
def nodeField (r : Region) (c : Nat) (slot : BitVec 11) : Nat :=
  dstBits { valid := true, port := 0, die := BitVec.ofNat 3 (r.dieIx (c / 512)),
            cluster := BitVec.ofNat 9 (r.relative (c % 512)), slot := slot, rwi := 0 }

/-- The payload of an error token that a firing's node raises first (03 R84). -/
def errorPayload (r : Region) (c : Nat) (slot : BitVec 11) (elem : Nat) (code : BitVec 8) : Word :=
  BitVec.ofNat 64 (elem % 2 ^ 32 * 2 ^ 32 + r.dieIx (c / 512) % 8 * 2 ^ 29 + c % 512 * 2 ^ 20 + slot.toNat * 2 ^ 9 +
    code.toNat)

/-- Error codes (03 R84). -/
def eADDR_RANGE : BitVec 8 := 0x01
def eNONCANON : BitVec 8 := 0x02
def eWINDOW_SPLIT : BitVec 8 := 0x03
def ePOISON : BitVec 8 := 0x04
def ePAGE_FAIL : BitVec 8 := 0x05
def eKEY_REVOKED : BitVec 8 := 0x06
def eREPLAY_STALE : BitVec 8 := 0x07
def eBOUNDS : BitVec 8 := 0x08
def eHOST_POISON : BitVec 8 := 0x09
def eFUTURE_REWRITE : BitVec 8 := 0x0A
def eTYPE_MISMATCH : BitVec 8 := 0x0B
def eQUEUE_TIMEOUT : BitVec 8 := 0x0C
def eOP_ILLEGAL : BitVec 8 := 0x0D

/-! ### Traps of a Hawk thread (04 R110, R128) -/

/-- What the Service Engine records (13 R430, R431): an item of 64 bytes, written at TAIL or counted lost. -/
def failureItem (s : State) (item : List Byte) : State :=
  let v := s.service
  let full := v.frtail - v.frhead = 4096
  if v.frbase = 0 ∨ full then
    { s with service := { v with frlost := if v.frlost = 0xFFFFFFFFFFFFFFFF then v.frlost else v.frlost + 1,
                                 frGap := v.frGap + 1 } }
  else
    let put (s : State) (it : List Byte) : State :=
      let v := s.service
      let s := (writeMem s (v.frbase.toNat + 64 * (v.frtail.toNat % 4096)) it false).1
      send { s with service := { v with frtail := v.frtail + 1 } } (.msix 1)
    let s :=
      if v.frGap = 0 then s
      else
        let s := put s (leBytes 1 0xFF ++ leBytes 15 0 ++ leBytes 8 s.htime ++ leBytes 8 0 ++ leBytes 4 v.frGap ++
          leBytes 28 0)
        { s with service := { s.service with frGap := 0 } }
    if s.service.frtail - s.service.frhead = 4096 then
      { s with service := { s.service with frlost := s.service.frlost + 1, frGap := s.service.frGap + 1 } }
    else put s item

def setRcause (s : State) (bit : Nat) : State :=
  { s with service := { s.service with replace := true, rcause := s.service.rcause ||| BitVec.ofNat 7 (2 ^ bit) } }

/-- HCAUSE: DETAIL in bits 31..16, ASYNC in bit 8, CODE in bits 7..0 (R110). -/
def causeWord (code : Nat) (async : Bool) (detail : Nat) : Word :=
  BitVec.ofNat 64 (detail % 2 ^ 16 * 2 ^ 16 + (if async then 2 ^ 8 else 0) + code % 2 ^ 8)

/-- Release the leases of a thread that halts (04 R118). -/
def releaseLeases (s : State) (th : Nat) : State :=
  { s with launch := s.launch.map fun e => if e.2.lease = some th then (e.1, { e.2 with lease := none }) else e }

/-- Trap entry (04 R128): the saved registers, the double trap, the mode and the handler's address. -/
def enterTrap (s : State) (th : Nat) (code : Nat) (async : Bool) (detail : Nat) (xpc xval : Word) : State :=
  let t := getThread s th
  let t := { t with cause := causeWord code async detail, xpc := xpc, xval := xval, block := .none }
  if t.mode && !t.ie && !async then
    let s := setThread s th { t with halt := true }
    let s := releaseLeases s th
    let s := failureItem s (leBytes 3 3 ++ leBytes 1 (th / 8) ++ leBytes 12 0 ++ leBytes 8 s.htime ++ leBytes 1 th ++
      leBytes 7 0 ++ leBytes 8 t.cause.toNat ++ leBytes 8 t.xpc.toNat ++ leBytes 8 t.xval.toNat ++ leBytes 8 0)
    let s := setRcause s 6
    if s.link.hpctl.getLsbD 2 && s.link.hpctl.getLsbD 4 && Config.hostViral then send s .viral else s
  else setThread s th { t with pmode := t.mode, pie := t.ie, mode := true, ie := false, pc := t.vec }

/-- A synchronous trap of the word at pc. -/
def trap (s : State) (th code detail : Nat) (xval : Word) : State :=
  enterTrap s th code false detail (getThread s th).pc xval

/-- Trap return (04 R128). -/
def leaveTrap (s : State) (th : Nat) : State :=
  let t := getThread s th
  setThread s th { t with mode := t.pmode, ie := t.pie, pc := t.xpc }

def cILLEGAL : Nat := 0x01
def cMISALIGN : Nat := 0x02
def cHPAGE : Nat := 0x03
def cPRIV : Nat := 0x04
def cSWTRAP : Nat := 0x05
def cSVCALL : Nat := 0x06
def cPOISON : Nat := 0x1B
def cFP_TRAP : Nat := 0x1C

/-- The next instruction of a thread. -/
def advance (s : State) (th : Nat) : State :=
  let t := getThread s th
  setThread s th { t with pc := t.pc + 4 }

/-- A WFE event of a thread (04 R139): it ends a wait, or is remembered. -/
def wakeThread (s : State) (th : Nat) : State :=
  setThread s th { getThread s th with wake := true }

/-! ### Fault records and asynchronous causes (04 R129) -/

def fringBase : Word := 0xFF00000001000000

/-- A thread of the die has a cause pending. -/
def hasPending (s : State) (d : Nat) : Bool := (List.range 8).any fun i => !(getThread s (8 * d + i)).pending.isEmpty

/-- Give a cause to a thread, or let it wait behind the causes of its die that came before it: the threads of a die take
them one at a time, in ring order (R129; notes/assumptions/118.md). -/
def postCause (s : State) (th : Nat) (c : Cause) : State :=
  let d := th / 8
  if hasPending s d then setDie s d { getDie s d with causes := (getDie s d).causes ++ [(th, c)] }
  else setThread s th { getThread s th with pending := [c] }

/-- The next cause of a die goes to its thread. -/
def nextCause (s : State) (d : Nat) : State :=
  match (getDie s d).causes with
  | [] => s
  | (th, c) :: rest => postCause (setDie s d { getDie s d with causes := rest }) th c

/-- Write a 64-byte fault record into the die's ring, or count it lost, and give the cause to a thread. -/
def raiseTo (s : State) (th : Nat) (code rid node : Nat) (tagw : Nat) (detail : List Byte) : State :=
  let d := th / 8
  let die := getDie s d
  let bytes := leBytes 1 code ++ leBytes 1 rid ++ leBytes 2 0 ++ leBytes 4 node ++ leBytes 8 s.htime ++ leBytes 8 tagw ++
    (detail ++ List.replicate 40 0).take 40
  let lostNow := decide (256 ≤ die.undelivered)
  let ix := die.ringIdx.toNat % 256
  let die' :=
    if lostNow then { die with lost := if die.lost = BitVec.ofNat 64 (2 ^ 64 - 1) then die.lost else die.lost + 1 }
    else { die with ring := Tab.set [] die.ring ix ((List.range 8).map fun i => BitVec.ofNat 64 (leNat ((bytes.drop (8 * i)).take 8))),
                    ringIdx := die.ringIdx + 1, undelivered := die.undelivered + 1 }
  postCause (setDie s d die') th
    { code := BitVec.ofNat 8 code, region := rid, record := if lostNow then 0 else fringBase + BitVec.ofNat 64 (64 * ix) }

/-- Raise an asynchronous cause toward the owner thread of a region. -/
def raiseCause (s : State) (rid code : Nat) (c : Nat) (slot : BitVec 11) (tagw : Nat) (detail : List Byte) : State :=
  let r := getRegion s rid
  raiseTo s r.owner code rid (nodeField r c slot) tagw detail

/-- The same, for a cause that concerns no node. -/
def raiseRegion (s : State) (rid code : Nat) (detail : List Byte) : State :=
  raiseTo s (getRegion s rid).owner code rid 0 0 detail

def aMATCH_OVERFLOW : Nat := 0x10
def aDEADLOCK : Nat := 0x11
def aTOKEN_LEAK : Nat := 0x12
def aWDOG : Nat := 0x13
def aQUEUE_WAIT : Nat := 0x14
def aFUTURE_REWRITE : Nat := 0x15
def aOP_ILLEGAL : Nat := 0x16
def aREPLAY_FAILED : Nat := 0x17
def aTWIN_MISMATCH : Nat := 0x18
def aPORT_FAULT_MAJOR : Nat := 0x19
def aKEY_REVOKED : Nat := 0x1A
def aSPLICE_BLOCKED : Nat := 0x1D
def aSPAN_LOST : Nat := 0x1E

/-! ### Leak counters (05 R175, R176) -/

def satAdd (x : BitVec 32) (n : Nat) : BitVec 32 :=
  if x.toNat + n < 2 ^ 32 then x + BitVec.ofNat 32 n else 0xFFFFFFFF

def leakDetail (r : Region) (reason : Nat) : List Byte :=
  leBytes 4 r.stale.toNat ++ leBytes 4 r.reclaimed.toNat ++ leBytes 4 r.discarded.toNat ++ leBytes 4 r.leakThr.toNat ++
  leBytes 1 reason

/-- Raise TOKEN_LEAK when a count, which node concerns, takes the sum of the leak counters past LEAKTHR (R176, R179). -/
def checkLeak (s : State) (rid node : Nat) : State :=
  let r := getRegion s rid
  if r.leakTrap && r.leakArmed && decide (r.leakThr.toNat < r.stale.toNat + r.reclaimed.toNat + r.discarded.toNat) then
    raiseTo (setRegion s rid { r with leakArmed := false }) r.owner aTOKEN_LEAK rid node 0 (leakDetail r 1)
  else s

def addStale (s : State) (rid node n : Nat) : State :=
  checkLeak (modRegion s rid fun r => { r with stale := satAdd r.stale n }) rid node
def addReclaimed (s : State) (rid node n : Nat) : State :=
  checkLeak (modRegion s rid fun r => { r with reclaimed := satAdd r.reclaimed n }) rid node
def addDiscarded (s : State) (rid node n : Nat) : State :=
  checkLeak (modRegion s rid fun r => { r with discarded := satAdd r.discarded n }) rid node
def addPurged (s : State) (rid n : Nat) : State := modRegion s rid fun r => { r with purged := satAdd r.purged n }

/-! ### Region-wide signals (11 R374) -/

/-- Raise a freeze of a LOADED region that enters Plumb at the given tick; with one on its way, the earlier tick stands
(06 R220). -/
def raiseFreeze (s : State) (rid entry : Nat) : State :=
  modRegion s rid fun r =>
    let t := entry + signalDelay r
    if r.state = .loaded ∧ (r.stopped = false ∨ r.thawAt ≠ none) then
      { r with freezeAt := some ((r.freezeAt.map (min t)).getD t) }
    else r

/-- A fault that the fabric detects enters its freeze in the tick after detection. -/
def faultFreeze (s : State) (rid : Nat) : State := raiseFreeze s rid (s.htime + 1)

/-- Put a signal on Plumb in this tick. -/
def raiseSignal (s : State) (rid : Nat) (g : Signal) : State :=
  modRegion s rid fun r => { r with signals := r.signals ++ [(s.htime + signalDelay r, g)] }

/-! ### Tokens on their way (01 R29 to R34; 05 R150) -/

/-- Tile lines named by a handle: first line and count (03 R85). -/
def handleBase (h : Word) : Nat := bits h 63 50
def handleLines (h : Word) : Nat := bits h 49 42 + 1

/-- The bytes of a run of lines, with the offsets of its words that read as poisoned; single errors are corrected. -/
def readLines (s : State) (c first n : Nat) : State × Payload :=
  let a := spAddr c (128 * first)
  let us := unitsOf a (128 * n)
  let r := us.foldl (fun acc u =>
    let (s, bad) := readUnit acc.1 u
    (s, if bad then acc.2 ++ [u - a] else acc.2)) (s, [])
  (r.1, { bytes := Mem.read r.1.mem a (128 * n), bad := r.2 })

/-- Write lines from a payload, marking its poisoned words. -/
def writeLines (s : State) (c first : Nat) (d : Payload) : State :=
  let a := spAddr c (128 * first)
  let s := setMem s (Mem.write s.mem a d.bytes)
  (unitsOf a d.bytes.length).foldl (fun s u => setChk s u (if d.bad.contains (u - a) then poisonMark .sp else 0)) s

/-- Send a token from a cluster: as a packet of the network, with its tile's bytes when it leaves the cluster (R150; a
quad-remote tile's from its owner), to another package when the die map names one, or dropped as a leak when it names
nothing. -/
def sendTok (s : State) (rid src : Nat) (t : Tok) : State :=
  let r := getRegion s rid
  let leaves (s : State) : State × Option Payload :=
    match t.kind with
    | .tile =>
      let owner := if bits t.payload 22 21 = 2 then src / 512 * 512 + bits t.payload 20 12 else src
      let (s, d) := readLines s owner (handleBase t.payload) (handleLines t.payload)
      (s, some d)
    | _ => (s, none)
  match regionCluster s r t.dst.die.toNat t.dst.cluster.toNat with
  | some c =>
    let (s, d) := if c = src then (s, none) else leaves s
    { s with net := s.net ++ [{ region := rid, src := src, dst := c, tok := t, data := d }] }
  | none =>
    if Tab.get 0 r.span t.dst.die.toNat = 0 then addDiscarded s rid 0 1
    else let (s, d) := leaves s; send s (.packet rid src t d)

/-- Sources of packets that are no clusters. -/
def srcHawk (d : Nat) : Nat := 2 ^ 20 + d
def srcPort (p : Nat) : Nat := 2 ^ 21 + p
def srcBank (b : Nat) : Nat := 2 ^ 22 + b
def srcPlumb : Nat := 2 ^ 23
def srcLink : Nat := 2 ^ 24

/-- Send a token from a unit that is no cluster, its tile's bytes with it. -/
def sendFrom (s : State) (rid src : Nat) (t : Tok) (d : Option Payload) : State :=
  let r := getRegion s rid
  match regionCluster s r t.dst.die.toNat t.dst.cluster.toNat with
  | some c => { s with net := s.net ++ [{ region := rid, src := src, dst := c, tok := t, data := d }] }
  | none => if Tab.get 0 r.span t.dst.die.toNat = 0 then addDiscarded s rid 0 1 else send s (.packet rid src t d)

end Sys2Proof.Machine
end

