-- ==== Sys2Proof/Machine/Operands.lean ====
section
/-! DEFINITION. Operand forms: tile handles and their checks (03 R85 to R87, 01 R27), the packing of elements (03 R86),
the tile pool (05 R150, R151), and scalar operands. -/

namespace Sys2Proof.Machine

/-- A list in runs of n. -/
def chunksOf {α : Type} (n : Nat) (l : List α) : List (List α) :=
  (List.range ((l.length + n - 1) / n)).map fun i => (l.drop (n * i)).take n

/-! ### Tile handles (03 R85) -/

structure Handle where
  base : Nat
  lines : Nat
  code : Nat
  rows : Nat
  pitch : Nat
  gen : Nat
  res : Nat
  owner : Nat
  epr : Nat
  deriving DecidableEq, Repr

/-- The fields of a handle, counts as counts. -/
def handleOf (h : Word) : Handle :=
  { base := bits h 63 50, lines := bits h 49 42 + 1, code := bits h 41 37, rows := bits h 36 30 + 1,
    pitch := bits h 29 27 + 1, gen := bits h 26 23, res := bits h 22 21, owner := bits h 20 12, epr := bits h 11 0 + 1 }

def Handle.word (h : Handle) : Word :=
  BitVec.ofNat 64 (h.base * 2 ^ 50 + (h.lines - 1) * 2 ^ 42 + h.code * 2 ^ 37 + (h.rows - 1) * 2 ^ 30 +
    (h.pitch - 1) * 2 ^ 27 + h.gen * 2 ^ 23 + h.res * 2 ^ 21 + h.owner * 2 ^ 12 + (h.epr - 1))

def Handle.fmt (h : Handle) : Fmt := (Fmt.ofCode h.code).getD .raw

/-- The handle of a fresh tile of a format and shape, in minimal layout. -/
def newHandle (f : Fmt) (rows epr base gen res owner : Nat) : Handle :=
  { base := base, lines := rows * pitchFor f epr, code := f.code, rows := rows, pitch := pitchFor f epr, gen := gen,
    res := res, owner := owner, epr := epr }

def Run.holds (r : Run) (first n : Nat) : Bool := decide (r.first ≤ first) && decide (first + n ≤ r.first + r.len)

/-- The cluster whose lines a handle names, for a firing in cluster c. -/
def tileCluster (c : Nat) (h : Handle) : Nat := if h.res = 2 then c / 512 * 512 + h.owner else c

/-- The quad of a logical cluster (01 R37). -/
def quadOf (cl : Nat) : Nat := cl / 32 * 8 + cl % 16 / 2

/-- Every line of a run lies in one of the pinned areas. -/
def linesPinned (pinned : List Run) (first n : Nat) : Bool :=
  (List.range n).all fun i => pinned.any fun r => r.holds (first + i) 1

/-- The pinned areas of a cluster as cluster c knows them: its own, or its quad peer's map of the last load (07 R240). -/
def pinnedAt (s : State) (c owner : Nat) : List Run :=
  if owner = c then (getCluster s c).pinned else Tab.get [] (getCluster s c).peers owner

/-- The lines lie in the area that RES names (03 R87, 07 R240). -/
def inArea (s : State) (c : Nat) (h : Handle) : Bool :=
  let k := getCluster s c
  match h.res with
  | 0 => match k.pool with | none => false | some p => p.holds h.base h.lines
  | 1 => linesPinned k.pinned h.base h.lines
  | 2 => decide (h.owner < 320) && quadOf h.owner == quadOf (c % 512) &&
         linesPinned (pinnedAt s c (tileCluster c h)) h.base h.lines
  | _ => false

/-- Step 1 of R87: the handle names an allowed tile. -/
def handleOk (s : State) (c : Nat) (h : Handle) : Bool :=
  (Fmt.ofCode h.code).isSome && h.res != 3 && h.lines == h.rows * h.pitch && decide (h.base + h.lines ≤ 16384) &&
  decide (rowBytes h.fmt h.epr ≤ h.pitch * 128) && (!h.fmt.isMx || h.epr % 32 == 0) && inArea s c h

inductive LinesAre where
  | ready | stale | waiting
  deriving DecidableEq, Repr

/-- R27 for the lines of a handle. -/
def linesAre (s : State) (c : Nat) (h : Handle) : LinesAre :=
  let k := tileCluster c h
  let ls := (List.range h.lines).map fun i => getLine s k (h.base + i)
  if ls.any fun l => l.gen.toNat != h.gen then .stale else if ls.all Line.full then .ready else .waiting

/-- The checks of R87 in order, for a tile operand whose format must be one of fs (none: any format). -/
def checkTile (s : State) (c : Nat) (w : Word) (fs : Option (List Fmt)) : Option (BitVec 8) :=
  let h := handleOf w
  if !handleOk s c h then some eBOUNDS
  else if (match fs with | none => false | some l => !l.contains h.fmt) then some eTYPE_MISMATCH
  else if linesAre s c h = .stale then some eREPLAY_STALE else none

/-- The outcome of several operands' checks: the steps of R87 in order over all of them. -/
def firstError (es : List (Option (BitVec 8))) : Option (BitVec 8) :=
  if es.contains (some eBOUNDS) then some eBOUNDS
  else if es.contains (some eTYPE_MISMATCH) then some eTYPE_MISMATCH
  else (es.filterMap id).head?

/-! ### Elements (03 R86) -/

/-- Element j of a row's bytes. -/
def elemAt (f : Fmt) (bs : List Byte) (j : Nat) : Nat :=
  match fmtBits f with
  | 1 => if ((bs.getD (j / 8) 0).getLsbD (j % 8)) then 1 else 0
  | 4 => (bs.getD (j / 2) 0).toNat / (if j % 2 = 0 then 1 else 16) % 16
  | w => leNat ((bs.drop (j * (w / 8))).take (w / 8))

def pairNibbles : List Nat → List Byte
  | a :: b :: t => BitVec.ofNat 8 (a % 16 + 16 * (b % 16)) :: pairNibbles t
  | [a] => [BitVec.ofNat 8 (a % 16)]
  | [] => []

def packBits (es : List Nat) : List Byte :=
  (List.range ((es.length + 7) / 8)).map fun i =>
    BitVec.ofNat 8 ((List.range 8).foldl (fun acc b => acc + es.getD (8 * i + b) 0 % 2 * 2 ^ b) 0)

/-- The bytes of a row of elements. -/
def packElems (f : Fmt) (es : List Nat) : List Byte :=
  match fmtBits f with
  | 1 => packBits es
  | 4 => pairNibbles es
  | w => es.flatMap fun e => leBytes (w / 8) e

/-- A tile's contents: rows of elements as bit patterns, and rows of mx scales. -/
structure Tile where
  fmt : Fmt
  epr : Nat
  elems : List (List Nat)
  scales : List (List Nat)
  deriving DecidableEq, Repr

def Tile.rows (t : Tile) : Nat := t.elems.length
def Tile.at_ (t : Tile) (i j : Nat) : Nat := (t.elems.getD i []).getD j 0
def Tile.scaleAt (t : Tile) (i k : Nat) : Nat := (t.scales.getD i []).getD k 0

def elemBytes (f : Fmt) (n : Nat) : Nat := (n * fmtBits f + 7) / 8

def unpackRow (f : Fmt) (n : Nat) (bs : List Byte) : List Nat := (List.range n).map (elemAt f bs)
def unpackScales (f : Fmt) (n : Nat) (bs : List Byte) : List Nat :=
  if f.isMx then (List.range (n / 32)).map fun k => (bs.getD (elemBytes f n + k) 0).toNat else []

/-- A tile from the bytes of its rows. -/
def tileOfRows (f : Fmt) (n : Nat) (rows : List (List Byte)) : Tile :=
  { fmt := f, epr := n, elems := rows.map (unpackRow f n), scales := rows.map (unpackScales f n) }

/-- The bytes of one row of a tile, scales included. -/
def Tile.rowBytes (t : Tile) (i : Nat) : List Byte :=
  packElems t.fmt (t.elems.getD i []) ++ (t.scales.getD i []).map fun x => BitVec.ofNat 8 x

/-- The bytes of a handle's rows, from the bytes of its lines. -/
def rowsOf (h : Handle) (bs : List Byte) : List (List Byte) :=
  (List.range h.rows).map fun i => (bs.drop (i * h.pitch * 128)).take (rowBytes h.fmt h.epr)

/-- Some poisoned word of the lines holds part of a row's elements or scales. -/
def rowsBad (h : Handle) (bad : List Nat) : Bool :=
  bad.any fun o => decide (o % (h.pitch * 128) < rowBytes h.fmt h.epr)

/-- Read a tile on the SP path: its contents, and whether any of it reads as poisoned. -/
def readTile (s : State) (c : Nat) (w : Word) : State × Tile × Bool :=
  let h := handleOf w
  let (s, d) := readLines s (tileCluster c h) h.base h.lines
  (s, tileOfRows h.fmt h.epr (rowsOf h d.bytes), rowsBad h d.bad)

/-! ### The tile pool (05 R150, R151) -/

def Run.meets (r : Run) (first n : Nat) : Bool := decide (first < r.first + r.len) && decide (r.first < first + n)

/-- The pool less the reservation runs at its top. -/
def generalPool (k : Cluster) : Option Run :=
  k.pool.map fun p => { p with len := p.len - (k.reserved.map Run.len).foldl (· + ·) 0 }

/-- The lowest-based free run of n lines in the general pool. -/
def findRun (k : Cluster) (n : Nat) : Option Nat :=
  match generalPool k with
  | none => none
  | some p =>
    let starts := p.first :: k.allocs.map fun r => r.first + r.len
    let ok := starts.filter fun b => p.holds b n && !k.allocs.any fun r => r.meets b n
    ok.foldl (fun m b => match m with | none => some b | some x => some (min x b)) none

/-- The common new generation of a run (R150). -/
def newGen (k : Cluster) (first n : Nat) : BitVec 4 :=
  let gens := (List.range n).map fun i => (Tab.get Line.empty k.lines (first + i)).gen
  let g0 := (Tab.get Line.empty k.lines first).gen
  let ds := ((List.range 15).map (· + 1)).filter fun d => !gens.contains (g0 + BitVec.ofNat 4 d)
  g0 + BitVec.ofNat 4 (ds.headD 1)

/-- Give every line of a run one generation, empty. -/
def freshLines (k : Cluster) (first n : Nat) (g : BitVec 4) : Cluster :=
  let put (t : Tab Line) (i : Nat) : Tab Line := Tab.set Line.empty t (first + i) { full := false, gen := g, written := 0 }
  { k with lines := (List.range n).foldl put k.lines }

/-- The tag's colour is the oldest live colour of its context. -/
def isOldest (r : Region) (t : Tag) : Bool :=
  match (getCtx r t.ctx.toNat).live with
  | [] => false
  | c :: _ => c.col == t.col && c.gen == t.gen

/-- Allocate n lines from a cluster's pool for a tag: the general pool, or the context's reservation for its oldest live
colour. None if the pool cannot supply them. -/
def allocLines (s : State) (rid c : Nat) (t : Tag) (n : Nat) : Option (State × Nat × BitVec 4) :=
  let k := getCluster s c
  let take (first : Nat) (ctx : Option (BitVec 8)) : State × Nat × BitVec 4 :=
    let g := newGen k first n
    let k := freshLines k first n g
    (setCluster s c { k with allocs := k.allocs ++ [{ first := first, len := n, ctx := ctx }] }, first, g)
  match findRun k n with
  | some b => some (take b none)
  | none =>
    match k.reserved.find? fun r => r.ctx == some t.ctx && decide (n ≤ r.len) with
    | some r =>
      if isOldest (getRegion s rid) t && !k.allocs.any (fun a => a.ctx == some t.ctx) then some (take r.first (some t.ctx))
      else none
    | none => none

/-- Mark lines as wholly written: full, every granule written. -/
def markFull (s : State) (c first n : Nat) : State :=
  let put (t : Tab Line) (i : Nat) : Tab Line :=
    Tab.set Line.empty t (first + i) { Tab.get Line.empty t (first + i) with full := true, written := 0xF }
  modCluster s c fun k => { k with lines := (List.range n).foldl put k.lines }

/-- Mark granules of a line as written by a filling write: the full bit sets when all four are (02 R47, 08 R254). -/
def markGranules (s : State) (c l : Nat) (m : BitVec 4) : State :=
  let x := getLine s c l
  let w := x.written ||| m
  setLine s c l { x with written := w, full := x.full || w == 0xF }

/-- Write the rows of a tile into its lines, leaving the bytes beyond each row (R86). -/
def writeRows (s : State) (c : Nat) (h : Handle) (rows : List (List Byte)) (poison : Bool) : State :=
  (List.range h.rows).foldl (fun s i =>
    (writeMem s (spAddr c (128 * (h.base + i * h.pitch))) (rows.getD i []) poison).1) s

/-- Put a result tile into the firing cluster's pool: its handle, or none if the pool cannot supply it (06 R183, R184). -/
def putTile (s : State) (rid c : Nat) (tag : Tag) (t : Tile) (poison : Bool) : Option (State × Word) :=
  let n := t.rows * pitchFor t.fmt t.epr
  match allocLines s rid c tag n with
  | none => none
  | some (s, b, g) =>
    let h := newHandle t.fmt t.rows t.epr b g.toNat 0 (c % 512)
    let s := writeRows s c h ((List.range t.rows).map t.rowBytes) poison
    some (markFull s c b n, h.word)

/-! ### Scalar operands -/

/-- Tokens that a scalar port takes: scalar, done or bitmap (05 R154). -/
def isScalar (t : Tok) : Bool := t.kind == .scalar || t.kind == .done || t.kind == .bitmap

def tokAt (f : Firing) (i : Nat) : Tok := f.toks.getD i Tok.none

/-- The handle of a token is a tile handle: kind tile, or a bitmap that names a tile is not one for this purpose. -/
def isTile (t : Tok) : Bool := t.kind == .tile

end Sys2Proof.Machine
end

