-- ==== Sys2Proof/Machine/Fire.lean ====
section
/-! DEFINITION. What every firing has in common: destinations (03 R74, R75), colours and spawn records (01 R19 to R24,
05 R152), purge requests and irrevocable handshakes (05 R171, 01 R43), flags (03 R96, 06 R192), and the emission of
results and errors (01 R28, 05 R154). -/

namespace Sys2Proof.Machine

/-- The node of a firing as records name it. -/
def firingNode (s : State) (f : Firing) : Nat := nodeField (getRegion s f.region) f.cluster f.slot

/-! ### Destinations (03 R73 to R75) -/

/-- Entry i of a route word, as a destination on the sending node's die. -/
def routeEntry (die : BitVec 3) (w : Word128) (i : Nat) : Dst :=
  { valid := true, port := w.extractLsb' (21 * i + 19) 2, die := die, cluster := w.extractLsb' (21 * i + 10) 9,
    slot := (w.extractLsb' 127 1 ++ w.extractLsb' (21 * i) 10 : BitVec 11), rwi := 0 }

/-- The destinations of a firing in the order of R75, each with its place: DST0 0, DST1 1, Ei 2 + i. -/
def destinations (s : State) (f : Firing) (o : Op) : List (Nat × Dst) :=
  let die := BitVec.ofNat 3 ((getRegion s f.region).dieIx (f.cluster / 512))
  (if o.dst0.valid then [(0, { o.dst0 with rwi := 0 })] else []) ++
  (if o.dst1.valid then [(1, { o.dst1 with rwi := 0 })] else []) ++
  (List.range o.rwi).map fun i => (2 + i, routeEntry die f.route i)

/-- A result on its way: the place it goes to, and the token without its tag. -/
structure Out where
  dst : Dst
  kind : Kind
  flag : Flag
  payload : Word
  deriving DecidableEq, Repr

def outTo (ds : List (Nat × Dst)) (k : Kind) (fl : Flag) (p : Word) : List Out :=
  ds.map fun d => { dst := d.2, kind := k, flag := fl, payload := p }

/-- The same result on every destination. -/
def outAll (s : State) (f : Firing) (o : Op) (k : Kind) (fl : Flag) (p : Word) : List Out :=
  outTo (destinations s f o) k fl p

/-- A token passed on as it is. -/
def passTo (ds : List (Nat × Dst)) (t : Tok) : List Out := outTo ds t.kind t.flag t.payload

/-- One token on DST0 and the route entries and another on DST1, in the order of the destinations (03 R75). -/
def twoTo (ds : List (Nat × Dst)) (t0 t1 : Tok) : List Out := ds.flatMap fun d => passTo [d] (if d.1 = 1 then t1 else t0)

/-! ### Spawn records (05 R152) -/

/-- The address of a colour's spawn record: its line in its context's home cluster. -/
def spawnAddr (s : State) (r : Region) (ctx line : Nat) : Nat := spAddr ((homeOf s r ctx).getD 0) (128 * line)

def pokeN (s : State) (a n v : Nat) : State := setMem s (Mem.write s.mem a (leBytes n v))

/-- STATE of a spawn record: PEND 7, OVER 6, RQ 5, replay count 1..0. -/
def spawnState (s : State) (r : Region) (t : Tag) : Nat :=
  match liveColour r t with
  | none => 0
  | some c => peek s (spawnAddr s r t.ctx.toNat c.line + 7) 1

def isPending (s : State) (r : Region) (t : Tag) : Bool := (spawnState s r t).testBit 7

def setSpawnState (s : State) (r : Region) (t : Tag) (v : Nat) : State :=
  match liveColour r t with
  | none => s
  | some c => pokeN s (spawnAddr s r t.ctx.toNat c.line + 7) 1 v

/-- One more carried token in a spawn record, with the destination it went to (none for CTX.ENTER and CTX.NEXT); beyond
four, OVER is set. -/
def carry (s : State) (a : Nat) (t : Tok) (dest : Nat) : State :=
  let n := peek s (a + 6) 1
  if 4 ≤ n then pokeN s (a + 7) 1 (peek s (a + 7) 1 ||| 0x40)
  else
    let s := pokeN s (a + 4) 2 (peek s (a + 4) 2 + kindCode t.kind * 8 ^ n)
    let s := pokeN s (a + 6) 1 (n + 1)
    let s := pokeN s (a + 8 + n) 1 (flagBits t.flag)
    let s := pokeN s (a + 16 + 8 * n) 8 t.payload.toNat
    pokeN s (a + 104 + 4 * n) 4 dest

/-- A destination in the DST layout with its cluster relative and its port (R152). -/
def destField (r : Region) (d : Dst) : Nat :=
  dstBits { d with valid := true, rwi := 0, cluster := BitVec.ofNat 9 (r.relative d.cluster.toNat) }

/-- Begin a spawn record: node, key colour and the frame at creation. -/
def beginSpawn (s : State) (a node key : Nat) (f : Vector Word 7) : State :=
  let s := setMem s (Mem.write s.mem a (List.replicate 128 0))
  let s := pokeN s a 4 node
  let s := pokeN s (a + 12) 2 key
  (List.range 7).foldl (fun s i => pokeN s (a + 48 + 8 * i) 8 (f.toList.getD i 0).toNat) s

/-! ### Colours (01 R19 to R24) -/

/-- A spawn line of the context's home cluster that no live or waiting colour of a context homed there uses; where the area is
absent or too short, its first line (notes/assumptions/111.md). -/
def freeSpawnLine (s : State) (r : Region) (ctx : Nat) : Nat :=
  match homeOf s r ctx with
  | none => 0
  | some h =>
    let used := r.ctxs.flatMap fun e =>
      if homeOf s r e.1 = some h then e.2.live.map Colour.line ++ e.2.waiting.map Waiting.line else []
    match (getCluster s h).spawn with
    | none => 0
    | some a => ((List.range a.len).map (a.first + ·)).find? (fun l => !used.contains l) |>.getD a.first

/-- The home cluster refuses an allocation (R19). -/
def allocRefused (x : Ctx) : Bool :=
  decide (x.window ≤ x.live.length) || x.live.any (fun c => c.col == x.ptr) || x.quarantine.any fun q => q.1 == x.ptr

/-- Put a new colour at the allocation pointer. -/
def takeColour (x : Ctx) (c : Colour) : Ctx := { x with ptr := x.ptr + 1, live := x.live ++ [c] }

/-- Allocate a colour in a context: its tag, with an empty spawn record that names the creating node. None while the home
cluster refuses, or while a replay waits for the context's next colour (R21). -/
def allocColour (s : State) (rid ctx : Nat) (parent : Option Tag) (node : Nat) (f : Vector Word 7) (mode : BitVec 3) :
    Option (State × Tag) :=
  let r := getRegion s rid
  let x := getCtx r ctx
  if !x.declared || allocRefused x || !x.waiting.isEmpty then none
  else
    let line := freeSpawnLine s r ctx
    let c : Colour :=
      { col := x.ptr, gen := x.gen, key := x.ptr, parent := parent, f := f, flags := 0, rmode := mode, rmode0 := mode,
        irrev := false, succ := none, count := 0, exits := false, nexts := false, line := line }
    let s := beginSpawn s (spawnAddr s r ctx line) node x.ptr.toNat f
    some (setRegion s rid (setCtx r ctx (takeColour x c)), { ctx := BitVec.ofNat 8 ctx, col := c.col, gen := c.gen })

def zeroFrame : Vector Word 7 := Vector.replicate 7 0

/-- The set of a key (05 R141). -/
def setIndex (slot : BitVec 11) (t : Tag) : Nat :=
  ((slot.extractLsb' 0 10 ^^^ t.col.extractLsb' 0 10) ^^^ ((t.ctx.zeroExtend 10) <<< 2)).toNat

/-- An entry of the token's set, or of the overflow buffer, is among these. -/
def freesFor (gone : List Entry) (t : Tok) : Bool :=
  gone.any fun e => match e.place with
    | .over _ => true
    | .way _ => setIndex e.slot e.tag == setIndex t.dst.slot t.tag
    | .bypass => false

/-- A waiting token's time starts anew when an entry of its set or of the overflow buffer frees (05 R144). -/
def waitAnew (now : Nat) (gone : List Entry) (k : Cluster) : Cluster :=
  { k with arrivals := k.arrivals.map fun a => if freesFor gone a.tok then { a with since := now } else a }

/-- Reclaim the half-matched entries of a freed colour: each cell but KEEP cells is counted (R23, 05 R145). -/
def reclaim (s : State) (rid : Nat) (t : Tag) : State :=
  let gone (e : Entry) : Bool := e.region == rid && e.tag == t && e.st == .part
  let n := (s.clusters.map fun c => ((c.2.entries.filter gone).map fun e =>
    (e.cells.filter fun x => match x with | some k => !k.flag.keep | none => false).length).foldl (· + ·) 0).foldl (· + ·) 0
  let node := (s.clusters.findSome? fun c => (c.2.entries.find? gone).map fun e => nodeField (getRegion s rid) c.1 e.slot).getD 0
  let s := { s with clusters := s.clusters.map fun c =>
    if c.2.entries.any gone then (c.1, waitAnew s.htime (c.2.entries.filter gone) { c.2 with entries := c.2.entries.filter fun e => !gone e })
    else c }
  if n = 0 then s else addReclaimed s rid node n

/-- A retiring strand tells the crews it belongs to (01 R25): the departure travels to each crew's root. A value that it was
to broadcast and that has not entered Plumb never arrives (11 R363). -/
def leaveCrews (s : State) (rid : Nat) (t : Tag) : State :=
  let gone := s.plumb.crews.filter fun e => e.2.used && e.2.region == rid && e.2.members.any fun m => m.tag == t
  let ups := gone.map fun e => ({ crew := e.1, at_ := s.htime + (if e.2.pkg then 48 else 24), entry := s.htime,
                                  firing := Firing.none, ask := .drop t, held := false, data := none, gone := false } : Up)
  let late (u : Up) : Bool := u.ask == .send && u.firing.region == rid && u.firing.tag == t && decide (s.htime < u.entry)
  { s with plumb := { s.plumb with ups := s.plumb.ups.filter (fun u => !late u) ++ ups } }

/-- Free a colour (R22): remove it, OR its flags onward, reclaim its half-matched cells and leave its crews. -/
def freeColour (s : State) (rid : Nat) (t : Tag) (intoSucc : Bool) : State :=
  let r := getRegion s rid
  match liveColour r t with
  | none => s
  | some c =>
    let onto := if intoSucc then c.succ else c.parent
    let r := match onto with
      | none => r
      | some p => modColour r p fun k =>
          { k with flags := k.flags ||| c.flags, irrev := k.irrev || (!intoSucc && c.irrev) }
    let x := getCtx r t.ctx.toNat
    let r := setCtx r t.ctx.toNat { x with live := x.live.filter fun k => k.col != c.col }
    leaveCrews (reclaim (setRegion s rid r) rid t) rid t

/-! ### Purges and irrevocable effects (05 R171; 01 R43) -/

/-- Some live colour other than t has t on its parent chain and IRREV set. -/
def descends (r : Region) (t : Tag) : Nat → Tag → Bool
  | 0, _ => false
  | n + 1, u =>
    match liveColour r u with
    | none => false
    | some c => match c.parent with
      | none => false
      | some p => p == t || descends r t n p

def liveTags (r : Region) : List Tag :=
  r.ctxs.flatMap fun e => e.2.live.map fun c => { ctx := BitVec.ofNat 8 e.1, col := c.col, gen := c.gen }

def irrevBelow (r : Region) (t : Tag) : Bool :=
  (liveTags r).any fun u => ((liveColour r u).map Colour.irrev).getD false && (u == t || descends r t 4096 u)

/-- The signal of a purge that the home cluster takes: PEND is set, and the activation fails or is replayed (R171). -/
def raisePurge (s : State) (rid : Nat) (t : Tag) : State :=
  let r := getRegion s rid
  let st := spawnState s r t
  let s := setSpawnState s r t (st ||| 0x80)
  if irrevBelow r t then raiseSignal s rid (.fail t 1 ePOISON)
  else if st.testBit 6 then raiseSignal s rid (.fail t 4 ePOISON)
  else if st % 4 = 3 then raiseSignal s rid (.fail t 3 ePOISON)
  else raiseSignal s rid (.purge t true)

/-- The home cluster decides a purge request (R171): absorbed, failed, or a purge signal. -/
def requestPurge (s : State) (rid : Nat) (t : Tag) : State :=
  let r := getRegion s rid
  if !isLive r t || isPending s r t then s else raisePurge s rid t

/-- Report an activation failed at once, for a reason (05 R170, R174). -/
def requestFail (s : State) (rid : Nat) (t : Tag) (reason code : BitVec 8) : State :=
  let r := getRegion s rid
  if !isLive r t || isPending s r t then s
  else raiseSignal (setSpawnState s r t (spawnState s r t ||| 0x80)) rid (.fail t reason code)

/-- Set the strand's irrevocable bit; none when the home cluster refuses it (R43, 05 R172). -/
def handshake (s : State) (rid : Nat) (t : Tag) : Option State :=
  let r := getRegion s rid
  if !isLive r t || isPending s r t then none
  else some (setRegion s rid (modColour r t fun c => { c with irrev := true }))

def strandIrrev (s : State) (rid : Nat) (t : Tag) : Bool :=
  ((liveColour (getRegion s rid) t).map Colour.irrev).getD false

/-! ### Flags (03 R96, R97) -/

/-- The home cluster ORs flags into f7, or drops them: counted for a freed colour, not while a purge is pending. -/
def recordFlags (s : State) (rid node : Nat) (t : Tag) (fl : Flags) : State :=
  let r := getRegion s rid
  if !isLive r t then addStale s rid node 1
  else if isPending s r t then s
  else setRegion s rid (modColour r t fun c => { c with flags := c.flags ||| fl })

/-- RND as it applies to a firing: code 6 is the mode the strand held when it issued (03 R92, R95). -/
def rndOf (f : Firing) (o : Op) : Rnd :=
  match o.rnd with
  | .dyn => match f.rmode.toNat with | 0 => .rne | 1 => .rtz | 2 => .rup | 3 => .rdn | 4 => .rna | _ => .rst
  | r => r

/-- The random bits of RST for one element of a firing's output (03 R92). -/
def rstBits (s : State) (f : Firing) (elem : Nat) : Nat :=
  let key := ((liveColour (getRegion s f.region) f.tag).map Colour.key).getD f.tag.col
  counterBits32 f.tag.ctx key f.slot elem

/-! ### What an operator does -/

inductive Act where
  /-- The result tokens, the flags raised and the index of the first element that raised an enabled one. -/
  | done (s : State) (outs : List Out) (raised : Flags) (elem : Nat)
  /-- An error firing with a code and an element index. -/
  | error (code : BitVec 8) (elem : Nat)
  /-- A poisoned value would be used: the strand is purged (R28). -/
  | purge
  /-- Held back (R41). -/
  | hold
  /-- Nothing is emitted now: another step goes on with the firing. -/
  | later (s : State)

/-- The place among a cluster's entries of the one that a firing was handed out from (05 R145). -/
def issuedEntry (k : Cluster) (f : Firing) : Option Nat :=
  k.entries.findIdx? fun e => match e.st with
    | .issued n _ => n == f.agent && e.region == f.region && e.slot == f.slot && e.tag == f.tag
    | _ => false

/-- A firing that its engine passes over stays matched, in its place of the store and of the order (05 R145, R147); one
that no entry holds any more comes back as an entry of its own. -/
def requeue (s : State) (f : Firing) : State :=
  modCluster s f.cluster fun k =>
    match issuedEntry k f with
    | some i => { k with entries := k.entries.modify i fun e => { e with st := .held f.agent f.stale s.htime } }
    | none =>
      { k with entries := k.entries ++ [{ region := f.region, slot := f.slot, tag := f.tag, cells := f.toks.map some,
                                          seq := k.nextSeq, place := .bypass, st := .held f.agent f.stale s.htime }],
               nextSeq := k.nextSeq + 1 }

inductive TagIs where
  | tag (s : State) (t : Tag)
  /-- No parent: nothing is sent. -/
  | none
  /-- The firing colour is not live: the tokens are stale. -/
  | dead
  | refused

/-- The tag of emitted tokens under XFM (01 R20). fresh: the colour that .new has allocated needs its spawn record. -/
def tagUnder (s : State) (f : Firing) (x : Xfm) : TagIs :=
  let r := getRegion s f.region
  match x with
  | .keep => .tag s f.tag
  | .exit | .free =>
    match liveColour r f.tag with
    | Option.none => .dead
    | some c => match c.parent with
      | Option.none => .none
      | some p => .tag s p
  | .new =>
    match liveColour r f.tag with
    | Option.none => .dead
    | some c => match allocColour s f.region f.tag.ctx.toNat (some f.tag) (nodeField r f.cluster f.slot) zeroFrame c.rmode with
      | Option.none => .refused
      | some (s, t) => .tag s t
  | .next =>
    match liveColour r f.tag with
    | Option.none => .dead
    | some c => match c.succ with
      | some t => .tag s t
      | Option.none =>
        match allocColour s f.region f.tag.ctx.toNat c.parent (nodeField r f.cluster f.slot) c.f c.rmode with
        | Option.none => .refused
        | some (s, t) =>
          .tag (setRegion s f.region (modColour (getRegion s f.region) f.tag fun k => { k with succ := some t })) t

/-- A result as a token: its tag, and IRREV once the strand's bit is set (R43). -/
def Out.tok (o : Out) (t : Tag) (irrev : Bool) : Tok :=
  { dst := o.dst, tag := t, kind := o.kind, flag := { o.flag with irrev := o.flag.irrev || irrev }, payload := o.payload }

/-- Send a firing's tokens in order from its cluster. -/
def sendOuts (s : State) (f : Firing) (ts : List Tok) : State := ts.foldl (fun s t => sendTok s f.region f.cluster t) s

/-- Under XFM new and next, the emitted tokens are the carried tokens of the new colour (R152). -/
def carryOuts (s : State) (f : Firing) (t : Tag) (ts : List Tok) : State :=
  let r := getRegion s f.region
  match liveColour r t with
  | none => s
  | some c =>
    let a := spawnAddr s r t.ctx.toNat c.line
    ts.foldl (fun s k => carry s a k (destField r k.dst)) s

/-- FP_TRAP's record detail (06 R192). -/
def fpTrapDetail (raised en : Flags) (ecl elem : Nat) (tok : Option Tok) (f7w : Word) : List Byte :=
  leBytes 1 raised.toNat ++ leBytes 1 (raised &&& en).toNat ++ leBytes 1 ecl ++ leBytes 1 0 ++ leBytes 4 elem ++
  (match tok with | none => leBytes 16 0 | some t => leBytes 8 (headerBits t).toNat ++ leBytes 8 t.payload.toNat) ++
  leBytes 8 f7w.toNat

/-- A firing's flags trap: FE, an enabled flag, and a colour whose home cluster takes them (06 R192, R220). -/
def flagsTrap (s : State) (f : Firing) (o : Op) (raised : Flags) : Bool :=
  let r := getRegion s f.region
  o.fe && (raised &&& r.fpTrap) != 0 && isLive r f.tag && !isPending s r f.tag

/-- A trapping firing's tokens go to its cluster's capture buffer, with a freeze and FP_TRAP (06 R192); a tile from another
unit comes with its bytes. -/
def captureWith (s : State) (f : Firing) (ts : List Tok) (data : Option Payload) (raised : Flags) (elem : Nat) : State :=
  let s := modCluster s f.cluster fun k =>
    { k with capture := k.capture ++ ts.map fun t => { region := f.region, src := f.cluster, tok := t,
                                                       data := if t.kind = .tile then data else none } }
  let s := faultFreeze s f.region
  let r := getRegion s f.region
  raiseCause s f.region cFP_TRAP f.cluster f.slot (tagBits f.tag .scalar Flag.none)
    (fpTrapDetail raised r.fpTrap (bits f.word 127 125) elem ts.head? (((liveColour r f.tag).map f7).getD 0))

def captureTrap (s : State) (f : Firing) (ts : List Tok) (raised : Flags) (elem : Nat) : State :=
  captureWith s f ts none raised elem

/-- Record a firing's flags under FE (03 R96). -/
def putFlags (s : State) (f : Firing) (o : Op) (raised : Flags) : State :=
  if o.fe && raised != 0 then recordFlags s f.region (firingNode s f) f.tag raised else s

/-- Emit a firing's results under a tag in state s (which holds the tag's colour effects already), after its flag
handshake: to the network, or to the capture buffer when an enabled flag was raised (03 R96, 06 R192). Under XFM free the
colour is freed afterwards. -/
def emit (s : State) (f : Firing) (o : Op) (x : Xfm) (tag : TagIs) (outs : List Out) (raised : Flags) (elem : Nat) : State :=
  let irrev := strandIrrev s f.region f.tag
  let finish (s : State) (tg : Option Tag) : State :=
    let ts := match tg with | none => [] | some t => outs.map fun k => k.tok t irrev
    let s := putFlags s f o raised
    let s := match tg with
      | some t => if x = .new ∨ x = .next then carryOuts s f t ts else s
      | none => s
    let s := if flagsTrap s f o raised then captureTrap s f ts raised elem else sendOuts s f ts
    if x = .free then freeColour s f.region f.tag false else s
  match tag with
  | .tag _ t => finish s (some t)
  | .none => finish s none
  | .dead => addStale (finish s none) f.region (firingNode s f) outs.length
  | .refused => s

/-- A TAGX word: its error token is counted where it has nowhere to go (05 R160). -/
def isTagx (w : Word128) : Bool := bits w 127 117 == 0x0B

/-- Emit one error token on each of the given destinations (01 R28). -/
def emitError (s : State) (f : Firing) (o : Op) (x : Xfm) (tag : TagIs) (ds : List (Nat × Dst)) (p : Word) : State :=
  let s := if isTagx f.word && ds.isEmpty then addDiscarded s f.region (firingNode s f) 1 else s
  emit s f { o with fe := false } x tag (outTo ds .error Flag.none p) 0 0

/-- Perform a firing: error operands, then the colour of XFM, then the checks of R87 (a stale tile is step 3) and the
operator's own effect, which learns the tag of its results; a firing whose colour or pool lines are refused stays matched
(R21, R41). -/
def fireTagged (s : State) (o : Op) (x : Xfm) (errs : Firing → List (Nat × Dst)) (body : State → Firing → TagIs → Act) :
    State :=
  let f := s.firing
  let tg := tagUnder s f x
  match tg with
  | .refused => requeue s f
  | _ =>
    let s1 := match tg with | .tag s' _ => s' | _ => s
    let r := getRegion s f.region
    let err (code : BitVec 8) (elem : Nat) : State :=
      emitError s1 f o x tg (errs f) (errorPayload r f.cluster f.slot elem code)
    match f.toks.find? fun t => t.kind == .error with
    | some t => emitError s1 f o x tg (errs f) t.payload
    | none =>
      match f.stale, body s1 f tg with
      | _, .error code elem =>
        if f.stale && code != eBOUNDS && code != eTYPE_MISMATCH then err eREPLAY_STALE 0 else err code elem
      | true, _ => err eREPLAY_STALE 0
      | false, .done s2 outs raised elem => emit s2 f o x tg outs raised elem
      | false, .purge => requestPurge s f.region f.tag
      | false, .hold => requeue s f
      | false, .later s2 => s2

/-- The same for an operator that does not look at its results' tag. -/
def fireWith (s : State) (o : Op) (x : Xfm) (errs : Firing → List (Nat × Dst)) (body : State → Firing → Act) : State :=
  fireTagged s o x errs fun s f _ => body s f

/-- The ordinary case: the word's own XFM, errors on every destination. -/
def fire (s : State) (o : Op) (body : State → Firing → Act) : State :=
  fireWith s o o.xfm (fun f => destinations s f o) body

/-! ### Firings that another unit goes on with (09 R288, 10 R325, 12 R405) -/

/-- A firing whose results go nowhere: its word without destinations (01 R20: no parent). -/
def muted (f : Firing) : Firing :=
  { f with word := f.word &&& ~~~(0x8000000080000000 ||| 0x3F : Word128) }

/-- A firing as another unit holds it, with the tag of its results. -/
def firingUnder (f : Firing) (tg : TagIs) : Firing × Tag :=
  match tg with
  | .tag _ t => (f, t)
  | .dead => (f, f.tag)
  | .none | .refused => (muted f, f.tag)

/-- A tile's bytes travel with tile tokens only. -/
def dataFor (t : Tok) (data : Option Payload) : Option Payload := if t.kind = .tile then data else none

/-- Send a firing's results from the unit that performed it, under its result tag. -/
def answer (s : State) (f : Firing) (tag : Tag) (src : Nat) (outs : List Out) (data : Option Payload) : State :=
  let irrev := strandIrrev s f.region f.tag
  outs.foldl (fun s k => sendFrom s f.region src (k.tok tag irrev) (dataFor (k.tok tag irrev) data)) s

/-- A firing's results as tokens under its result tag. -/
def outToks (s : State) (f : Firing) (tag : Tag) (outs : List Out) : List Tok :=
  outs.map fun k => k.tok tag (strandIrrev s f.region f.tag)

/-- Send one error token on each of some destinations. -/
def answerError (s : State) (f : Firing) (tag : Tag) (src : Nat) (ds : List (Nat × Dst)) (code : BitVec 8) (elem : Nat) :
    State :=
  let r := getRegion s f.region
  answer s f tag src (outTo ds .error Flag.none (errorPayload r f.cluster f.slot elem code)) none

end Sys2Proof.Machine
end

