-- ==== Sys2Proof/Machine/Xlate.lean ====
section
/-! DEFINITION. Virtual addresses: the windows (02 R49 to R52), translation (09 R291 to R296), and the bank words that an
access outside the Bank Engine touches (10 R321 to R323, R330). -/

namespace Sys2Proof.Machine

/-! ### Windows (02 R49 to R52) -/

def bankWindow : Nat := 0x00FFE00000000000
def scratchWindow : Nat := 0x00FFF00000000000
def lowerTop : Nat := 2 ^ 56

/-- The window of an address of the lower half: 0 global, 1 bank, 2 scratchpad. -/
def windowOf (a : Nat) : Nat := if a < bankWindow then 0 else if a < scratchWindow then 1 else 2

/-- Bits 63..57 all equal bit 56. -/
def canonical (a : Nat) : Bool := a / 2 ^ 56 == 0 || a / 2 ^ 56 == 255

/-- The die that region die index i names: a die of this package, or 8 + 8 × pkg + d for die d of a peer package. -/
def regionDie (r : Region) (i : Nat) : Option Nat :=
  match r.dies.getD i none with
  | some d => some d
  | none =>
    let e : Word := Tab.get 0 r.span i
    if e.getLsbD 63 then some (8 + 8 * bits e 15 4 + bits e 2 0) else none

/-- Where an element lies. -/
inductive Loc where
  | fail (code : BitVec 8)
  /-- A flat bank address. -/
  | bank (a : Nat)
  /-- A byte of a cluster's scratchpad. -/
  | scratch (c off : Nat)
  | global (a : Nat)
  deriving DecidableEq, Repr

/-- A byte of the bank window, as die and offset (R51). -/
def bankPlace (r : Region) (a : Nat) : Option (Nat × Nat) :=
  let w := a - bankWindow
  if 2 ^ 29 ≤ w then none else (regionDie r (w / 2 ^ 26)).map fun d => (d, w % 2 ^ 26)

/-- A byte of the scratchpad window, as cluster and offset (R50). -/
def scratchPlace (s : State) (r : Region) (a : Nat) : Option (Nat × Nat) :=
  let w := a - scratchWindow
  if 2 ^ 33 ≤ w then none
  else match regionDie r (w / 2 ^ 30), r.absolute (w / 2 ^ 21 % 512) with
    | some d, some cl =>
      if 8 ≤ d then (if cl < 320 then some (clusterKey d cl, w % 2 ^ 21) else none)
      else if regionHolds s r d cl then some (clusterKey d cl, w % 2 ^ 21) else none
    | _, _ => none

/-- R52 for one element at an exact address (R305). -/
def locate (s : State) (r : Region) (a : Int) (size : Nat) : Loc :=
  if a < 0 ∨ (2 ^ 64 : Int) ≤ a then .fail eADDR_RANGE
  else
    let a := a.toNat
    let b := a + size - 1
    if !canonical a then .fail eNONCANON
    else if lowerTop ≤ a ∨ lowerTop ≤ b then .fail eADDR_RANGE
    else if windowOf a ≠ windowOf b then .fail eWINDOW_SPLIT
    else match windowOf a with
      | 0 => .global a
      | 1 => match bankPlace r a, bankPlace r b with
        | some x, some y => if x.1 = y.1 then .bank (bankAddr x.1 x.2) else .fail eADDR_RANGE
        | _, _ => .fail eADDR_RANGE
      | _ => match scratchPlace s r a, scratchPlace s r b with
        | some x, some y => if x.1 = y.1 then .scratch x.1 x.2 else .fail eADDR_RANGE
        | _, _ => .fail eADDR_RANGE

/-! ### Physical addresses (09 R287, R293; 04 R121) -/

/-- The sink rings of every die. -/
def inSinkArea (p : Nat) : Bool := decide (p < 2 ^ 40) && decide (2 ^ 37 - 2 ^ 21 ≤ p % 2 ^ 37)

/-- A package-physical HBM byte that exists. -/
def hbmExists (s : State) (p : Nat) : Bool := decide (p < 2 ^ 40) && s.service.dies.contains (p / 2 ^ 37)

/-- Torus coordinates as a package number X Y Z; DEST of such a package of this domain. -/
def ownPackage : Nat := bits Config.dest 11 0
def destOf (pkg : Nat) : BitVec 21 := BitVec.ofNat 21 (bits Config.dest 20 12 * 2 ^ 12 + pkg)

/-- The flat address of a translated byte; none where the element fails with PAGE_FAIL (R293). -/
def physical (s : State) (pte : Word) (p : Nat) : Option Nat :=
  let own := if hbmExists s p && !inSinkArea p then some p else none
  match bits pte 63 62 with
  | 0 => own
  | 1 => some (hostAddr p)
  | 2 =>
    let pkg := bits pte 61 50
    if pkg = ownPackage then own
    else if Config.isPackage (destOf pkg) && decide (p < 2 ^ 40) && !inSinkArea p then some (peerAddr pkg p) else none
  | _ => none

/-! ### Range entries and the TLB (09 R291 to R294) -/

/-- Bytes of a page of SIZE. -/
def pageBytes (pte : Word) : Nat := 2 ^ (16 + 10 * bits pte 15 14)

def frameBase (pte : Word) : Nat := bits pte 49 16 * 2 ^ 16

/-- A range entry that is in use: its range is not empty and does not leave the global window, and its PTE has V set. -/
def RangeEntry.used (e : RangeEntry) : Bool :=
  e.len != 0 && decide (e.vbase.toNat + e.len.toNat ≤ bankWindow) && e.pte.getLsbD 0

def RangeEntry.holds (e : RangeEntry) (asid : BitVec 32) (v : Nat) : Bool :=
  e.used && (e.asid == asid || e.asid == 0xFFFFFFFF) && decide (e.vbase.toNat ≤ v) &&
  decide (v < e.vbase.toNat + e.len.toNat)

def TlbEntry.holds (e : TlbEntry) (asid : BitVec 32) (v : Nat) : Bool :=
  e.asid == asid && decide (e.page ≤ v) && decide (v < e.page + pageBytes e.pte)

/-- What one page of an access meets. -/
inductive Trans where
  | miss (v : Nat)
  | prot (v : Nat)
  | fail
  /-- Flat address and byte count of each page's part. -/
  | parts (ps : List (Nat × Nat))
  deriving DecidableEq, Repr

def allowed (pte : Word) (write : Bool) : Bool := if write then pte.getLsbD 11 else pte.getLsbD 10

/-- Translate n bytes from v that lie in one 64 KiB page. -/
def translatePage (s : State) (x : Xlate) (asid : BitVec 32) (v n : Nat) (write : Bool) : Trans :=
  let at_ (pte : Word) (p : Nat) : Trans :=
    if !allowed pte write then .prot v
    else match physical s pte p, physical s pte (p + n - 1) with
      | some a, some _ => .parts [(a, n)]
      | _, _ => .fail
  match x.ranges.find? fun e => e.holds asid v with
  | some e => at_ e.pte (frameBase e.pte + (v - e.vbase.toNat))
  | none =>
    match x.tlb.find? fun e => e.holds asid v with
    | some e =>
      if !allowed e.pte write then .prot v
      else if frameBase e.pte % pageBytes e.pte ≠ 0 then .fail
      else at_ e.pte (frameBase e.pte + v % pageBytes e.pte)
    | none => .miss v

/-- Two pages in order: the first that does not translate decides. -/
def Trans.andThen : Trans → Trans → Trans
  | .parts a, .parts b => .parts (a ++ b)
  | .parts _, t => t
  | t, _ => t

/-- Translate n bytes from v, page by page (R291). -/
def translate (s : State) (x : Xlate) (asid : BitVec 32) (v n : Nat) (write : Bool) : Trans :=
  let pages := (v + n - 1) / 65536 - v / 65536 + 1
  (List.range pages).foldl (fun t i =>
    let lo := max v ((v / 65536 + i) * 65536)
    let hi := min (v + n) ((v / 65536 + i + 1) * 65536)
    t.andThen (translatePage s x asid lo (hi - lo) write)) (.parts [])

/-- Install an entry for the page that holds v (R300): at the end of the TLB, in place of an entry of the same page; a
full TLB gives up an entry of the device's choosing (R294). -/
def Xlate.install (x : Xlate) (asid : BitVec 32) (v : Nat) (pte : Word) (cap choice : Nat) : Xlate :=
  let page := v / pageBytes pte * pageBytes pte
  let kept := x.tlb.filter fun e => !(e.asid == asid && e.page == page && bits e.pte 15 14 == bits pte 15 14)
  let kept := if cap ≤ kept.length then kept.eraseIdx (choice % kept.length) else kept
  { x with tlb := kept ++ [{ asid := asid, page := page, pte := pte }] }

/-- Invalidation (R294): entries of the TLB that a test picks. -/
def Xlate.drop (x : Xlate) (p : TlbEntry → Bool) : Xlate := { x with tlb := x.tlb.filter fun e => !p e }

/-- Read a 64-entry range table from physical HBM (R292). -/
def loadRanges (s : State) (p : Nat) : State × List RangeEntry :=
  let (s, bs, _) := readMem s p 2048
  let word (i o n : Nat) : Nat := leNat ((bs.drop (32 * i + o)).take n)
  (s, (List.range 64).map fun i =>
    { vbase := BitVec.ofNat 64 (word i 0 8), len := BitVec.ofNat 64 (word i 8 8), pte := BitVec.ofNat 64 (word i 16 8),
      asid := BitVec.ofNat 32 (word i 24 4) })

/-! ### Reads and writes over flat parts -/

/-- Read the parts of an access in order. -/
def readParts (s : State) : List (Nat × Nat) → State × List Byte × Bool
  | [] => (s, [], false)
  | (a, n) :: ps =>
    let (s, bs, p) := readMem s a n
    let (s, bs', q) := readParts s ps
    (s, bs ++ bs', p || q)

def isHost (a : Nat) : Bool := decide (2 ^ 58 ≤ a)

/-- The host does not accept poisoned data (12 R389). -/
def refusesPoison (s : State) : Bool := !s.link.hpctl.getLsbD 0

/-- Count device writes that the host port refused, in HPCNT bits 63..32. -/
def countRefused (s : State) (n : Nat) : State := { s with link := { s.link with refused := s.link.refused + BitVec.ofNat 32 n } }

inductive Wrote where
  | done | poison | refused
  deriving DecidableEq, Repr

/-- Write the parts of an access in order. Poisoned data toward the host is not written while PACC is 0; a part of a
poisoned 8-byte word is not written. -/
def writeParts (s : State) (bs : List Byte) (poison : Bool) : List (Nat × Nat) → State × Wrote
  | [] => (s, .done)
  | (a, n) :: ps =>
    if isHost a && poison && refusesPoison s then
      ((writeParts (countRefused s (unitsOf a n).length) (bs.drop n) poison ps).1, .refused)
    else
      let (s, ok) := writeMem s a (bs.take n) poison
      let (s, w) := writeParts s (bs.drop n) poison ps
      (s, if ok then w else .poison)

/-! ### Bank words from outside the Bank Engine (09 R291, 10 R322, R330) -/

def wordMode (s : State) (a : Nat) : BMode := Tab.get .plain s.bankWords (a / 8 * 8)
def setWordMode (s : State) (a : Nat) (m : BMode) : State := { s with bankWords := Tab.set .plain s.bankWords (a / 8 * 8) m }

/-- The parked waiters of a word, in park order. -/
def waitersOf (s : State) (a : Nat) : List Waiter := s.waiters.filter fun w => w.word == a / 8 * 8

/-- The waiters that a word's own list holds: readers of a future, pushers or poppers of a queue. A WAIT that parked while
the word was plain stands in the wait table (R321, R340). -/
def listedAt (s : State) (a : Nat) : List Waiter := (waitersOf s a).filter fun w => w.kind != .wait

/-- The list fields of a queue header or of an empty future: WK, V, WTAIL, WHEAD (R321). -/
def listBits (s : State) (a : Nat) : Nat :=
  match (listedAt s a).head?, (listedAt s a).getLast? with
  | some h, some t => (if h.kind = .pusher then 2 ^ 17 else 0) + 2 ^ 16 + t.entry.toNat * 2 ^ 8 + h.entry.toNat
  | _, _ => 0

/-- A load may read the word: plain, full future or queue header. -/
def readableWord (s : State) (a : Nat) : Bool :=
  match wordMode s a with
  | .plain | .future true | .header => true
  | _ => false

/-- The bytes of a header as software reads them: its list fields stand for the waiters parked there. -/
def withList (s : State) (a : Nat) (bs : List Byte) : List Byte :=
  if wordMode s a = .header then
    let w := leBytes 8 (listBits s a)
    (bs.zip (List.range bs.length)).map fun e => e.1 ||| w.getD ((a + e.2) % 8) 0
  else bs

/-- Load n bytes of bank memory, as BLD does; none where a word's mode forbids it. -/
def loadBank (s : State) (a n : Nat) : Option (State × List Byte × Bool) :=
  if (unitsOf a n).all (readableWord s) then
    let (s', bs, p) := readMem s a n
    some (s', (if n ≤ 8 then withList s a bs
               else (unitsOf a n).flatMap fun u =>
                 withList s (max a u) ((bs.drop (max a u - a)).take (min (u + 8) (a + n) - max a u))), p)
  else none

/-- Part of some word of the access is written and that word is poisoned (R323). -/
def partPoisoned (s : State) (a n : Nat) : Bool :=
  (unitsOf a n).any fun u => (decide (u < a) || decide (a + n < u + 8)) && (readUnit s u).2

/-- Store bytes to bank memory, as BST does: the code of an element that fails. -/
def storeBank (s : State) (a : Nat) (bs : List Byte) (poison : Bool) : Except (BitVec 8) State :=
  if !(unitsOf a bs.length).all (fun u => wordMode s u == .plain) then .error eTYPE_MISMATCH
  else if partPoisoned s a bs.length then .error ePOISON
  else .ok (writeMem s a bs poison).1

end Sys2Proof.Machine
end

