-- ==== Sys2Proof/Machine/Pager.lean ====
section
/-! DEFINITION. Translation misses: tickets to the pager graph, and major faults (09 R297 to R299, R302). -/

namespace Sys2Proof.Machine

/-- A ticket (R298): the physical die, port or Hawk thread, generator, fault sequence, kind and ASID. -/
def ticketWord (d : Nat) (hawk : Bool) (unit gen seq kind : Nat) (asid : BitVec 32) : Word :=
  BitVec.ofNat 64 (d * 2 ^ 61 + (if hawk then 2 ^ 60 else 0) + unit % 16 * 2 ^ 56 + gen % 8 * 2 ^ 53 + seq % 256 * 2 ^ 40 +
    kind % 16 * 2 ^ 36 + asid.toNat)

/-- The fields of a ticket. -/
def ticketDie (t : Word) : Nat := bits t 63 61
def ticketHawk (t : Word) : Bool := t.getLsbD 60
def ticketUnit (t : Word) : Nat := bits t 59 56
def ticketGen (t : Word) : Nat := bits t 55 53
def ticketSeq (t : Word) : BitVec 8 := t.extractLsb' 40 8
def ticketKind (t : Word) : BitVec 4 := t.extractLsb' 36 4
def ticketAsid (t : Word) : BitVec 32 := t.extractLsb' 0 32

/-- The pager region of a die. -/
def pagerOf (d : Nat) : Nat := 120 + d

/-- The thread that settles a die's major faults: the pager region's owner, or thread 7 of the die where none is granted. -/
def pagerOwner (s : State) (d : Nat) : Nat :=
  if (getRegion s (pagerOf d)).state = .free then 8 * d + 7 else (getRegion s (pagerOf d)).owner

/-- PORT_FAULT_MAJOR (R302): node and tag are those of the MRESUME firing, or 0 for a direct raise. -/
def majorFault (s : State) (t : Word) (v : Nat) (reason node tagw : Nat) : State :=
  let d := ticketDie t
  let h := ticketHawk t
  let s := if h then s else modPort s (16 * d + ticketUnit t) fun p => { p with pmajor := satInc p.pmajor }
  raiseTo s (pagerOwner s d) aPORT_FAULT_MAJOR (pagerOf d) node tagw
    (leBytes 4 (ticketAsid t).toNat ++ leBytes 1 (ticketKind t).toNat ++ leBytes 1 d ++
     leBytes 1 (if h then 16 else ticketUnit t) ++ leBytes 1 (if h then 0 else ticketGen t) ++ leBytes 8 v ++
     leBytes 8 t.toNat ++ leBytes 4 node ++ leBytes 1 reason ++ leBytes 11 0)

/-- The region that a port serves is a pager region: a miss there has no pager of its own (R297). -/
def portOfPager (s : State) (p : Nat) : Bool := (getPort s p).en && decide (120 ≤ (getPort s p).owner.toNat)

/-- Keep a ticket's first missing byte, which INSTALL on a stale ticket needs (R300). -/
def keepTicket (s : State) (t : Word) (v : Nat) : State :=
  let d := ticketDie t
  let x := some (BitVec.ofNat 64 v)
  if ticketHawk t then
    let die := getDie s d
    setDie s d { die with tickets := Tab.set none die.tickets t.toNat x }
  else modPort s (16 * d + ticketUnit t) fun p => { p with tickets := Tab.set none p.tickets t.toNat x }

/-- A miss on these would be raised directly as a major fault (R297). -/
def missIsDirect (s : State) (t : Word) : Bool :=
  let d := ticketDie t
  !(getDie s d).pmiss.getLsbD 63 || (getRegion s (pagerOf d)).state == .free ||
    (!ticketHawk t && portOfPager s (16 * d + ticketUnit t))

/-- Send a ticket and the first missing byte to the pager graph of the die, under a fresh colour of the pager context, or
raise a major fault where no pager serves it. None while R19 refuses the colour. -/
def raiseMiss (s : State) (t : Word) (v : Nat) : Option State :=
  let d := ticketDie t
  let pm := (getDie s d).pmiss
  let kept := keepTicket s t v
  if missIsDirect s t then some (majorFault kept t v 3 0 0)
  else
    match allocColour kept (pagerOf d) (bits pm 55 48) none 0 zeroFrame 0 with
    | none => none
    | some (s, tag) =>
      let s := if ticketHawk t then s else
        modPort s (16 * d + ticketUnit t) fun p => { p with pminor := satInc p.pminor }
      let node := dstOf (bits pm 31 0)
      let src := if ticketHawk t then srcHawk d else srcPort (16 * d + ticketUnit t)
      let tok (port : BitVec 2) (x : Word) : Tok :=
        { dst := { node with valid := true, port := port, rwi := 0 }, tag := tag, kind := .scalar, flag := Flag.none,
          payload := x }
      let r := getRegion s (pagerOf d)
      let a := ((liveColour r tag).map fun c => spawnAddr s r tag.ctx.toNat c.line).getD 0
      let s := carry s a (tok 0 t) (destField r { node with port := 0 })
      let s := carry s a (tok 1 (BitVec.ofNat 64 v)) (destField r { node with port := 1 })
      let s := sendFrom s (pagerOf d) src (tok 0 t) none
      some (sendFrom s (pagerOf d) src (tok 1 (BitVec.ofNat 64 v)) none)

/-- KIND of a miss (R298). -/
def missKind (prot write : Bool) : Nat := (if prot then 2 else 0) + if write then 1 else 0

end Sys2Proof.Machine
end

