-- ==== Sys2Proof/Machine/Token.lean ====
section
/-! DEFINITION. The operators of class 0 (05 R153 to R170, R178), but PFENCE and SPLICE, which need the banks and the
loader. -/

namespace Sys2Proof.Machine

/-- A tile token on a data port is checked under R87 when FMT is not raw (05 R154); a reserved FMT of its handle gives
BOUNDS on every port (03 R87). -/
def dataError (s : State) (f : Firing) (o : Op) (t : Tok) : Option (BitVec 8) :=
  if !isTile t then none
  else if o.fmt != .raw then checkTile s f.cluster t.payload (some [o.fmt])
  else if (Fmt.ofCode (handleOf t.payload).code).isNone then some eBOUNDS else none

/-- A scalar port takes no tile (05 R154). -/
def scalarError (t : Tok) : Option (BitVec 8) := if isScalar t then none else some eTYPE_MISMATCH

/-- Go on unless an operand is in error or a used operand is poisoned. -/
def guarded (errs : List (Option (BitVec 8))) (used : List Tok) (k : Unit → Act) : Act :=
  match firstError errs with
  | some e => .error e 0
  | none => if used.any fun t => t.flag.poison then .purge else k ()

/-! ### Control operators (05 R155 to R158) -/

/-- Pass the token on port p to destinations. -/
def passOn (s : State) (ds : List (Nat × Dst)) (t : Tok) : Act := .done s (passTo ds t) 0 0

def execPass (o : Op) (s : State) : Host.Outcome State Fault Refusal :=
  .next (fire s o fun s f => guarded [dataError s f o (tokAt f 0)] [] fun _ => passOn s (destinations s f o) (tokAt f 0))

/-- The payload of CONST (05 R156). -/
def constPayload (o : Op) : Word :=
  let v := immBits o 34 0
  match immBits o 36 35 with
  | 0 => narrow o.fmt ((BitVec.ofNat 35 v).signExtend 64).toNat
  | 1 => narrow o.fmt (v * 2 ^ 29 % 2 ^ 64)
  | _ => narrow o.fmt v

def execConst (o : Op) (s : State) : Host.Outcome State Fault Refusal :=
  .next (fire s o fun s f => .done s (outAll s f o .scalar Flag.none (constPayload o)) 0 0)

/-- A copy of a tile's lines in a fresh allocation (05 R155): every byte, with its poisoned words. -/
def copyTile (s : State) (f : Firing) (w : Word) : Option (State × Word) :=
  let h := handleOf w
  match allocLines s f.region f.cluster f.tag h.lines with
  | none => none
  | some (s, b, g) =>
    let (s, d) := readLines s (tileCluster f.cluster h) h.base h.lines
    let s := markFull (writeLines s f.cluster b d) f.cluster b h.lines
    some (s, ({ h with base := b, gen := g.toNat, res := 0, owner := f.cluster % 512 } : Handle).word)

/-- One destination after another, each in the firing cluster with a copy of its own. -/
def deepCopies (s : State) (f : Firing) (t : Tok) : List (Nat × Dst) → Option (State × List Out)
  | [] => some (s, [])
  | d :: ds =>
    let here := regionCluster s (getRegion s f.region) d.2.die.toNat d.2.cluster.toNat = some f.cluster
    let first := if here then copyTile s f t.payload else some (s, t.payload)
    match first with
    | none => none
    | some (s, w) =>
      match deepCopies s f t ds with
      | none => none
      | some (s, outs) => some (s, passTo [d] { t with payload := w } ++ outs)

def execDup (o : Op) (s : State) : Host.Outcome State Fault Refusal :=
  .next (fire s o fun s f =>
    let t := tokAt f 0
    guarded [dataError s f o t] [] fun _ =>
      if immBit o 0 && isTile t then
        match deepCopies s f t (destinations s f o) with
        | none => .hold
        | some (s, outs) => .done s outs 0 0
      else passOn s (destinations s f o) t)

/-- An error token that goes to chosen destinations only, while the data is consumed (05 R157, R160). -/
def errorOn (s : State) (f : Firing) (ds : List (Nat × Dst)) (code : BitVec 8) (elem : Nat) : Act :=
  .done s (outTo ds .error Flag.none (errorPayload (getRegion s f.region) f.cluster f.slot elem code)) 0 0

def execRoute (o : Op) (s : State) : Host.Outcome State Fault Refusal :=
  .next (fire s o fun s f =>
    let t := tokAt f 0
    let k := (tokAt f 1).payload.toNat
    let ds := destinations s f o
    guarded [dataError s f o t, scalarError (tokAt f 1)] [tokAt f 1] fun _ =>
      match ds[k]? with
      | some d => passOn s [d] t
      | none => errorOn s f (ds.filter fun d => d.1 == 0) eBOUNDS (k % 2 ^ 32))

/-- A predicate: the payload is not zero, inverted by INV (05 R157). -/
def predicate (o : Op) (t : Tok) : Bool := (t.payload != 0) != immBit o 3

def execSteer (o : Op) (s : State) : Host.Outcome State Fault Refusal :=
  .next (fire s o fun s f =>
    let t := tokAt f 0
    let nt := immBits o 2 0
    guarded [dataError s f o t, scalarError (tokAt f 1)] [tokAt f 1] fun _ =>
      let trueSide (d : Nat × Dst) : Bool := d.1 == 0 || (decide (2 ≤ d.1) && decide (d.1 < 2 + nt))
      let yes := predicate o (tokAt f 1)
      passOn s ((destinations s f o).filter fun d => trueSide d == yes) t)

def execGate (o : Op) (s : State) : Host.Outcome State Fault Refusal :=
  .next (fire s o fun s f =>
    let t := tokAt f 0
    guarded [dataError s f o t, scalarError (tokAt f 1)] [tokAt f 1] fun _ =>
      passOn s (if predicate o (tokAt f 1) then destinations s f o else []) t)

def execSel (o : Op) (s : State) : Host.Outcome State Fault Refusal :=
  .next (fire s o fun s f =>
    guarded [scalarError (tokAt f 0), dataError s f o (tokAt f 1), dataError s f o (tokAt f 2)] [tokAt f 0] fun _ =>
      passOn s (destinations s f o) (if predicate o (tokAt f 0) then tokAt f 1 else tokAt f 2))

def execJoin (o : Op) (s : State) : Host.Outcome State Fault Refusal :=
  .next (fire s o fun s f =>
    guarded (f.toks.map (dataError s f o)) [] fun _ => passOn s (destinations s f o) (tokAt f (immBits o 1 0)))

/-- DROP consumes its tokens, error tokens too, and counts nothing (05 R158). -/
def execDrop (_ : Op) (s : State) : Host.Outcome State Fault Refusal := .next s

/-- SINK sends its token toward the sink ring of its region (05 R158, 04 R121): an error token, or a poisoned one, like
any other; an error firing sends its error token. -/
def execSink (o : Op) (s : State) : Host.Outcome State Fault Refusal :=
  let f := s.firing
  let t := tokAt f 0
  let r := getRegion s f.region
  let code := if t.kind == .error then none else if f.stale then some eREPLAY_STALE else dataError s f o t
  let t := match code with
    | none => t
    | some e => { t with kind := .error, flag := Flag.none, payload := errorPayload r f.cluster f.slot 0 e }
  let t := { t with flag := { t.flag with irrev := t.flag.irrev || strandIrrev s f.region f.tag } }
  let s := modRegion s f.region fun r => { r with sinkWait := r.sinkWait ++ [t] }
  .next (modCluster s f.cluster fun k =>
    { k with sunk := Tab.set 0 k.sunk f.slot.toNat (Tab.get 0 k.sunk f.slot.toNat + 1) })

/-! ### SRC and TAGX (05 R159, R160) -/

/-- SRC starts a stream; a fifth stream of the cluster stays matched. A firing in error takes the tag of its XFM. -/
def execSrc (o : Op) (s : State) : Host.Outcome State Fault Refusal :=
  let f := s.firing
  let errs := [scalarError (tokAt f 0), scalarError (tokAt f 1)]
  let bad := f.stale || (f.toks.any fun t => t.kind == .error) || (firstError errs).isSome
  .next (fireWith s o (if bad then o.xfm else .keep) (fun f => destinations s f o) fun s f =>
    guarded errs f.toks fun _ =>
      let n := (tokAt f 0).payload.toNat % 2 ^ 32
      if 4 ≤ (getCluster s f.cluster).streams.length then .hold
      else if n = 0 then .done s [] 0 0
      else .later (modCluster s f.cluster fun k =>
        { k with streams := k.streams ++ [{ firing := f, left := n, next := (tokAt f 1).payload }] }))

/-- Where a TAGX firing's error tokens go (R160). -/
def tagxErrors (o : Op) : List (Nat × Dst) := if o.dst1.valid then [(1, { o.dst1 with rwi := 0 })] else []

/-- TAGX: every error token goes to DST1, or is discarded and counted where DST1 is not valid (R160). -/
def execTagx (o : Op) (s : State) : Host.Outcome State Fault Refusal :=
  .next (fireWith s o o.xfm (fun _ => tagxErrors o) fun s f =>
    let r := getRegion s f.region
    let t := tokAt f 0
    let k := (tokAt f 1).payload.toNat
    let m := immBits o 8 0 + 1
    guarded [dataError s f o t, scalarError (tokAt f 1)] [tokAt f 1] fun _ =>
      let j := if immBit o 18 then k else k % m
      let fail : Act := .error eBOUNDS (k % 2 ^ 32)
      if m ≤ j then fail
      else match r.absolute (r.relative o.dst0.cluster.toNat + j * immBits o 17 9) with
        | none => fail
        | some c =>
          if (regionCluster s r o.dst0.die.toNat c).isSome then
            passOn s (if o.dst0.valid then [(0, { o.dst0 with cluster := BitVec.ofNat 9 c, rwi := 0 })] else []) t
          else fail)

/-! ### Context and colour operators (05 R161 to R163) -/

/-- Destination j receives the token on port MAP(j), errors as they are. -/
def mapped (s : State) (f : Firing) (o : Op) (v : List Tok) : List Out :=
  (destinations s f o).flatMap fun d => passTo [d] (v.getD (mapEntry o d.1) Tok.none)

/-- The values a CTX operator carries: its operands, or one error token on every port of an error firing (R154). -/
def ctxValues (s : State) (f : Firing) : List Tok :=
  match f.toks.find? fun t => t.kind == .error with
  | some e => f.toks.map fun _ => e
  | none =>
    if f.stale then
      f.toks.map fun t => { t with kind := .error, flag := Flag.none,
                                   payload := errorPayload (getRegion s f.region) f.cluster f.slot 0 eREPLAY_STALE }
    else f.toks

/-- Append carried tokens to a colour's spawn record (R152). -/
def carryAll (s : State) (f : Firing) (t : Tag) (v : List Tok) : State :=
  let r := getRegion s f.region
  match liveColour r t with
  | none => s
  | some c => v.foldl (fun s k => carry s (spawnAddr s r t.ctx.toNat c.line) k 0) s

/-- Send tokens under a tag, with the firing strand's IRREV. -/
def sendUnder (s : State) (f : Firing) (t : Tag) (outs : List Out) : State :=
  let irrev := strandIrrev s f.region f.tag
  sendOuts s f (outs.map fun k => k.tok t irrev)

/-- CTX.ENTER (05 R161); an error firing with FRAME writes a zero frame (notes/assumptions/112.md). -/
def execCtxEnter (o : Op) (s : State) : Host.Outcome State Fault Refusal :=
  let f := s.firing
  let r := getRegion s f.region
  let v := ctxValues s f
  let frame := if immBit o 24 && !(v.any fun t => t.kind == .error) then
      Vector.ofFn fun (i : Fin 7) => if i.val < o.nports then (v.getD i.val Tok.none).payload else 0
    else zeroFrame
  match allocColour s f.region (immBits o 23 16) (some f.tag) (nodeField r f.cluster f.slot) frame (modeOf r f.tag) with
  | none => .next (requeue s f)
  | some (s, t) => .next (sendUnder (carryAll s f t v) f t (mapped s f o v))

/-- Count a NEXT or EXIT firing of a colour; the CARRY-th frees it after the sends. -/
def countCarry (s : State) (f : Firing) (o : Op) (exits : Bool) : State :=
  let r := getRegion s f.region
  match liveColour r f.tag with
  | none => s
  | some c =>
    let c := { c with count := c.count + 1, exits := c.exits || exits, nexts := c.nexts || !exits }
    let s := setRegion s f.region (setColour r f.tag c)
    if c.count = immBits o 21 16 then freeColour s f.region f.tag (!exits) else s

/-- The CARRY-th NEXT of a colour whose purge is pending: the purge came first, and the firing's tokens are stale (R180). -/
def lastCarry (s : State) (r : Region) (t : Tag) (c : Colour) (o : Op) : Bool :=
  isPending s r t && c.count + 1 == immBits o 21 16

def execCtxNext (o : Op) (s : State) : Host.Outcome State Fault Refusal :=
  let f := s.firing
  let r := getRegion s f.region
  let v := ctxValues s f
  match liveColour r f.tag with
  | none => .next (addStale s f.region (firingNode s f) (mapped s f o v).length)
  | some c =>
    if c.exits || lastCarry s r f.tag c o then .next (addStale s f.region (firingNode s f) (mapped s f o v).length)
    else match tagUnder s f .next with
      | .tag s t => .next (countCarry (sendUnder (carryAll s f t v) f t (mapped s f o v)) f o false)
      | _ => .next (requeue s f)

def execCtxExit (o : Op) (s : State) : Host.Outcome State Fault Refusal :=
  let f := s.firing
  let r := getRegion s f.region
  let v := ctxValues s f
  match liveColour r f.tag with
  | none => .next (addStale s f.region (firingNode s f) (mapped s f o v).length)
  | some c =>
    if c.nexts then .next (addStale s f.region (firingNode s f) (mapped s f o v).length)
    else
      let s := match c.parent with
        | none => s
        | some p => sendUnder s f p (mapped s f o v)
      .next (countCarry s f o true)

/-! ### Frame operators (05 R164) -/

/-- Read a frame slot: f0 to f6, or the status word. -/
def readFrame (c : Colour) (i : Nat) : Word := if i = 7 then f7 c else c.f.toList.getD i 0

/-- Write a frame slot; f7 keeps its read-only fields, and RMODE keeps its value for a code above 5 (03 R95). -/
def writeFrame (c : Colour) (i : Nat) (v : Word) : Colour :=
  if i = 7 then
    let m := v.extractLsb' 8 3
    { c with flags := v.extractLsb' 0 6, rmode := if m.toNat ≤ 5 then m else c.rmode }
  else { c with f := c.f.set! i v }

/-- Perform a frame access of a strand at its home cluster as one step: the new state and the answer. -/
def frameAccess (s : State) (rid : Nat) (t : Tag) (q : FrameReq) : State × Word :=
  let r := getRegion s rid
  match liveColour r t with
  | none => (s, 0)
  | some c =>
    let put (c : Colour) : State := setRegion s rid (setColour r t c)
    match q with
    | .set i op v =>
      let old := readFrame c i.toNat
      let new := match op.toNat with | 0 => v | 1 => old ||| v | _ => old &&& ~~~v
      (put (writeFrame c i.toNat new), old)
    | .get i parent =>
      if parent then
        match c.parent with
        | none => (s, 0)
        | some p => (s, ((liveColour r p).map fun k => readFrame k i.toNat).getD 0)
      else (s, readFrame c i.toNat)
    | .flagsGet clear =>
      let v := BitVec.ofNat 64 (c.rmode.toNat * 256 + c.flags.toNat)
      ((if clear then put { c with flags := 0 } else s), v)
    | .flagsClr m setMode mode =>
      (put { c with flags := c.flags &&& ~~~m, rmode := if setMode then mode else c.rmode }, 0)

def execInvSet (o : Op) (s : State) : Host.Outcome State Fault Refusal :=
  .next (fire s o fun s f =>
    let t := tokAt f 0
    guarded [scalarError t] [t] fun _ =>
      let (s, old) := frameAccess s f.region f.tag
        (.set (BitVec.ofNat 3 (immBits o 2 0)) (BitVec.ofNat 2 (immBits o 4 3)) t.payload)
      .done s (outAll s f o .scalar Flag.none old) 0 0)

def execInvGet (o : Op) (s : State) : Host.Outcome State Fault Refusal :=
  .next (fire s o fun s f =>
    let (s, v) := frameAccess s f.region f.tag (.get (BitVec.ofNat 3 (immBits o 2 0)) (immBit o 3))
    .done s (outAll s f o .scalar Flag.none v) 0 0)

def execFlagsGet (o : Op) (s : State) : Host.Outcome State Fault Refusal :=
  .next (fire s o fun s f =>
    let (s, v) := frameAccess s f.region f.tag (.flagsGet (immBit o 0))
    .done s (outAll s f o .scalar Flag.none v) 0 0)

def execFlagsClr (o : Op) (s : State) : Host.Outcome State Fault Refusal :=
  .next (fire s o fun s f =>
    let (s, _) := frameAccess s f.region f.tag
      (.flagsClr (BitVec.ofNat 6 (immBits o 5 0)) (immBit o 6) (BitVec.ofNat 3 (immBits o 9 7)))
    passOn s (destinations s f o) (tokAt f 0))

/-! ### Scalar arithmetic (05 R165) -/

/-- The operands as bit patterns of FMT's width: port payloads, with the immediate as the last under IMMB. -/
def aluOperands (o : Op) (f : Firing) : List Nat :=
  let w := fmtBits o.fmt
  let ps := f.toks.map fun t => t.payload.toNat % 2 ^ w
  if immBit o 36 then ps ++ [((BitVec.ofNat 32 (immBits o 31 0)).signExtend 64).toNat % 2 ^ w] else ps

/-- A scalar ALU firing: a function of the operand patterns gives the exact result. -/
def fireAlu (s : State) (o : Op) (g : List Nat → Int) : State :=
  fire s o fun s f =>
    guarded (f.toks.map scalarError) f.toks fun _ =>
      let (b, fl) := fitInt o.fmt o.sat (g (aluOperands o f))
      .done s (outAll s f o .scalar Flag.none (narrow o.fmt b)) fl 0

def aluArg (o : Op) (ps : List Nat) (i : Nat) : Int := intOf o.fmt (ps.getD i 0)

def execSadd (o : Op) (s : State) : Host.Outcome State Fault Refusal :=
  .next (fireAlu s o fun ps => aluArg o ps 0 + aluArg o ps 1)
def execSsub (o : Op) (s : State) : Host.Outcome State Fault Refusal :=
  .next (fireAlu s o fun ps => aluArg o ps 0 - aluArg o ps 1)
def execSmul (o : Op) (s : State) : Host.Outcome State Fault Refusal :=
  .next (fireAlu s o fun ps =>
    let x := aluArg o ps 0 * aluArg o ps 1
    if immBit o 32 then x / 2 ^ fmtBits o.fmt else x)
def execSmad (o : Op) (s : State) : Host.Outcome State Fault Refusal :=
  .next (fireAlu s o fun ps => aluArg o ps 0 * aluArg o ps 1 + aluArg o ps 2)

/-- Predicates 0 EQ, 1 NE, 2 LT, 3 LE, 4 GT, 5 GE. -/
def intPredicate (fn : Nat) (a b : Int) : Bool :=
  match fn with
  | 0 => a == b | 1 => a != b | 2 => decide (a < b) | 3 => decide (a ≤ b) | 4 => decide (b < a) | _ => decide (b ≤ a)

def execScmp (o : Op) (s : State) : Host.Outcome State Fault Refusal :=
  .next (fireAlu s o fun ps => if intPredicate (immBits o 35 32) (aluArg o ps 0) (aluArg o ps 1) then 1 else 0)

/-- A bit pattern as the integer it stands for in FMT. -/
def patternInt (o : Op) (x : Nat) : Int := intOf o.fmt (x % 2 ^ fmtBits o.fmt)

/-- Bit i of the result is TT[2 a[i] + b[i]]. -/
def truthTable (tt a b w : Nat) : Nat :=
  (List.range w).foldl (fun acc i =>
    if tt.testBit ((if a.testBit i then 2 else 0) + (if b.testBit i then 1 else 0)) then acc + 2 ^ i else acc) 0

def execSlog (o : Op) (s : State) : Host.Outcome State Fault Refusal :=
  .next (fireAlu s o fun ps =>
    patternInt o (truthTable (immBits o 35 32) (ps.getD 0 0) (ps.getD 1 0) (fmtBits o.fmt)))

/-- Shifts and the rotate of a w-bit pattern: 0 SHL, 1 SHR, 2 SAR, 3 ROL. -/
def shiftPattern (fn w a b : Nat) : Nat :=
  let n := b % w
  match fn with
  | 0 => a * 2 ^ n % 2 ^ w
  | 1 => a / 2 ^ n
  | 2 => ((((if a < 2 ^ (w - 1) then (a : Int) else a - 2 ^ w) / 2 ^ n) % 2 ^ w)).toNat
  | _ => (a * 2 ^ n % 2 ^ w) + a / 2 ^ (w - n)

def execSshf (o : Op) (s : State) : Host.Outcome State Fault Refusal :=
  .next (fireAlu s o fun ps =>
    patternInt o (shiftPattern (immBits o 33 32) (fmtBits o.fmt) (ps.getD 0 0) (ps.getD 1 0)))
def execSminmax (o : Op) (s : State) : Host.Outcome State Fault Refusal :=
  .next (fireAlu s o fun ps =>
    if immBit o 32 then max (aluArg o ps 0) (aluArg o ps 1) else min (aluArg o ps 0) (aluArg o ps 1))

/-! ### CMPX and MARK (05 R170, R178) -/

/-- CRC-64 ECMA-182, most significant bit first, over bytes. -/
def crc64Byte (c : Word) (b : Byte) : Word :=
  (List.range 8).foldl (fun c _ => if c.msb then (c <<< 1) ^^^ 0x42F0E1EBA9EA3693 else c <<< 1) (c ^^^ (b.zeroExtend 64 <<< 56))
def crc64 (bs : List Byte) : Word := bs.foldl crc64Byte 0

/-- What a digest covers, as one number (R170). -/
def digestOf (s : State) (f : Firing) (t : Tok) : Nat :=
  let head := kindCode t.kind * 32 + flagBits { t.flag with irrev := false }
  if isTile t then
    let h := handleOf t.payload
    let bs := (rowsOf h (Mem.read s.mem (spAddr (tileCluster f.cluster h) (128 * h.base)) (128 * h.lines))).flatten
    ((((head * 32 + h.code) * 128 + h.rows) * 8 + h.pitch) * 4096 + h.epr) * 2 ^ 64 + (crc64 bs).toNat
  else head * 2 ^ 64 + t.payload.toNat

/-- CMPX (05 R170); the POISON of its value is part of what it compares and not a use (notes/assumptions/113.md). -/
def execCmpx (o : Op) (s : State) : Host.Outcome State Fault Refusal :=
  .next (fire s o fun s f =>
    let t := tokAt f 0
    let key := (tokAt f 1).payload
    guarded [dataError s f o t, scalarError (tokAt f 1)] [tokAt f 1] fun _ =>
      let k := getCluster s f.cluster
      if decide (256 ≤ k.cmpx.length) ||
         k.cmpx.any (fun w => w.firing.region == f.region && w.firing.tag.ctx == f.tag.ctx && w.key == key) then .hold
      else
        let r := getRegion s f.region
        let d := digestOf s f t
        let s := modCluster s f.cluster fun k =>
          { k with cmpx := k.cmpx ++ [{ firing := f, key := key, digest := d, since := s.htime }] }
        match r.twin with
        | none => .later s
        | some (p, _) =>
          .later { s with digests := s.digests ++ [{ region := p, die := r.dieIx (f.cluster / 512),
                                                     cluster := r.relative (f.cluster % 512), slot := f.slot,
                                                     ctx := f.tag.ctx, key := key, digest := d }] })

def execMark (o : Op) (s : State) : Host.Outcome State Fault Refusal :=
  .next (fire s o fun s f => guarded [dataError s f o (tokAt f 0)] [] fun _ => passOn s (destinations s f o) (tokAt f 0))

end Sys2Proof.Machine
end

