-- ==== Sys2Proof/Machine/Held.lean ====
section
/-! DEFINITION. The firings that engines hold: issued, and not yet done with their tokens (11 R376, R377; 05 R179). -/

namespace Sys2Proof.Machine

/-- Firings that a cluster's engines hold. -/
def Cluster.held (k : Cluster) : List Firing :=
  k.streams.map Stream.firing ++ k.cmpx.map Cmpx.firing ++ k.ptimes.map Prod.fst ++ k.quad ++
  (k.queues.flatMap fun e => (e.2.pending ++ e.2.issued.toList).map SFiring.firing) ++
  (k.finishing.map fun e => e.2.firing) ++ k.cancels.map SCancel.firing

def Port.jobs (q : Port) : List Job := q.incoming ++ q.queue ++ q.waiting ++ q.gens.filterMap Prod.snd

def Bank.reqs (b : Bank) : List BankReq := b.input ++ b.combine.flatMap Combine.parts

/-- Firings that wait in a round. -/
def Round.firings (r : Round) : List Firing := (r.waits.map Waits.firing).filter fun f => f != Firing.none

def Down.firing : Down → List Firing
  | .emit f .. | .error f _ => [f]
  | _ => []

/-- A firing waits for what a signal on its way up will bring. -/
def Up.waits (u : Up) : Bool := !u.gone && u.firing != Firing.none

def Plumb.held (p : Plumb) : List Firing :=
  (p.ups.filter Up.waits).map Up.firing ++ p.downs.flatMap (fun l => l.what.firing) ++ p.lookups ++ p.puts.map Prod.fst ++ p.pcorrs ++
  p.quiets.map Prod.fst ++ p.psigs ++
  p.crews.flatMap fun e => (e.2.open_.toList ++ e.2.rounds).flatMap Round.firings

def Link.held (l : Link) : List Firing := (l.reqs.filterMap fun e => e.2.map LinkReq.firing) ++ l.recvs.map Recv.firing

/-- Every firing that has issued and has tokens still to send. -/
def heldFirings (s : State) : List Firing :=
  s.issued ++ (s.clusters.flatMap fun e => e.2.held) ++ (s.ports.flatMap fun e => e.2.jobs.map Job.firing) ++
  (s.banks.flatMap fun e => e.2.reqs.map BankReq.firing ++ e.2.late.map Late.firing) ++ s.waiters.map Waiter.firing ++
  (s.nacked.map fun x => x.1.firing) ++ s.plumb.held ++ s.link.held

/-- A node has issued a firing that has not sent its tokens. -/
def nodeBusy (s : State) (rid c : Nat) (slot : BitVec 11) : Bool :=
  (heldFirings s).any fun f => f.region == rid && f.cluster == c && f.slot == slot

end Sys2Proof.Machine
end

