-- ==== Sys2Proof/Machine/Expect.lean ====
section
/-! DEFINITION. What a node takes on its ports before it fires: the words of the operator store, the tile operands whose
lines a firing waits for, and those that steps 1 and 2 of 03 R87 refuse without a wait (01 R27; 05 R154; 07 R236, R240). -/

namespace Sys2Proof.Machine

/-! ### Words of the operator store -/

def wordEcl (w : Word128) : Nat := bits w 127 125
def wordOpc (w : Word128) : Nat := bits w 124 117
def wordPorts (w : Word128) : Nat := bits w 108 107 + 1
def wordRwi (w : Word128) : Nat := bits w 5 0

/-- FMT of a word; raw for a code that names no format. -/
def wordFmt (w : Word128) : Fmt := (Fmt.ofCode (bits w 116 112)).getD .raw

/-- The fields of an operator word that an ill-formed word still has: its destinations and XFM (03 R77). -/
def rawOp (w : Word128) : Op :=
  { fmt := .raw, rnd := .rne, ports := w.extractLsb' 107 2, xfm := (Xfm.ofCode (bits w 106 104)).getD .keep, sat := false,
    fe := false, ord := false, imm := w.extractLsb' 64 37, dst1 := Dst.ofWord (w.extractLsb' 32 32),
    dst0 := Dst.ofWord (w.extractLsb' 0 32) }

/-- The sixteen-byte word of the slot that follows. -/
def nextWord (s : State) (c : Nat) (i : BitVec 11) : Word128 := (getSlot s c (i + 1)).word

/-! ### Formats by port -/

/-- What a port takes for a tile: any format, certain formats, or no tile. -/
inductive Takes where
  | any
  | only (fs : List Fmt)
  deriving DecidableEq, Repr

/-- The data ports of a class-0 operator (05 R154), none where every port takes any token. -/
def dataPorts (opc : Nat) : Option (List Nat) :=
  match opc with
  | 0x00 | 0x02 | 0x03 | 0x04 | 0x05 | 0x09 | 0x0B | 0x22 | 0x23 => some [0]
  | 0x06 => some [1, 2]
  | 0x07 => some [0, 1, 2, 3]
  | 0x01 | 0x08 | 0x10 | 0x11 | 0x12 | 0x14 | 0x15 | 0x16 | 0x20 | 0x21 => none
  | _ => some []

/-- BFMT of a product's word, or FMT (07 R227). -/
def wordBfmt (w : Word128) : List Fmt := if bits w 100 96 = 0 then [wordFmt w] else (Fmt.ofCode (bits w 100 96)).toList

/-- The formats of port p of a Vector Engine word (06 R186 to R219). -/
def vectorTakes (w : Word128) (p : Nat) : List Fmt :=
  match wordOpc w, p with
  | 0x0F, 1 => [.i32]
  | 0x30, _ | 0x34, _ | 0x35, 1 | 0x36, 1 | 0x36, 2 | 0x37, 1 | 0x3C, _ => []
  | 0x31, 0 => [.b1]
  | 0x32, 1 => [.n16]
  | 0x3B, 1 => [.n8]
  | _, _ => [wordFmt w]

/-- The formats of port p of a Matrix Engine word (07 R227, R234, R235, R245). -/
def matrixTakes (w : Word128) (p : Nat) : List Fmt :=
  match wordOpc w, p with
  | 0x00, 1 | 0x01, 1 | 0x06, 1 => wordBfmt w
  | 0x01, 2 | 0x02, 1 => [.n8]
  | 0x03, _ | 0x05, _ => []
  | 0x0A, 1 | 0x0A, 3 => if wordPorts w = 4 then [.n16] else [wordFmt w]
  | _, _ => [wordFmt w]

/-- The tile ports of classes 4, 5 and 7, by opcode and by the TILE bit of the word (09 R305, 10 R326, 12 R403). -/
def outerTakes (w : Word128) (p : Nat) : List Fmt :=
  let ix : Fmt := if w.getLsbD 89 then .i64 else .i32
  match wordEcl w, wordOpc w, p with
  | 4, 0x01, 1 => if w.getLsbD 89 then [wordFmt w] else []
  | 4, 0x02, 1 | 4, 0x03, 1 => [ix]
  | 4, 0x03, 2 | 4, 0x05, 2 => [wordFmt w]
  | 4, 0x05, 3 => [.n8]
  | 5, 0x01, 1 => if w.getLsbD 85 then [wordFmt w] else []
  | 5, 0x06, 1 => [wordFmt w]
  | 7, 0x00, 2 => if w.getLsbD 89 then [wordFmt w] else []
  | _, _, _ => []

/-- What port p of a word takes for a tile. -/
def portTakes (w : Word128) (p : Nat) : Takes :=
  match wordEcl w with
  | 0 => match dataPorts (wordOpc w) with
    | none => .any
    | some ps => if ps.contains p then (if wordFmt w = .raw then .any else .only [wordFmt w]) else .only []
  | 1 => .only (vectorTakes w p)
  | 2 => .only (matrixTakes w p)
  | 3 => if wordFmt w = .raw then .any else .only [wordFmt w]
  | 6 => if p = 1 then .any else .only []
  | e => if e = 7 ∧ wordOpc w = 0x03 ∧ p = 1 then .any else .only (outerTakes w p)

def Takes.admits (x : Takes) (f : Fmt) : Bool :=
  match x with
  | .any => true
  | .only fs => fs.contains f

/-! ### Tile operands (01 R27; 03 R87) -/

/-- A class-3 word's stencil slot, numbered 8 × queue + slot. -/
def wordSlot (w : Word128) : Nat := 8 * immBits (rawOp w) 4 3 + immBits (rawOp w) 2 0

/-- A pending SARM or SDISARM will change the slot before a firing accepted now issues (08 R271, R274). -/
def slotChanges (k : Cluster) (w : Word128) : Bool :=
  k.queues.any fun q => (q.2.pending ++ q.2.issued.toList).any fun x =>
    (wordOpc x.firing.word == 1 || wordOpc x.firing.word == 4) && wordSlot x.firing.word == wordSlot w

/-- The ports of a class-3 word that carry source tiles; the other tiles are destinations, whose lines nothing waits for
(08 R255, R261, R270). The queue looks at the source of an SFIRE whose slot is still to change when it issues it. -/
def stencilSources (s : State) (c : Nat) (w : Word128) : List Nat :=
  let k := getCluster s c
  match wordOpc w with
  | 0x00 => if immBits (rawOp w) 36 35 = 2 then [0] else []
  | 0x02 =>
    if slotChanges k w then []
    else match (Tab.get Sten.empty k.sten (wordSlot w)).desc with
      | some d => if d.getD 0 0 = 1 then [1] else []
      | none => []
  | _ => []

/-- The tile operands of a firing with the formats their ports take. -/
def tileOperands (s : State) (c : Nat) (w : Word128) (toks : List Tok) : List (Word × Takes) :=
  ((toks.zip (List.range toks.length)).filter fun e =>
    isTile e.1 && (wordEcl w != 3 || (stencilSources s c w).contains e.2)).map fun e => (e.1.payload, portTakes w e.2)

/-- The binding that a product word names (07 R236). -/
def boundHandles (s : State) (c : Nat) (w : Word128) : List (Word × Takes) :=
  let b := if wordEcl w = 2 ∧ wordOpc w ≤ 1 then
      match bits w 81 80 with
      | 1 => (getCluster s c).w0
      | 2 => (getCluster s c).w1
      | _ => .unbound
    else .unbound
  match b with
  | .unbound => []
  | .dense h => [(h, .only (wordBfmt w))]
  | .sparse v d => [(v, .only (wordBfmt w)), (d, .only [.n8])]

/-- Steps 1 and 2 of R87 pass: the handle is left to R27. -/
def leftToLines (s : State) (c : Nat) (e : Word × Takes) : Bool :=
  handleOk s c (handleOf e.1) && e.2.admits (handleOf e.1).fmt

/-- R27 over several handles. -/
def handlesAre (s : State) (c : Nat) (hs : List (Word × Takes)) : LinesAre :=
  let st := hs.map fun e => linesAre s c (handleOf e.1)
  if st.contains .stale then .stale else if st.contains .waiting then .waiting else .ready

/-- The handles of a firing that R27 governs: none where some operand fails steps 1 or 2, which the firing reports without
a wait. -/
def lineHandles (s : State) (c : Nat) (w : Word128) (toks : List Tok) : List (Word × Takes) :=
  let hs := tileOperands s c w toks ++ boundHandles s c w
  let checked := hs.filter fun e => e.2 != .any
  if checked.all (leftToLines s c) then hs.filter (leftToLines s c) else []

/-- Another cluster of the quad holds the lines of a handle (07 R240). -/
def isRemote (c : Nat) (w : Word) : Bool := decide (tileCluster c (handleOf w) ≠ c)

/-- The other clusters of the quad whose lines a firing reads, in the order of its operands (07 R241). A stencil copy reads
them element by element. -/
def quadOwners (s : State) (f : Firing) : List Nat :=
  if wordEcl f.word = 3 then []
  else (((lineHandles s f.cluster f.word f.toks).filter fun e => isRemote f.cluster e.1).map fun e =>
    tileCluster f.cluster (handleOf e.1)).eraseDups

end Sys2Proof.Machine
end

