-- ==== Sys2Proof/Machine/Fabric.lean ====
section
/-! DEFINITION. The token fabric: packets, the matching store, readiness and markers at a node (01 R26, R27, R29 to R38;
05 R141 to R146, R159, R167, R168, R170, R177; 04 R121). -/

namespace Sys2Proof.Machine

/-! ### Slots -/

/-- Whether the slot before one holds an operator whose route word it is (03 R74). -/
def isRouteSlot (s : State) (c : Nat) (i : BitVec 11) : Bool := (getSlot s c i).rw

/-! ### Packets (01 R29, R33; 05 R143) -/

def removeAt {α : Type} (l : List α) (k : Nat) : List α := l.eraseIdx k

/-- No firing of the region issues: its freeze has taken effect, or does so in this tick (01 R44). -/
def isStopped (s : State) (rid : Nat) : Bool :=
  let r := getRegion s rid
  r.stopped || (r.freezeAt.map fun t => decide (t ≤ s.htime)).getD false

/-- A packet's source is a memory port, a bank or the Link Engine, here or on another package: a response (11 R380). -/
def fromMemory (src : Nat) : Bool :=
  if 2 ^ 40 ≤ src then decide (320 ≤ src / 2 ^ 12 % 512) else decide (2 ^ 21 ≤ src) && src != srcPlumb

/-- Deliver a token packet to its cluster: reserved kinds are discarded as leaks (01 R16), a stopped region's tokens go to
the capture buffer (01 R44). Packets of one source and one destination arrive in order (01 R33). -/
def deliverPacket (s : State) (k : Nat) : State :=
  match s.net[k]? with
  | none => s
  | some p =>
    if (s.net.take k).any fun q => q.src == p.src && q.dst == p.dst then s
    else
      let s := { s with net := removeAt s.net k }
      let r := getRegion s p.region
      let a : Arrival := { region := p.region, src := p.src, tok := p.tok, data := p.data, since := s.htime }
      if (getRegion s p.region).state = .free then s
      else
      let s := if fromMemory p.src then modRegion s p.region fun r => { r with wdSeen := true } else s
      if p.tok.kind = .res6 ∨ p.tok.kind = .res7 then addDiscarded s p.region (nodeField r p.dst p.tok.dst.slot) 1
      else if isStopped s p.region then modCluster s p.dst fun c => { c with capture := c.capture ++ [a] }
      else modCluster s p.dst fun c => { c with arrivals := c.arrivals ++ [a] }

/-! ### The matching store (05 R141 to R143) -/

def Entry.inSet (e : Entry) (n : Nat) : Bool := setIndex e.slot e.tag == n

/-- The lowest-numbered free way of a set. -/
def freeWay (k : Cluster) (set : Nat) : Option Nat :=
  (List.range 8).find? fun w => !k.entries.any fun e => e.place == .way w && e.inSet set

/-- The lowest-numbered free slot of the overflow buffer; its highest 16 entries serve only the oldest colour (R143). -/
def freeOverflow (k : Cluster) (oldest : Bool) : Option Nat :=
  (List.range (if oldest then 256 else 240)).find? fun n => !k.entries.any fun e => e.place == .over n

/-- The oldest entry with the token's key whose port cell is empty. -/
def matchEntry (k : Cluster) (a : Arrival) : Option Nat :=
  let ok (e : Entry) : Bool :=
    e.region == a.region && e.slot == a.tok.dst.slot && e.tag == a.tok.tag && e.st == .part &&
    (e.cells.getD a.tok.dst.port.toNat none).isNone
  let best := (k.entries.filter ok).foldl (fun m e => match m with
    | none => some e.seq
    | some n => some (min n e.seq)) none
  match best with
  | none => none
  | some n => k.entries.findIdx? fun e => ok e && e.seq == n

/-- Every port of the node has its token. -/
def cellsFull (e : Entry) (ports : Nat) : Bool := (List.range ports).all fun p => (e.cells.getD p none).isSome

/-- How a completed match stands once its lines are known: ready in matched order, an error firing under R27, or waiting.
A stale binding is found where the firing is performed, against the binding of that moment (07 R236). -/
def lineState (s : State) (c : Nat) (w : Word128) (toks : List Tok) (n : Nat) : Match :=
  let hs := lineHandles s c w toks
  match handlesAre s c hs with
  | .ready => .ready n false
  | .stale => .ready n (handlesAre s c (hs.filter fun e => (tileOperands s c w toks).contains e) == .stale)
  | .waiting => .lines n

/-- How a completed match stands; a quad-remote tile asks its owner first (07 R240). -/
def matchedState (s : State) (c : Nat) (w : Word128) (toks : List Tok) (n : Nat) : Match :=
  if (lineHandles s c w toks).any fun e => isRemote c e.1 then .lines n else lineState s c w toks n

def tokensOf (e : Entry) (ports : Nat) : List Tok := (List.range ports).map fun p => (e.cells.getD p none).getD Tok.none

/-- A token or entry of a successor's context waits at a slot with the packet that waits there (01 R38). -/
def awaitsPacket (s : State) (rid c : Nat) (slot : BitVec 11) (t : Tag) : Bool :=
  (getSlot s c slot).waiting.isSome && (getRegion s rid).succs.contains t.ctx

/-- Close an entry whose cells are all present. -/
def closeEntry (s : State) (c : Nat) (e : Entry) : State × Entry :=
  let x := getSlot s c e.slot
  let k := getCluster s c
  if x.occ && !x.rw && cellsFull e (wordPorts x.word) && !awaitsPacket s e.region c e.slot e.tag then
    (setCluster s c { k with nextSeq := k.nextSeq + 1 },
     { e with st := matchedState s c x.word (tokensOf e (wordPorts x.word)) k.nextSeq })
  else (s, e)

/-- An entry's KEEP cells. -/
def keptCells (e : Entry) : List (Option Tok) := e.cells.map fun x => x.filter fun t => t.flag.keep

/-- Write an entry at its place. Those of a matched firing's tokens that carry KEEP stay there, as an entry that the next
token can complete, from the cycle in which the firing is taken (01 R26, 05 R145; notes/assumptions/99.md). -/
def putEntry (k : Cluster) (i : Nat) (e : Entry) : Cluster :=
  let kept := keptCells e
  match e.st with
  | .ready .. =>
    if kept.any Option.isSome then
      { k with entries := k.entries.set i { e with cells := kept, st := .part } ++ [{ e with place := .bypass }] }
    else { k with entries := k.entries.set i e }
  | _ => { k with entries := k.entries.set i e }

/-- Put a token into an existing entry's empty cell. -/
def joinEntry (s : State) (c i : Nat) (a : Arrival) : State :=
  let k := getCluster s c
  match k.entries[i]? with
  | none => s
  | some e =>
    let e := { e with cells := e.cells.set a.tok.dst.port.toNat (some a.tok) }
    let (s, e) := closeEntry s c e
    modCluster s c fun k => putEntry k i e

/-- A place for a new entry: a way, the overflow buffer, or, for a one-port node whose tile is ready, neither (R142). -/
def newPlace (s : State) (c : Nat) (a : Arrival) : Option Place :=
  let k := getCluster s c
  let x := getSlot s c a.tok.dst.slot
  let single := x.occ && !x.rw && wordPorts x.word == 1 && a.tok.dst.port == 0 &&
    !awaitsPacket s a.region c a.tok.dst.slot a.tok.tag
  if single && (match matchedState s c x.word [a.tok] 0 with | .lines _ => false | _ => true) then some .bypass
  else match freeWay k (setIndex a.tok.dst.slot a.tok.tag) with
    | some w => some (.way w)
    | none => (freeOverflow k (isOldest (getRegion s a.region) a.tok.tag)).map Place.over

def openEntry (s : State) (c : Nat) (a : Arrival) (p : Place) : State :=
  let k := getCluster s c
  let e : Entry := { region := a.region, slot := a.tok.dst.slot, tag := a.tok.tag,
                     cells := (List.replicate 4 none).set a.tok.dst.port.toNat (some a.tok), seq := k.nextSeq, place := p,
                     st := .part }
  let s := setCluster s c { k with nextSeq := k.nextSeq + 1 }
  let (s, e) := closeEntry s c e
  modCluster s c fun k => { k with entries := k.entries ++ [e] }

/-! ### Snapshots at a node (05 R177, 11 R375, R376) -/

/-- Write one record of a snapshot, with the lines of a tile after it; beyond the area it is only noted (11 R375). -/
def snapRecord (s : State) (rid c : Nat) (slot : BitVec 11) (kind port : Nat) (tok : Option Tok) (count ord : Nat) : State :=
  let r := getRegion s rid
  match r.snapshot with
  | none => s
  | some p =>
    let rel (t : Tok) : Tok :=
      let h := handleOf t.payload
      { t with dst := { t.dst with cluster := BitVec.ofNat 9 (r.relative t.dst.cluster.toNat) },
               payload := if isTile t then ({ h with owner := r.relative h.owner } : Handle).word else t.payload }
    let body := match tok with
      | some t => leBytes 8 (headerBits (rel t)).toNat ++ leBytes 8 (rel t).payload.toNat
      | none => leBytes 4 count ++ leBytes 12 0
    let rec32 := leBytes 1 kind ++ leBytes 1 port ++ leBytes 1 (r.dieIx (c / 512)) ++ leBytes 1 0 ++
      leBytes 2 (r.relative (c % 512)) ++ leBytes 2 slot.toNat ++ body ++ leBytes 4 ord ++ leBytes 4 0
    let (s, lines) := match tok with
      | some t => if isTile t then
          let h := handleOf t.payload
          let (s, d) := readLines s (tileCluster c h) h.base h.lines
          (s, d.bytes)
        else (s, [])
      | none => (s, [])
    let all := rec32 ++ lines
    let fits := decide (64 + p.used + all.length ≤ r.snapLen.toNat * 4096)
    let s := if fits then (writeMem s (r.snapBase.toNat + 64 + p.used) all false).1 else s
    modRegion s rid fun r =>
      { r with snapshot := some { p with used := if fits then p.used + all.length else p.used, records := if fits then p.records + 1 else p.records,
                                         overflow := p.overflow || !fits } }

/-- A node's place in the list of nodes that have saved and not forwarded. -/
def savingAt (r : Region) (c : Nat) (slot : BitVec 11) : Option (Nat × BitVec 11 × BitVec 4) :=
  match r.snapshot with
  | none => none
  | some p => p.saving.find? fun x => x.1 == c && x.2.1 == slot

def modSnapshot (s : State) (rid : Nat) (f : Snapshot → Snapshot) : State :=
  modRegion s rid fun r => { r with snapshot := r.snapshot.map f }

/-- Save a node: a record for each token of its entries (R177). -/
def saveNode (s : State) (rid c : Nat) (slot : BitVec 11) : State :=
  let es := (getCluster s c).entries.filter fun e => e.region == rid && e.slot == slot
  es.foldl (fun s e => (List.range 4).foldl (fun s p => match e.cells.getD p none with
    | some t => snapRecord s rid c slot 1 p (some t) 0 e.seq
    | none => s) s) s

/-- A node forwards: its KIND 3 record, and a marker on every destination ahead of any later token. -/
def forwardMarkers (s : State) (rid c : Nat) (slot : BitVec 11) (epoch : Word) (tag : Tag) : State :=
  let x := getSlot s c slot
  let sink := wordEcl x.word == 0 && wordOpc x.word == 0x09
  let drop := wordEcl x.word == 0 && wordOpc x.word == 0x08
  let s := snapRecord s rid c slot 3 0 none (if sink then Tab.get 0 (getCluster s c).sunk slot.toNat else 0) 0
  if sink || drop then s
  else
    let f : Firing := { Firing.none with region := rid, cluster := c, slot := slot, tag := tag, word := x.word,
                                         route := nextWord s c slot }
    sendOuts s f ((outAll s f (rawOp x.word) .marker Flag.none epoch).map fun o => o.tok tag false)

/-- A node has forwarded for the epoch in progress, or is a MARK node that has saved. -/
def forwarded (r : Region) (c : Nat) (slot : BitVec 11) : Bool :=
  (r.snapshot.map fun p => p.done.contains (c, slot)).getD false

/-- A marker of the epoch in progress reaches port p of a node; another epoch is discarded and counted, and a marker on a
MARK node's input is discarded (R177, R178). A token to a route word's slot is discarded as a leak (03 R77). -/
def takeMarker (s : State) (c : Nat) (a : Arrival) : State :=
  let slot := a.tok.dst.slot
  let x := getSlot s c slot
  let node := nodeField (getRegion s a.region) c slot
  if x.rw then addDiscarded s a.region node 1
  else if wordEcl x.word = 0 ∧ wordOpc x.word = 0x23 then s
  else match (getRegion s a.region).snapshot with
    | none => addDiscarded s a.region node 1
    | some p =>
      if p.epoch ≠ a.tok.payload then addDiscarded s a.region node 1
      else if forwarded (getRegion s a.region) c slot then s
      else
        let bit : BitVec 4 := BitVec.ofNat 4 (2 ^ a.tok.dst.port.toNat)
        let (s, seen) := match savingAt (getRegion s a.region) c slot with
          | some z => (s, z.2.2 ||| bit)
          | none => (saveNode s a.region c slot, bit)
        modSnapshot s a.region fun p =>
          { p with saving := (p.saving.filter fun z => !(z.1 == c && z.2.1 == slot)) ++ [(c, slot, seen)] }

/-- A saved node forwards once a marker has arrived on every port and its earlier firings have sent their tokens (R177,
11 R376). -/
def forwardReady (s : State) (rid : Nat) : State :=
  let saving := ((getRegion s rid).snapshot.map Snapshot.saving).getD []
  saving.foldl (fun s z =>
    let x := getSlot s z.1 z.2.1
    let all := (List.range (wordPorts x.word)).all fun i => z.2.2.getLsbD i
    if !all || nodeBusy s rid z.1 z.2.1 then s
    else
      let epoch := ((getRegion s rid).snapshot.map Snapshot.epoch).getD 0
      let s := modSnapshot s rid fun p =>
        { p with saving := p.saving.filter (fun y => !(y.1 == z.1 && y.2.1 == z.2.1)), done := p.done ++ [(z.1, z.2.1)] }
      forwardMarkers s rid z.1 z.2.1 epoch { Tag.none with ctx := x.ctx.getD 0 }) s

/-- Record a token that arrives ahead of its port's marker at a saving node (R177). -/
def channelToken (s : State) (c : Nat) (a : Arrival) : State :=
  match savingAt (getRegion s a.region) c a.tok.dst.slot with
  | none => s
  | some z =>
    if z.2.2.getLsbD a.tok.dst.port.toNat then s
    else snapRecord s a.region c a.tok.dst.slot 2 a.tok.dst.port.toNat (some a.tok) 0 (getCluster s c).nextSeq

/-! ### Arrival of a token (05 R142, R143) -/

/-- No earlier arrival from the same source that must go first: a tile's data or a marker (01 R33). -/
def mayPass (as : List Arrival) (i : Nat) : Bool :=
  match as[i]? with
  | none => false
  | some a => !(as.take i).any fun b => b.src == a.src && (b.data.isSome || b.tok.kind == .marker)

/-- A LAST-flagged token has reached a port of the node (01 R38). -/
def noteLast (s : State) (rid c : Nat) (t : Tok) : State :=
  if t.flag.last && !awaitsPacket s rid c t.dst.slot t.tag then
    let x := getSlot s c t.dst.slot
    setSlot s c t.dst.slot { x with last := x.last ||| BitVec.ofNat 4 (2 ^ t.dst.port.toNat) }
  else s

def dropArrival (s : State) (c i : Nat) : State := modCluster s c fun k => { k with arrivals := removeAt k.arrivals i }

/-- Take the arrival at place i into the store; none when it must wait (R143), as it does for a new entry unless it is the
oldest waiting token. A token to a route word's slot is discarded before its colour is looked at (03 R77;
notes/assumptions/100.md). -/
def placeArrival (s : State) (c i : Nat) (mayOpen : Bool) : Option State :=
  let k := getCluster s c
  match k.arrivals[i]? with
  | none => none
  | some a =>
    let r := getRegion s a.region
    let x := getSlot s c a.tok.dst.slot
    let node := nodeField r c a.tok.dst.slot
    if x.rw then some (addDiscarded (dropArrival s c i) a.region node 1)
    else if !isLive r a.tok.tag then some (addStale (dropArrival s c i) a.region node 1)
    else match matchEntry k a with
      | some e => some (joinEntry (noteLast (channelToken (dropArrival s c i) c a) a.region c a.tok) c e a)
      | none =>
        if !mayOpen then none
        else match newPlace s c a with
          | none => none
          | some p => some (openEntry (noteLast (channelToken (dropArrival s c i) c a) a.region c a.tok) c a p)

def isPlain (a : Arrival) : Bool := a.data.isNone && a.tok.kind != .marker

/-- The plain arrivals in order, with their places. -/
def plainArrivals (k : Cluster) : List Nat :=
  (List.range k.arrivals.length).filter fun i => (k.arrivals[i]?.map isPlain).getD false && mayPass k.arrivals i

def firstSome {α β : Type} (f : α → Option β) : List α → Option β
  | [] => none
  | a :: l => match f a with | some b => some b | none => firstSome f l

/-- One arriving token is placed: the oldest, or where it must wait a later one that enters an existing entry. -/
def arrive (s : State) (c : Nat) : State :=
  match plainArrivals (getCluster s c) with
  | [] => s
  | i :: rest =>
    match placeArrival s c i true with
    | some s => s
    | none => (firstSome (fun j => placeArrival s c j false) rest).getD s

def execTokenArrival (c : Nat) (s : State) : Host.Outcome State Fault Refusal := .next (arrive s c)

/-- When an entry frees, the oldest waiting token is placed first (R143). -/
def execEjectionWaitPlacement (c : Nat) (s : State) : Host.Outcome State Fault Refusal :=
  match plainArrivals (getCluster s c) with
  | [] => .next s
  | i :: _ => .next ((placeArrival s c i true).getD s)

def execPacketRouting (k : Nat) (s : State) : Host.Outcome State Fault Refusal := .next (deliverPacket s k)

/-- The first arrival that satisfies a test and that nothing from its source precedes. -/
def firstArrival (k : Cluster) (p : Arrival → Bool) : Option Nat :=
  (List.range k.arrivals.length).find? fun i => match k.arrivals[i]? with
    | none => false
    | some a => p a && !(k.arrivals.take i).any fun b => b.src == a.src

def execMarkerArrival (c : Nat) (s : State) : Host.Outcome State Fault Refusal :=
  .next (match firstArrival (getCluster s c) (fun a => a.tok.kind == .marker) with
    | none => s
    | some i => match (getCluster s c).arrivals[i]? with
      | none => s
      | some a => takeMarker (dropArrival s c i) c a)

/-- A tile packet takes pool lines, fills them, and its handle names the new lines (01 R34). A stale one is dropped; a
route word's is discarded first (03 R77; notes/assumptions/100.md). -/
def execTilePacketDelivery (c : Nat) (s : State) : Host.Outcome State Fault Refusal :=
  .next (match firstArrival (getCluster s c) (fun a => a.data.isSome) with
    | none => s
    | some i => match (getCluster s c).arrivals[i]? with
      | none => s
      | some a =>
        let r := getRegion s a.region
        let node := nodeField r c a.tok.dst.slot
        if (getSlot s c a.tok.dst.slot).rw then addDiscarded (dropArrival s c i) a.region node 1
        else if !isLive r a.tok.tag then addStale (dropArrival s c i) a.region node 1
        else
          let h := handleOf a.tok.payload
          match allocLines s a.region c a.tok.tag h.lines with
          | none => s
          | some (s, b, g) =>
            let s := match a.data with | some d => writeLines s c b d | none => s
            let s := markFull s c b h.lines
            let h := { h with base := b, gen := g.toNat, res := 0, owner := c % 512 }
            modCluster s c fun k =>
              { k with arrivals := k.arrivals.set i { a with data := none, tok := { a.tok with payload := h.word } } })

/-- MATCH_OVERFLOW (05 R144, R179): 65,536 cycles with no entry freed; a cycle counts as a tick (notes/assumptions/2.md). -/
def execMatchOverflow (c : Nat) (s : State) : Host.Outcome State Fault Refusal :=
  let k := getCluster s c
  .next (match plainArrivals k with
    | [] => s
    | i :: rest =>
      match k.arrivals[i]? with
      | none => s
      | some a =>
        if s.htime < a.since + 65536 ∨ (placeArrival s c i true).isSome ∨ (getRegion s a.region).freezeAt.isSome ∨
           isStopped s a.region then s
        else
          let spilled := (k.entries.filter fun e => match e.place with | .over _ => true | _ => false).length
          let s := faultFreeze s a.region
          raiseCause s a.region aMATCH_OVERFLOW c a.tok.dst.slot (tagBits a.tok.tag a.tok.kind a.tok.flag)
            (leBytes 2 (setIndex a.tok.dst.slot a.tok.tag) ++ leBytes 2 spilled ++ leBytes 2 (1 + rest.length) ++ leBytes 2 0 ++
             leBytes 8 (headerBits a.tok).toNat ++ leBytes 8 a.tok.payload.toNat))

/-- Entries that wait for lines, in order. -/
def lineWaits (k : Cluster) : List Nat :=
  (List.range k.entries.length).filter fun i => match (k.entries[i]?).map Entry.st with
    | some (.lines _) => true
    | _ => false

/-- A waiting firing looks at its lines again: ready, an error firing, or still waiting (01 R27). -/
def recheckLines (s : State) (c i : Nat) : State :=
  match (getCluster s c).entries[i]? with
  | none => s
  | some e => match e.st with
    | .lines n =>
      let w := (getSlot s c e.slot).word
      modCluster s c fun k => putEntry k i { e with st := lineState s c w (tokensOf e (wordPorts w)) n }
    | _ => s

def execTileOperandReady (c k : Nat) (s : State) : Host.Outcome State Fault Refusal :=
  .next (match (lineWaits (getCluster s c))[k]? with
    | none => s
    | some i => recheckLines s c i)

/-- The entries of an owner's quad that wait for its lines: cluster and place (07 R240). -/
def quadWaits (s : State) (owner : Nat) : List (Nat × Nat) :=
  let d := owner / 512 * 512
  let q := quadOf (owner % 512)
  let peers := ((List.range 320).filter fun cl => quadOf cl == q).map (d + ·)
  peers.flatMap fun c => ((lineWaits (getCluster s c)).filter fun i =>
    match (getCluster s c).entries[i]? with
    | none => false
    | some e =>
      let w := (getSlot s c e.slot).word
      (lineHandles s c w (tokensOf e (wordPorts w))).any fun h => tileCluster c (handleOf h.1) == owner).map fun i => (c, i)

def execQuadLineStateQuery (owner k : Nat) (s : State) : Host.Outcome State Fault Refusal :=
  .next (match (quadWaits s owner)[k]? with
    | none => s
    | some (c, i) => recheckLines s c i)

/-- The reads of an owner's lines that a firing makes: base, count and generation. -/
def quadReads (s : State) (owner : Nat) (f : Firing) : List (Nat × Nat × Nat) :=
  ((lineHandles s f.cluster f.word f.toks).map fun e => handleOf e.1).filter (fun h => tileCluster f.cluster h == owner) |>.map
    fun h => (h.base, h.lines, h.gen)

/-- The owner that a firing asks after one that has served it (07 R241). -/
def nextOwner (s : State) (f : Firing) (owner : Nat) : Option Nat :=
  ((quadOwners s f).dropWhile fun o => o != owner).drop 1 |>.head?

/-- A firing that an owner has served: on to the next owner of its lines, or performed. The generations were checked
again at the read (07 R240). -/
def quadServed (owner : Nat) (s : State) (f : Firing) : State :=
  let port := (tileOperands s f.cluster f.word f.toks).filter fun e => tileCluster f.cluster (handleOf e.1) == owner
  let g := { f with stale := f.stale || handlesAre s f.cluster port == .stale }
  match nextOwner s f owner with
  | some o => modCluster s o fun k => { k with quad := k.quad ++ [g] }
  | none => { s with issued := s.issued ++ [g] }

/-- A quad owner serves the next queued read; later reads of the same lines by the quad's Matrix Engines join it (07 R241).
The served firings are performed next. -/
def execQuadReadServe (owner : Nat) (s : State) : Host.Outcome State Fault Refusal :=
  let k := getCluster s owner
  .next (match k.quad with
    | [] => s
    | f :: rest =>
      let same := if wordEcl f.word = 2 then
          rest.filter fun g => wordEcl g.word == 2 && quadReads s owner g == quadReads s owner f else []
      (f :: same).foldl (quadServed owner) (setCluster s owner { k with quad := rest.filter fun g => !same.contains g }))

/-! ### SRC streams (05 R159) -/

/-- A firing of an ORD node emits after another of that node that issued before it (03 R71). -/
def afterInOrder (f earlier : Firing) : Bool :=
  f.word.getLsbD 101 && earlier.slot == f.slot && earlier.region == f.region && earlier.cluster == f.cluster

def streamOp (st : Stream) : Op :=
  { rawOp st.firing.word with fmt := (Fmt.ofCode (bits st.firing.word 116 112)).getD .i64 }

/-- A running stream emits its next value, after the colour it needs; the last carries LAST. -/
def execSrcStreamEmit (c k : Nat) (s : State) : Host.Outcome State Fault Refusal :=
  .next (match (getCluster s c).streams[k]? with
    | none => s
    | some st =>
      let f := st.firing
      let o := streamOp st
      let first := ((getCluster s c).streams.take k).all fun x => !afterInOrder f x.firing
      if isStopped s f.region || !first then s
      else
        let tg := tagUnder s f (if o.xfm = .new then .new else .keep)
        match tg with
        | .refused => s
        | _ =>
          let s1 := match tg with | .tag s' _ => s' | _ => s
          let w := fmtBits o.fmt
          let last := decide (st.left = 1)
          let outs := outAll s f o .scalar { Flag.none with last := last } (narrow o.fmt (st.next.toNat % 2 ^ w))
          let s2 := emit s1 f o (if o.xfm = .new then .new else .keep) tg outs 0 0
          modCluster s2 c fun k' =>
            { k' with streams := if last then removeAt k'.streams k
                                 else k'.streams.set k { st with left := st.left - 1,
                                                                 next := st.next + o.imm.signExtend 64 } })

/-! ### CMPX (05 R170) -/

def modeReason (s : State) (r : Region) (t : Tag) : BitVec 8 :=
  if irrevBelow r t then 1 else if (spawnState s r t).testBit 6 then 4 else 3

/-- The node at the same relative address of the partner region (05 R170, R179). -/
def twinNode (s : State) (f : Firing) (p : Nat) : Nat :=
  let r := getRegion s f.region
  match (getRegion s p).absolute (r.relative (f.cluster % 512)) with
  | none => 0
  | some cl => nodeField (getRegion s p) (clusterKey (((getRegion s p).dies.getD (r.dieIx (f.cluster / 512)) none).getD 0) cl) f.slot

/-- A mismatch, or no partner in time: purge the strand; a strand that CMPX purged before for the same key, or that cannot
be replayed, raises TWIN_MISMATCH in both regions and is reported failed. -/
def cmpxFail (s : State) (w : Cmpx) (other : Option Nat) : State :=
  let f := w.firing
  let r := getRegion s f.region
  match liveColour r f.tag with
  | none => s
  | some c =>
    let mark := (f.tag.ctx, c.key, w.key)
    let st := spawnState s r f.tag
    let fatal := r.twinPurges.contains mark || irrevBelow r f.tag || st.testBit 6 || st % 4 == 3
    if !fatal then
      requestPurge (setRegion s f.region { r with twinPurges := r.twinPurges ++ [mark] }) f.region f.tag
    else
      let (p, prim) := r.twin.getD (f.region, true)
      let mine := Config.digest8 w.digest
      let theirs := match other with | some d => Config.digest8 d | none => 0
      let detail := leBytes 1 (if prim then f.region else p) ++ leBytes 1 (if prim then p else f.region) ++
        leBytes 1 f.tag.ctx.toNat ++ leBytes 5 0 ++ leBytes 8 w.key.toNat ++
        leBytes 8 (if prim then mine else theirs).toNat ++ leBytes 8 (if prim then theirs else mine).toNat
      let s := raiseCause s f.region aTWIN_MISMATCH f.cluster f.slot (tagBits f.tag .scalar Flag.none) detail
      let s := if p = f.region then s else raiseTo s (getRegion s p).owner aTWIN_MISMATCH p (twinNode s f p) 0 detail
      requestFail s f.region f.tag (modeReason s r f.tag) ePOISON

/-- The partner's digest for a waiting firing, if it has come: its place among the digests under way. -/
def digestFor (s : State) (w : Cmpx) : Option Nat :=
  let f := w.firing
  let r := getRegion s f.region
  s.digests.findIdx? fun d => d.region == f.region && d.die == r.dieIx (f.cluster / 512) &&
    d.cluster == r.relative (f.cluster % 512) && d.slot == f.slot && d.ctx == f.tag.ctx && d.key == w.key

def execCmpxDigestArrival (c k : Nat) (s : State) : Host.Outcome State Fault Refusal :=
  .next (match (getCluster s c).cmpx[k]? with
    | none => s
    | some w => match digestFor s w with
      | none => s
      | some j =>
        if ((getCluster s c).cmpx.take k).any fun x => afterInOrder w.firing x.firing then s else match s.digests[j]? with
        | none => s
        | some d =>
          let s := { s with digests := removeAt s.digests j }
          let s := modCluster s c fun k' => { k' with cmpx := removeAt k'.cmpx k }
          let f := w.firing
          if d.digest = w.digest then
            match (getRegion s f.region).twin with
            | some (_, true) =>
              let o := rawOp f.word
              emit s f o .keep (.tag s f.tag) (passTo (destinations s f o) (tokAt f 0)) 0 0
            | _ => s
          else cmpxFail s w (some d.digest))

def execCmpxTimeout (c k : Nat) (s : State) : Host.Outcome State Fault Refusal :=
  .next (match (getCluster s c).cmpx[k]? with
    | none => s
    | some w =>
      if s.htime < w.since + 2 ^ 20 then s
      else cmpxFail (modCluster s c fun k' => { k' with cmpx := removeAt k'.cmpx k }) w none)

/-! ### Configuration packets and splicing (01 R35, R38; 05 R167, R168) -/

/-- An entry that has not issued matches against the slot's new word (05 R168): one whose cells are all present, and not
all of them KEEP cells that stayed (05 R145), is matched; one that lacks a cell waits for it. -/
def rematchEntry (s : State) (c i : Nat) : State :=
  match (getCluster s c).entries[i]? with
  | none => s
  | some e =>
    let x := getSlot s c e.slot
    let n := wordPorts x.word
    let fresh := (e.cells.take n).any fun k => match k with | some t => !t.flag.keep | none => false
    let put (s : State) (e : Entry) : State := modCluster s c fun k => putEntry k i e
    if !(x.occ && !x.rw && cellsFull e n) then put s { e with st := .part }
    else if e.st == .part && fresh then (let (s, e) := closeEntry s c e; put s e) else s

def rematch (s : State) (c : Nat) (slot : BitVec 11) : State :=
  let es := (getCluster s c).entries
  ((List.range es.length).filter fun i => ((es[i]?).map fun e => e.slot == slot).getD false).foldl (fun s i => rematchEntry s c i) s

/-- Put a configuration packet's word into a slot whole. -/
def installConfig (s : State) (c : Nat) (slot : BitVec 11) (w : Config) : State :=
  rematch (setSlot s c slot { Slot.empty with occ := !w.rw, rw := w.rw, word := w.word, ctx := w.ctx }) c slot

/-- The predecessor node has had LAST on every port, holds no entry of its own, half-matched or matched and not yet issued,
and every colour that fired at it has been freed (R38; 01 R26). -/
def nodeDone (s : State) (c : Nat) (slot : BitVec 11) : Bool :=
  let x := getSlot s c slot
  ((List.range (wordPorts x.word)).all fun p => x.last.getLsbD p) &&
  !((getCluster s c).entries.any fun e => e.slot == slot && !awaitsPacket s e.region c slot e.tag) &&
  !(x.fired.any fun t => s.regions.any fun r => isLive r.2 t && (regionClusters s r.2).contains c)

/-- The node that holds a slot: the operator in it, or the one before it, whose route word it is (01 R14; 03 R74). -/
def slotHolder (s : State) (c : Nat) (slot : BitVec 11) : Option (BitVec 11) :=
  let x := getSlot s c slot
  if x.occ then some slot else if x.rw && (getSlot s c (slot - 1)).occ then some (slot - 1) else none

/-- No node holds the slot, or the one that does is done. -/
def slotDone (s : State) (c : Nat) (slot : BitVec 11) : Bool :=
  match slotHolder s c slot with
  | none => true
  | some h => nodeDone s c h

/-- A slot free again; a packet that waits there goes on waiting. -/
def clearSlot (s : State) (c : Nat) (slot : BitVec 11) : State :=
  let x := getSlot s c slot
  setSlot s c slot { Slot.empty with waiting := x.waiting, since := x.since, blocked := x.blocked }

/-- The node that holds a slot gives up both its slots. -/
def vacateFor (s : State) (c : Nat) (slot : BitVec 11) : State :=
  match slotHolder s c slot with
  | none => clearSlot s c slot
  | some h =>
    let two := wordRwi (getSlot s c h).word != 0
    let s := clearSlot (clearSlot s c slot) c h
    if two then clearSlot s c (h + 1) else s

/-- The slot of the node that a packet belongs to: its own, or for a route word the one before. -/
def packetNode (slot : BitVec 11) (w : Config) : BitVec 11 := if w.rw then slot - 1 else slot

/-- The region in which a cluster lies. -/
def regionOf (s : State) (c : Nat) : Option Nat :=
  (s.regions.find? fun r => r.2.state != .free && (regionClusters s r.2).contains c).map Prod.fst

/-- The waiting packets of a node take its slots, where no predecessor holds them any more: a node with a route word comes
in with both its packets at once. While the region is stopped they wait (05 R180). -/
def spliceInto (s : State) (c : Nat) (b : BitVec 11) : State :=
  match (getSlot s c b).waiting with
  | none => s
  | some w =>
    if ((regionOf s c).map (isStopped s)).getD false then s
    else if w.rw || !slotDone s c b then s
    else if wordRwi w.word = 0 then installConfig (vacateFor s c b) c b w
    else match (getSlot s c (b + 1)).waiting with
      | none => s
      | some v =>
        if v.rw && slotDone s c (b + 1) then
          installConfig (installConfig (vacateFor (vacateFor s c b) c (b + 1)) c (b + 1) v) c b w
        else s

/-- A configuration packet that its cluster takes: into its slots at once where it can, otherwise waiting. -/
def takeConfig (s : State) (c : Nat) (slot : BitVec 11) (w : Config) : State :=
  spliceInto (setSlot s c slot { getSlot s c slot with waiting := some w, since := s.htime, blocked := false }) c (packetNode slot w)

/-- A packet at one physical cluster of its row: mapped out, it passes; with a count above zero it is decremented and
passed on; at zero it is taken (R35). -/
def execConfigPacketHop (k : Nat) (s : State) : Host.Outcome State Fault Refusal :=
  .next (match s.hops[k]? with
    | none => s
    | some h =>
      let out := s.service.mapped.contains (h.die, h.row, h.col)
      if 17 ≤ h.col then { s with hops := removeAt s.hops k }
      else if out then { s with hops := s.hops.set k { h with col := h.col + 1 } }
      else if h.count = 0 then
        let before := (s.service.mapped.filter fun m => m.1 == h.die && m.2.1 == h.row && decide (m.2.2 < h.col)).length
        takeConfig { s with hops := removeAt s.hops k } (clusterKey h.die (16 * h.row + (h.col - before))) h.slot h.what
      else { s with hops := s.hops.set k { h with col := h.col + 1, count := h.count - 1 } })

def execSpliceReplacement (c : Nat) (slot : BitVec 11) (s : State) : Host.Outcome State Fault Refusal :=
  .next (match (getSlot s c slot).waiting with
    | none => s
    | some w => spliceInto s c (packetNode slot w))

def execSpliceTimeLimit (c : Nat) (slot : BitVec 11) (s : State) : Host.Outcome State Fault Refusal :=
  let x := getSlot s c slot
  .next (match x.waiting, regionOf s c with
    | some _, some rid =>
      if isStopped s rid || x.blocked || !(x.occ || x.rw) || decide (s.htime < x.since + 2 ^ 24) then s
      else
        let r := getRegion s rid
        raiseCause (setSlot s c slot { x with blocked := true }) rid aSPLICE_BLOCKED c slot 0
          (leBytes 1 2 ++ leBytes 3 0 ++ leBytes 4 (nodeField r c slot) ++ leBytes 8 r.imageAt.toNat)
    | _, _ => s)

/-! ### The sink ring (04 R121) -/

/-- Every thread whose HREGION names a region gets a WFE event (04 R139). -/
def wakeUsers (s : State) (h : Word) : State :=
  (List.range 64).foldl (fun s th => if (getThread s th).region = h then wakeThread s th else s) s

/-- The oldest waiting SINK token enters its region's ring of 1,024 tokens. -/
def execSinkRingEntry (rid : Nat) (s : State) : Host.Outcome State Fault Refusal :=
  let r := getRegion s rid
  .next (match r.sinkWait with
    | [] => s
    | t :: rest =>
      if 1024 ≤ r.sinks.length || r.stopped then s
      else wakeUsers (setRegion s rid { r with sinks := r.sinks ++ [t], sinkWait := rest }) r.handle)

end Sys2Proof.Machine
end

