-- ==== Sys2Proof/Machine/Purge.lean ====
section
/-! DEFINITION. Purge, replay and failure of an activation, colours at their home cluster, and the tokens' part of a thaw
(05 R171 to R174; 01 R19, R43, R44; 04 R120; 11 R356, R374, R382). -/

namespace Sys2Proof.Machine

/-! ### What a purge removes (05 R172; 08 R285; 09 R312, R318; 10 R346; 11 R382; 12 R412) -/

def isOf (rid : Nat) (t : Tag) (f : Firing) : Bool := f.region == rid && f.tag == t

/-- Keep what does not satisfy p, and say how many did. -/
def cull {α : Type} (p : α → Bool) (l : List α) : List α × Nat := (l.filter fun a => !p a, (l.filter p).length)

/-- SORDER notes that name firings which have completed or left hold nothing back for them (08 R278). -/
def dropNoted (k : Cluster) (gone : List Nat) : Cluster :=
  { k with notes := (k.notes.map fun n => { n with noted := n.noted.filter fun i => !gone.contains i }).filter fun n =>
             !n.noted.isEmpty }

/-- Remove a colour's entries and waiting firings from a cluster: the matching store, SRC streams, CMPX and PTIME waits,
and pending stencil firings. -/
def purgeCluster (now rid : Nat) (t : Tag) (k : Cluster) : Cluster × Nat :=
  let mine (e : Entry) : Bool := e.region == rid && e.tag == t
  let e := cull mine k.entries
  let k := waitAnew now (k.entries.filter mine) k
  let st := cull (fun x : Stream => isOf rid t x.firing) k.streams
  let cx := cull (fun x : Cmpx => isOf rid t x.firing) k.cmpx
  let pt := cull (fun x : Firing × Nat => isOf rid t x.1) k.ptimes
  let qs := k.queues.map fun q =>
    let p := cull (fun x : SFiring => isOf rid t x.firing) q.2.pending
    ((q.1, { q.2 with pending := p.1 }), p.2)
  let gone := k.queues.flatMap fun q => (q.2.pending.filter fun x => isOf rid t x.firing).map SFiring.no
  let k := dropNoted k gone
  ({ k with entries := e.1, streams := st.1, cmpx := cx.1, ptimes := pt.1,
            queues := (qs.map Prod.fst).filter fun q => q.2 != SQueue.empty },
   e.2 + st.2 + cx.2 + pt.2 + (qs.map Prod.snd).foldl (· + ·) 0)

/-- Remove a colour's held firings, wave record and waiting accesses from a port. -/
def purgePort (rid : Nat) (t : Tag) (p : Port) : Port × Nat :=
  let g := p.gens.map fun e => match e.2 with
    | some j => if isOf rid t j.firing && j.held.isSome then ((e.1, none), 1) else (e, 0)
    | none => (e, 0)
  let w := cull (fun j : Job => isOf rid t j.firing) p.waiting
  let r := cull (fun x : Wave => x.region == rid && x.tag == t) p.waves
  ({ p with gens := (g.map Prod.fst).filter fun e => e.2.isSome, waiting := w.1, waves := r.1 },
   (g.map Prod.snd).foldl (· + ·) 0 + w.2 + r.2)

/-- Remove a colour's waiting class-6 firings. A signal that has entered Plumb goes on to its root without its firing; one
that has not never arrives. -/
def purgePlumb (now rid : Nat) (t : Tag) (p : Plumb) : Plumb × Nat :=
  let mine (u : Up) : Bool := isOf rid t u.firing && u.waits
  let up := cull (fun u : Up => mine u && decide (now < u.entry)) p.ups
  let ups := up.1.map fun u => if mine u then { u with gone := true } else u
  let dn := cull (fun l : Landing => l.what.firing.any (isOf rid t)) p.downs
  let lk := cull (isOf rid t) p.lookups
  let pu := cull (fun x : Firing × Nat × Nat => isOf rid t x.1) p.puts
  let pc := cull (isOf rid t) p.pcorrs
  let qu := cull (fun x : Firing × Nat => isOf rid t x.1) p.quiets
  let ps := cull (isOf rid t) p.psigs
  let round (r : Round) : Round × Nat :=
    let w := cull (fun x : Waits => isOf rid t x.firing) r.waits
    ({ r with waits := w.1 }, w.2)
  let cs := p.crews.map fun e =>
    let o := e.2.open_.map round
    let rs := e.2.rounds.map round
    ((e.1, { e.2 with open_ := o.map Prod.fst, rounds := rs.map Prod.fst }),
     ((o.map Prod.snd).getD 0) + (rs.map Prod.snd).foldl (· + ·) 0)
  ({ p with ups := ups, downs := dn.1, lookups := lk.1, puts := pu.1, pcorrs := pc.1, quiets := qu.1, psigs := ps.1,
            crews := cs.map Prod.fst },
   (p.ups.filter mine).length + dn.2 + lk.2 + pu.2 + pc.2 + qu.2 + ps.2 + (cs.map Prod.snd).foldl (· + ·) 0)

/-- Remove a colour's waiting link firings: waiting LRECVs and retrying LSENDs. -/
def purgeLink (rid : Nat) (t : Tag) (l : Link) : Link × Nat :=
  let rv := cull (fun x : Recv => isOf rid t x.firing) l.recvs
  let rq := l.reqs.map fun e => match e.2 with
    | some q => if q.retryAt.isSome && isOf rid t q.firing then ((e.1, none), 1) else (e, 0)
    | none => (e, 0)
  ({ l with recvs := rv.1, reqs := (rq.map Prod.fst).filter fun e => e.2.isSome }, rv.2 + (rq.map Prod.snd).foldl (· + ·) 0)

/-- Everything of a colour that waits anywhere leaves and is counted in PURGED. -/
def removeColour (s : State) (rid : Nat) (t : Tag) : State :=
  let cs := s.clusters.map fun e => let x := purgeCluster s.htime rid t e.2; ((e.1, x.1), x.2)
  let ps := s.ports.map fun e => let x := purgePort rid t e.2; ((e.1, x.1), x.2)
  let ws := cull (fun w : Waiter => isOf rid t w.firing) s.waiters
  let ns := cull (fun w : BankReq × Nat × Nat => isOf rid t w.1.firing) s.nacked
  let pl := purgePlumb s.htime rid t s.plumb
  let lk := purgeLink rid t s.link
  let n := (cs.map Prod.snd).foldl (· + ·) 0 + (ps.map Prod.snd).foldl (· + ·) 0 + ws.2 + ns.2 + pl.2 + lk.2
  addPurged { s with clusters := (cs.map Prod.fst).filter fun e => e.2 != Cluster.reset,
                     ports := (ps.map Prod.fst).filter fun e => e.2 != Port.reset, waiters := ws.1, nacked := ns.1,
                     plumb := pl.1, link := lk.1 } rid n

/-- Live children of a colour. -/
def childrenOf (r : Region) (t : Tag) : List Tag :=
  (liveTags r).filter fun u => ((liveColour r u).bind Colour.parent) == some t

/-- Every live child is purged without a replay. -/
def purgeChildren (s : State) (rid : Nat) (t : Tag) : State :=
  (childrenOf (getRegion s rid) t).foldl (fun s u =>
    let r := getRegion s rid
    if isPending s r u then s
    else raiseSignal (setSpawnState s r u (spawnState s r u ||| 0x80)) rid (.purge u false)) s

/-- The rounds that a member has taken part in and that have not ended; its contributions on their way to the root take
part in theirs. -/
def roundsWith (ups : List Up) (n : Nat) (c : Crew) (ix : Nat) : List Nat :=
  ((c.rounds ++ c.open_.toList).filter fun r => r.arrived.contains ix && !r.retired ||
    ups.any fun u => u.crew == n && u.gone && u.ask == .put ix r.no).map Round.no

/-- Mark the memberships of a colour that will be replayed; what an earlier purge left owed stays owed (11 R356). -/
def markReplayed (s : State) (rid : Nat) (t : Tag) : State :=
  let owe (n : Nat) (c : Crew) (m : Member) : Member :=
    if m.tag = t then
      { m with owed := m.owed ++ (roundsWith s.plumb.ups n c m.index).filter fun no => !m.owed.contains no }
    else m
  { s with plumb := { s.plumb with crews := s.plumb.crews.map fun e =>
      if e.2.region = rid then (e.1, { e.2 with members := e.2.members.map (owe e.1 e.2) }) else e } }

/-- A purge takes effect (R172). -/
def purgeColour (s : State) (rid : Nat) (t : Tag) (replay : Bool) : State :=
  match liveColour (getRegion s rid) t with
  | none => s
  | some c =>
    let s := removeColour s rid t
    let s := purgeChildren s rid t
    let r := getRegion s rid
    let a := spawnAddr s r t.ctx.toNat c.line
    let s := if replay then pokeN s (a + 7) 1 ((peek s (a + 7) 1 ||| 0x20) &&& 0x7F) else s
    let x := getCtx r t.ctx.toNat
    let x := { x with live := x.live.filter (fun k => k.col != c.col), gen := x.gen + 1,
                      quarantine := x.quarantine ++ [(c.col, 65536)],
                      waiting := if replay then x.waiting ++ [{ line := c.line, parent := c.parent, rmode := c.rmode0 }]
                                 else x.waiting }
    let s := setRegion s rid (setCtx r t.ctx.toNat x)
    if replay then markReplayed s rid t else leaveCrews s rid t

/-- A failed activation's item (13 R431): KIND, region, reason, die, tag, key colour, spawn node. -/
def activationItem (s : State) (rid kind reason die : Nat) (t : Tag) (key node : Nat) : List Byte :=
  leBytes 1 kind ++ leBytes 1 rid ++ leBytes 1 reason ++ leBytes 1 die ++ leBytes 1 t.ctx.toNat ++ leBytes 1 t.gen.toNat ++
  leBytes 2 t.col.toNat ++ leBytes 2 key ++ leBytes 2 0 ++ leBytes 4 node ++ leBytes 8 s.htime ++
  leBytes 1 (getRegion s rid).owner ++ leBytes 39 0

/-- Send an error token to port 0 of every CTX.EXIT node of a context, under a tag (R174). -/
def failExits (s : State) (rid : Nat) (t : Tag) (code : BitVec 8) : State :=
  let r := getRegion s rid
  match homeOf s r t.ctx.toNat with
  | none => s
  | some h =>
    let exits := (getCluster s h).slots.filter fun e =>
      e.2.occ && e.2.ctx == some t.ctx && wordEcl e.2.word == 0 && wordOpc e.2.word == 0x12
    exits.foldl (fun s e =>
      let slot := BitVec.ofNat 11 e.1
      sendTok s rid h { dst := { valid := true, port := 0, die := BitVec.ofNat 3 (r.dieIx (h / 512)),
                                 cluster := BitVec.ofNat 9 (h % 512), slot := slot, rwi := 0 },
                        tag := t, kind := .error, flag := Flag.none, payload := errorPayload r h slot 0 code }) s

/-- Steps 2 to 4 of R174: error tokens to the EXIT nodes, a failure item, FAILED and REPLAY_FAILED. -/
def reportFailed (s : State) (rid : Nat) (old new : Tag) (reason code : BitVec 8) : State :=
  let r := getRegion s rid
  match liveColour r new with
  | none => s
  | some c =>
    let a := spawnAddr s r new.ctx.toNat c.line
    let node := peek s a 4
    let home := (homeOf s r new.ctx.toNat).getD 0
    let s := failExits s rid new code
    let s := failureItem s (activationItem s rid 1 reason.toNat (home / 512) old c.key.toNat node)
    let s := modRegion s rid fun r => { r with failed := satInc r.failed }
    raiseTo s r.owner aREPLAY_FAILED rid node (tagBits old .scalar Flag.none)
      (leBytes 1 old.ctx.toNat ++ leBytes 1 reason.toNat ++ leBytes 2 c.key.toNat ++ leBytes 2 old.col.toNat ++ leBytes 2 0 ++
       leBytes 4 node)

/-- The predecessor of a restamped colour sends its further NEXT tokens under the new generation (R162). -/
def succeedBy (r : Region) (old new : Tag) : Region :=
  let x := getCtx r old.ctx.toNat
  setCtx r old.ctx.toNat
    { x with live := x.live.map fun k => if k.succ = some old then { k with succ := some new } else k }

/-- A failure takes effect (R174): the colour stays live under the context's new generation. -/
def failColour (s : State) (rid : Nat) (t : Tag) (reason code : BitVec 8) : State :=
  match liveColour (getRegion s rid) t with
  | none => s
  | some _ =>
    let s := purgeChildren (removeColour s rid t) rid t
    let r := getRegion s rid
    let x := getCtx r t.ctx.toNat
    let g := x.gen + 1
    let new : Tag := { t with gen := g }
    let r := setCtx r t.ctx.toNat
      { x with gen := g, live := x.live.map fun k => if k.col = t.col then { k with gen := g } else k }
    let s := setRegion s rid (succeedBy r t new)
    let s := { s with plumb := { s.plumb with crews := s.plumb.crews.map fun e =>
      if e.2.region = rid then (e.1, { e.2 with members := e.2.members.map fun m => if m.tag = t then { m with tag := new } else m })
      else e } }
    let s := setSpawnState s (getRegion s rid) new (spawnState s (getRegion s rid) new % 128)
    reportFailed s rid t new reason code

/-- The first signal of a region that is due and satisfies a test, with the region less that signal. One that falls due
from the freeze tick on waits for the thaw (11 R374). -/
def dueSignal (s : State) (rid : Nat) (p : Signal → Bool) : Option (Signal × State) :=
  let r := getRegion s rid
  if isStopped s rid then none
  else match r.signals.findIdx? fun g => decide (g.1 ≤ s.htime) && p g.2 with
    | none => none
    | some i => (r.signals[i]?).map fun g => (g.2, setRegion s rid { r with signals := removeAt r.signals i })

def isPurge : Signal → Bool
  | .purge .. => true
  | _ => false
def isFail : Signal → Bool
  | .fail .. => true
  | _ => false

def execPurgeEffect (rid : Nat) (s : State) : Host.Outcome State Fault Refusal :=
  .next (match dueSignal s rid isPurge with
    | some (.purge t replay, s) => purgeColour s rid t replay
    | _ => s)

def execActivationFailEffect (rid : Nat) (s : State) : Host.Outcome State Fault Refusal :=
  .next (match dueSignal s rid isFail with
    | some (.fail t reason code, s) => failColour s rid t reason code
    | _ => s)

def execPurgeRequest (rid : Nat) (t : Tag) (s : State) : Host.Outcome State Fault Refusal := .next (requestPurge s rid t)

def execIrrevocableHandshake (rid : Nat) (t : Tag) (s : State) : Host.Outcome State Fault Refusal :=
  .next ((handshake s rid t).getD s)

def execFlagUpdate (rid : Nat) (t : Tag) (fl : BitVec 6) (s : State) : Host.Outcome State Fault Refusal :=
  .next (recordFlags s rid 0 t fl)

def execFrameRequest (rid : Nat) (t : Tag) (q : FrameReq) (s : State) : Host.Outcome State Fault Refusal :=
  .next (frameAccess s rid t q).1

/-- A quarantined number whose unfrozen ticks have passed is allocatable again (R172). -/
def execQuarantineExpiry (rid : Nat) (s : State) : Host.Outcome State Fault Refusal :=
  let expired (e : Nat × Ctx) : Nat × Ctx := (e.1, { e.2 with quarantine := e.2.quarantine.filter fun q => q.2 != 0 })
  .next (modRegion s rid fun r => { r with ctxs := (r.ctxs.map expired).filter (fun e => e.2 != Ctx.none) })

/-- The home cluster can serve an allocation again: firings of the context's nodes that were passed over are ready
(01 R19, R21). -/
def execColourAllocation (rid : Nat) (ctx : BitVec 8) (s : State) : Host.Outcome State Fault Refusal :=
  .next (if allocRefused (getCtx (getRegion s rid) ctx.toNat) then s
    else { s with clusters := s.clusters.map fun k => (k.1, { k.2 with entries := k.2.entries.map fun e =>
      match e.st with
      | .held n b _ => if e.region = rid then { e with st := .ready n b } else e
      | _ => e }) })

/-! ### Replay (05 R173) -/

/-- The carried tokens of a spawn record with their recorded destinations. -/
def carriedOf (s : State) (a : Nat) : List (Tok × Nat) :=
  (List.range (min 4 (peek s (a + 6) 1))).map fun i =>
    ({ Tok.none with kind := kindOfCode (peek s (a + 4) 2 / 8 ^ i), flag := flagOf (peek s (a + 8 + i) 1),
                     payload := BitVec.ofNat 64 (peek s (a + 16 + 8 * i) 8) }, peek s (a + 104 + 4 * i) 4)

/-- Send a replay's carried tokens: along the creating CTX.ENTER or CTX.NEXT node's destinations through its MAP, firing by
firing (CARRY NEXT firings carry into one colour, R162), or to the destinations that DESTS records. -/
def resend (s : State) (rid : Nat) (t : Tag) (a : Nat) : State :=
  let r := getRegion s rid
  let v := carriedOf s a
  let node := peek s a 4
  let d := dstOf node
  let home := (homeOf s r t.ctx.toNat).getD 0
  let creator := if node = 0 then none else (r.absolute d.cluster.toNat).bind fun c => regionCluster s r d.die.toNat c
  let c := creator.getD home
  let w := (getSlot s c d.slot).word
  let isCtx := creator.isSome && wordEcl w == 0 && (wordOpc w == 0x10 || wordOpc w == 0x11)
  let f : Firing := { Firing.none with region := rid, cluster := c, slot := d.slot, tag := t, word := w,
                                       route := nextWord s c d.slot }
  if isCtx then
    (chunksOf (wordPorts w) (v.map Prod.fst)).foldl (fun s vs =>
      sendOuts s f ((mapped s f (rawOp w) vs).map fun o => o.tok t false)) s
  else v.foldl (fun s e =>
    let d := dstOf e.2
    match r.absolute d.cluster.toNat with
    | none => s
    | some cl => sendTok s rid c { e.1 with dst := { d with cluster := BitVec.ofNat 9 cl }, tag := t }) s

/-- The carried tiles of a spawn record are still those it names (R173, 01 R27). -/
def carriedFresh (s : State) (c a : Nat) : Bool :=
  (carriedOf s a).all fun e => !isTile e.1 || linesAre s c (handleOf e.1.payload) != .stale

/-- Replay the first waiting activation whose context can allocate: a new colour on the old spawn line, with the recorded
key and frame. A stale carried tile fails the replay under the new colour, which has counted as a replay by then
(notes/assumptions/106.md). -/
def execReplay (rid : Nat) (s : State) : Host.Outcome State Fault Refusal :=
  let r := getRegion s rid
  .next (match r.ctxs.find? fun e => !e.2.waiting.isEmpty && !allocRefused e.2 with
    | none => s
    | some (ctx, x) => match x.waiting with
      | [] => s
      | w :: rest =>
        if isStopped s rid then s
        else
          let a := spawnAddr s r ctx w.line
          let key := BitVec.ofNat 12 (peek s (a + 12) 2)
          let frame := Vector.ofFn fun (i : Fin 7) => (BitVec.ofNat 64 (peek s (a + 48 + 8 * i.val) 8) : Word)
          let c : Colour := { col := x.ptr, gen := x.gen, key := key, parent := w.parent, f := frame, flags := 0,
                              rmode := w.rmode, rmode0 := w.rmode, irrev := false, succ := none, count := 0, exits := false,
                              nexts := false, line := w.line }
          let t : Tag := { ctx := BitVec.ofNat 8 ctx, col := c.col, gen := c.gen }
          let s := setRegion s rid { setCtx r ctx { takeColour x c with waiting := rest } with replays := satInc r.replays }
          let st := peek s (a + 7) 1
          let s := pokeN s (a + 7) 1 (st / 64 % 2 * 64 + min 3 (st % 4 + 1))
          let s := { s with plumb := { s.plumb with crews := s.plumb.crews.map fun e =>
            if e.2.region = rid then (e.1, { e.2 with members := e.2.members.map fun m =>
              if (m.tag.ctx == t.ctx) && (!isLive (getRegion s rid) m.tag) && (m.key == key) then { m with tag := t } else m })
            else e } }
          let home := (homeOf s r ctx).getD 0
          if carriedFresh s home a then resend s rid t a else requestFail s rid t 2 eREPLAY_STALE)

/-! ### Thaw: the tokens' part (01 R44; 04 R120, R121) -/

/-- Release a region's captured tokens: those that were on their way arrive, those held at their sender are sent. -/
def releaseCapture (s : State) (rid c : Nat) : State :=
  let k := getCluster s c
  let mine := k.capture.filter fun a => a.region == rid
  let s := setCluster s c { k with capture := k.capture.filter fun a => a.region != rid }
  let r := getRegion s rid
  mine.foldl (fun s a =>
    if a.data.isSome ∨ regionCluster s r a.tok.dst.die.toNat a.tok.dst.cluster.toNat = some c then
      modCluster s c fun k => { k with arrivals := k.arrivals ++ [{ a with since := s.htime }] }
    else sendTok s rid c a.tok) s

/-- Every captured token of the region is released. -/
def thawTokens (s : State) (rid : Nat) : State :=
  (s.clusters.map Prod.fst).foldl (fun s c => releaseCapture s rid c) s

end Sys2Proof.Machine
end

