-- ==== Sys2Proof/Machine/Alloc.lean ====
section
/-! DEFINITION. The region allocator, freeing a region, launch queues and leases, and the pairing of regions
(04 R116 to R119; 01 R32, R35, R36, R39; 05 R169, R175; 13 R421, R426 to R429, R432). -/

namespace Sys2Proof.Machine

/-! ### Resources out of service (13 R426 to R429) -/

def modService (s : State) (f : Service → Service) : State := { s with service := f s.service }

def setDegraded (s : State) : State := modService s fun v => { v with degraded := true }

def bumpCapgen (s : State) : State := modService s fun v => { v with capgen := v.capgen + 1 }

/-- The physical column of a row's logical column (01 R35): the working columns in order. -/
def physicalCol (s : State) (d row col : Nat) : Option Nat :=
  ((List.range 17).filter fun p => !s.service.mapped.contains (d, row, p))[col]?

/-- A logical cluster marked failing and not yet mapped out (R427). -/
def isFailing (s : State) (d cl : Nat) : Bool :=
  match physicalCol s d (cl / 16) (cl % 16) with
  | none => true
  | some p => s.service.failing.contains (d, cl / 16, p)

/-- The compute island of a cluster (00 R7): five rows by eight columns, numbered along the die
(notes/assumptions/17.md). -/
def islandOf (d cl : Nat) : Nat := 8 * d + 2 * (cl / 80) + cl % 16 / 8

def pointOf (t : Tab (BitVec 2)) (i : Nat) : BitVec 2 := Tab.get 0 t i

/-- The effective operating point of an island: the highest of its request, the power clamp and the thermal clamp (R421). -/
def effectivePoint (v : Service) (i : Nat) : BitVec 2 :=
  let a := pointOf v.opreq i
  let b := if a < v.powerClamp then v.powerClamp else a
  if v.hot.any (fun e => e.1 == i / 8) ∧ b < 2 then 2 else b

/-- Some region holds the cluster (R39). -/
def heldBy (s : State) (d cl : Nat) : Bool :=
  s.regions.any fun e => e.2.state != .free && e.2.dies.contains (some d) && regionHolds s e.2 d cl

/-- The allocator may grant the cluster: present, no pager cluster, not failing, its island clocked, and free. -/
def grantable (s : State) (d cl : Nat) : Bool :=
  present s d cl && !isPager s d cl && !isFailing s d cl && effectivePoint s.service (islandOf d cl) != 3 &&
  pointOf s.service.opnow (islandOf d cl) != 3 && !heldBy s d cl

/-- Some region holds a cluster of the row. -/
def rowHeld (s : State) (d row : Nat) : Bool := (List.range 16).any fun c => heldBy s d (16 * row + c)

/-- Map out the failing clusters of a row (R428): the row is rebuilt, or lost with its router, ABSENT changes, and the
losses that R429 names are reported. -/
def remapRow (s : State) (d row : Nat) : State :=
  let bad := s.service.failing.filter fun f => f.1 == d && f.2.1 == row
  if bad.isEmpty ∨ rowHeld s d row then s
  else
    let s := modService s fun v =>
      { v with mapped := v.mapped ++ bad, failing := v.failing.filter (fun f => !(f.1 == d && f.2.1 == row)),
               failedRouters := if 17 ≤ bad.length then v.failedRouters ++ [(d, row)] else v.failedRouters }
    let s := bad.foldl (fun s f => failureItem s (leBytes 1 4 ++ leBytes 2 0 ++ leBytes 1 d ++ leBytes 12 0 ++
      leBytes 8 s.htime ++ leBytes 8 0 ++ leBytes 1 row ++ leBytes 1 f.2.2 ++ leBytes 30 0)) s
    let s := bumpCapgen (setDegraded s)
    let s := if presentCols s d row < 16 then setRcause s 0 else s
    if 4 < (s.service.mapped.filter fun m => m.1 == d).length then setRcause s 1 else s

/-- Every row that waits for its remap and that no region holds (R428). -/
def remapRows (s : State) : State :=
  (List.range 8).foldl (fun s d => (List.range 20).foldl (fun s row => remapRow s d row) s) s

/-! ### Grants (04 R119) -/

def handleV : Nat := 2 ^ 63

/-- A request word that names a shape the part has (R39): every field that a request leaves zero is zero. -/
def requestOk (q : Word) : Bool :=
  if q.getLsbD 55 then bits q 63 56 == 0 && bits q 54 29 == 0 && bits q 25 0 == 0
  else bits q 63 43 == 0 && bits q 33 0 == 0 && decide (bits q 42 38 < 20)

/-- The region record of a grant: registers and counters as reset (05 R175, 06 R191, 11 R352). -/
def granted (s : State) (rid : Nat) (h : Word) (dies : List Nat) : State :=
  setRegion s rid { Region.free with state := .granted, handle := h, dies := dies.map some, wdStart := s.htime }

def lowestFreeId (s : State) : Option Nat := (List.range 128).find? fun i => (getRegion s i).state == .free

def handleWord (rid : Nat) (q : Word) (place : Nat) : Word := BitVec.ofNat 64 (handleV + rid * 2 ^ 56 + q.toNat + place)

/-- The first place of a rectangle on a die, in row-major order. -/
def findOrigin (s : State) (d rows cols : Nat) : Option (Nat × Nat) :=
  ((List.range (21 - rows)).flatMap fun r => (List.range (17 - cols)).map fun c => (r, c)).find? fun o =>
    (List.range rows).all fun i => (List.range cols).all fun j => grantable s d (16 * (o.1 + i) + (o.2 + j))

/-- The dies in the order in which a Hawk's request tries them. -/
def dieOrder (s : State) (own : Nat) : List Nat :=
  (if s.service.dies.contains own then [own] else []) ++ s.service.dies.filter fun d => d != own

/-- Every cluster of a die that a whole-die region would hold may be granted. -/
def dieFree (s : State) (d : Nat) : Bool :=
  (List.range 320).all fun cl => !present s d cl || isPager s d cl || grantable s d cl

/-- ATOM.swap on ALLOC_REQ: the machine after it and the handle, or 0. -/
def allocate (s : State) (own : Nat) (q : Word) : State × Word :=
  let s1 := remapRows s
  match lowestFreeId s1 with
  | none => (s, 0)
  | some rid =>
    if !requestOk q then (s, 0)
    else if q.getLsbD 55 then
      let n := bits q 28 26 + 1
      let free := (s1.service.dies.filter (dieFree s1)).take n
      if free.length < n then (s, 0)
      else
        let mask := free.foldl (fun m d => m + 2 ^ (26 + d)) 0
        let h : Word := BitVec.ofNat 64 (handleV + rid * 2 ^ 56 + 2 ^ 55 + mask)
        (granted s1 rid h free, h)
    else
      let rows := bits q 42 38 + 1
      let cols := bits q 37 34 + 1
      let place := firstSome (fun d => (findOrigin s1 d rows cols).map fun o => (d, o)) (dieOrder s1 own)
      match place with
      | none => (s, 0)
      | some (d, r, c) =>
        let h := handleWord rid q (d * 2 ^ 52 + r * 2 ^ 47 + c * 2 ^ 43)
        (granted s1 rid h [d], h)

/-! ### Freeing a region (04 R116; 05 R175; 09 R290; 10 R345; 11 R357; 12 R408; 13 R432) -/

def ofRegion (rid : Nat) (f : Firing) : Bool := f.region == rid

def sumBy {α : Type} (f : α → Nat) (l : List α) : Nat := (l.map f).foldl (· + ·) 0

/-- Cells of a cluster's entries that a free reclaims. -/
def cellsOf (rid : Nat) (k : Cluster) : Nat :=
  sumBy (fun e : Entry => if e.region = rid then
      (e.cells.filter fun c => match c with | some t => !t.flag.keep | none => false).length else 0) k.entries

/-- Tokens of capture buffers and routers, waiting configuration packets, and firings that an engine of the cluster holds. -/
def discardedOf (rid : Nat) (k : Cluster) : Nat :=
  (k.capture.filter fun a => a.region == rid).length + (k.arrivals.filter fun a => a.region == rid).length +
  (k.slots.filter fun e => e.2.waiting.isSome).length + (k.streams.filter fun x => ofRegion rid x.firing).length +
  (k.cmpx.filter fun x => ofRegion rid x.firing).length + (k.ptimes.filter fun x => ofRegion rid x.1).length +
  (k.quad.filter (ofRegion rid)).length + (k.cancels.filter fun x => ofRegion rid x.firing).length +
  (k.finishing.filter fun x => ofRegion rid x.2.firing).length +
  sumBy (fun q : Nat × SQueue => (q.2.pending.filter fun x => ofRegion rid x.firing).length +
    (match q.2.issued with | some x => if ofRegion rid x.firing then 1 else 0 | none => 0)) k.queues

/-- A cluster after its region is freed: every line empty with its generation, everything else as after reset. -/
def scrubbed (k : Cluster) : Cluster :=
  { Cluster.reset with lines := (k.lines.map fun e => (e.1, { e.2 with full := false, written := 0 })).filter fun e => e.2 != Line.empty,
                       nextSeq := k.nextSeq }

/-- A port after its owner is freed (09 R290). -/
def freedPort (rid : Nat) (p : Port) : Port × Nat :=
  let a := cull (fun j : Job => ofRegion rid j.firing) p.incoming
  let b := cull (fun j : Job => ofRegion rid j.firing) p.queue
  let c := cull (fun j : Job => ofRegion rid j.firing) p.waiting
  let g := p.gens.filter fun e => match e.2 with | some j => !ofRegion rid j.firing | none => true
  let p := { p with incoming := a.1, queue := b.1, waiting := c.1, gens := g }
  (if p.en ∧ p.owner.toNat = rid then
     { p with en := false, mode := 0, range := none, ahead := [], waves := p.waves.filter fun w => w.region != rid }
   else p, a.2 + b.2 + c.2)

/-- The crews of a freed region leave with it, as CREW.FREE would free them at once. -/
def freedCrews (rid : Nat) (p : Plumb) : Plumb × Nat :=
  let mine := p.crews.filter fun e => e.2.used && e.2.region == rid
  let waits (c : Crew) : Nat :=
    (match c.open_ with | some r => r.waits.length | none => 0) + sumBy (fun r : Round => r.waits.length) c.rounds
  let ups := cull (fun u : Up => ofRegion rid u.firing && u.waits) p.ups
  let lk := cull (ofRegion rid) p.lookups
  let pu := cull (fun x : Firing × Nat × Nat => ofRegion rid x.1) p.puts
  let pc := cull (ofRegion rid) p.pcorrs
  let qu := cull (fun x : Firing × Nat => ofRegion rid x.1) p.quiets
  let ps := cull (ofRegion rid) p.psigs
  let gone (c : Nat) : Bool := mine.any fun e => e.1 == c
  ({ p with crews := p.crews.map (fun e =>
              if gone e.1 then (e.1, { Crew.reset with gen := e.2.gen + 1 }) else e) |>.filter fun e => e.2 != Crew.reset,
            ups := ups.1.filter (fun u => !gone u.crew && !ofRegion rid u.firing), lookups := lk.1, puts := pu.1, pcorrs := pc.1, quiets := qu.1,
            psigs := ps.1, logs := p.logs.filter (fun l => !gone l.crew),
            downs := p.downs.filter fun d => match d.what with
              | .emit f .. | .error f _ => !ofRegion rid f
              | .notice c _ | .packet c .. | .result c .. => !gone c },
   ups.2 + lk.2 + pu.2 + pc.2 + qu.2 + ps.2 + sumBy (fun e : Nat × Crew => waits e.2) mine)

/-- Receive queues and waiting link firings of a freed region (12 R408). -/
def freedLink (rid : Nat) (l : Link) : Link × Nat :=
  let rv := cull (fun x : Recv => ofRegion rid x.firing) l.recvs
  let gone (q : Option LinkReq) : Bool := match q with | some x => ofRegion rid x.firing | none => false
  ({ l with recvs := rv.1, reqs := l.reqs.filter (fun e => !gone e.2),
            queues := (l.queues.map fun e =>
              if e.2.en ∧ e.2.owner.toNat = rid then (e.1, { e.2 with en := false, msgs := [] }) else e).filter
                fun e => e.2 != RecvQueue.reset },
   rv.2 + (l.reqs.filter fun e => gone e.2).length)

/-- One KIND 2 item for every live colour, while sink tokens are owed (13 R432). -/
def abandonItems (s : State) (rid : Nat) : State :=
  let r := getRegion s rid
  if r.hsinks = 0 then s
  else (liveTags r).foldl (fun s t => match liveColour r t with
    | none => s
    | some c =>
      failureItem s (activationItem s rid 2 0 (((homeOf s r t.ctx.toNat).getD 0) / 512) t c.key.toNat
        (peek s (spawnAddr s r t.ctx.toNat c.line) 4))) s

/-- End the wait of the threads whose HREGION names a region and whose word waits for what p says: it issues again. -/
def reissue (s : State) (rid : Nat) (p : Block → Bool) : State :=
  (s.threads.filter fun e => e.2.region.getLsbD 63 && bits e.2.region 62 56 == rid && p e.2.block).foldl
    (fun s e => setThread s e.1 { getThread s e.1 with block := .none }) s

/-- A GLOAD.entry that still has entries to inject. -/
def Block.isEntries (b : Block) : Bool := match b with | .entries .. => true | _ => false

/-- Free a region: everything it holds is discarded and counted, none of it raising a trap (R116). -/
def freeRegion (s : State) (rid : Nat) : State :=
  let s := abandonItems s rid
  let r := getRegion s rid
  let cs := regionClusters s r
  let cells := sumBy (fun c => cellsOf rid (getCluster s c)) cs
  let gone := sumBy (fun c => discardedOf rid (getCluster s c)) cs
  let s := cs.foldl (fun s c => modCluster s c scrubbed) s
  let ports := s.ports.map fun e => let x := freedPort rid e.2; ((e.1, x.1), x.2)
  let held := sumBy (fun e : Nat × Port =>
    (e.2.gens.filter fun g => match g.2 with | some j => ofRegion rid j.firing | none => false).length) s.ports
  let net := cull (fun p : Packet => p.region == rid) s.net
  let hops := cull (fun h : Hop => h.region == rid) s.hops
  let ws := cull (fun w : Waiter => ofRegion rid w.firing) s.waiters
  let ns := cull (fun x : BankReq × Nat × Nat => ofRegion rid x.1.firing) s.nacked
  let bs := s.banks.map fun e => let x := cull (fun q : BankReq => ofRegion rid q.firing) e.2.input
                                 ((e.1, { e.2 with input := x.1, late := e.2.late.filter fun l => l.firing.region != rid }), x.2)
  let iss := cull (ofRegion rid) s.issued
  let pl := freedCrews rid s.plumb
  let lk := freedLink rid s.link
  let s := { s with ports := (ports.map Prod.fst).filter (fun e => e.2 != Port.reset), net := net.1, hops := hops.1,
                    waiters := ws.1, nacked := ns.1, banks := (bs.map Prod.fst).filter (fun e => e.2 != Bank.reset),
                    issued := iss.1, plumb := pl.1, link := lk.1,
                    digests := s.digests.filter fun d => d.region != rid }
  let s := reissue s rid fun b => b.isEntries || b == .graphTurn
  let discarded := gone + sumBy Prod.snd ports + held + net.2 + hops.2 + sumBy Prod.snd bs + iss.2 + pl.2 + lk.2 + ns.2 +
    r.sinkWait.length
  let r := getRegion s rid
  let s := match r.twin with
    | some (p, _) => modRegion s p fun x => { x with twin := none }
    | none => s
  setRegion s rid
    { Region.free with stale := r.stale, reclaimed := satAdd r.reclaimed (cells + ws.2),
                       discarded := satAdd r.discarded discarded, purged := r.purged, replays := r.replays,
                       failed := r.failed, leakThr := r.leakThr, leakTrap := r.leakTrap, leakArmed := r.leakArmed,
                       fpTrap := r.fpTrap, owner := r.owner, wdEn := r.wdEn, wdWin := r.wdWin, census := r.census,
                       parkTicks := r.parkTicks, dlCtl := r.dlCtl, snapBase := r.snapBase, snapLen := r.snapLen,
                       snapLim := r.snapLim }

/-- The members of a spanning region that lie on this package. -/
def localMembers (r : Region) : List Nat :=
  (r.span.filter fun e => e.2.getLsbD 63 && bits e.2 15 4 == ownPackage).map fun e => bits e.2 62 56

/-- A store to ALLOC_FREE: the granted handle of a GRANTED or FROZEN region frees it and its members; any other store is
ignored (R117). Pager regions and span members are not freed (09 R297, 01 R32). -/
def allocFree (s : State) (h : Word) : State :=
  let rid := bits h 62 56
  let r := getRegion s rid
  if r.state = .free ∨ r.handle ≠ h ∨ r.member ∨ 120 ≤ rid ∧ isPager s (rid - 120) (16 * r.row0 + r.col0) ∨ r.state = .loaded then s
  else (localMembers r).foldl freeRegion (freeRegion s rid)

def execAllocFree (h : Word) (s : State) : Host.Outcome State Fault Refusal := .next (allocFree s h)

/-- The allocator's answer to a thread (R119). -/
def execAllocReq (th : Nat) (rd : Reg) (q : Word) (s : State) : Host.Outcome State Fault Refusal :=
  let (s, h) := allocate s (th / 8) q
  .next (if rd = 0 then s else setThread s th { getThread s th with x := (getThread s th).x.set rd.toNat h })

/-! ### Spanning regions (01 R32) -/

/-- The owner's own dies: the first die indices of a whole-die region. -/
def ownDies (r : Region) : Nat := ((List.range 8).filter fun d => r.handle.getLsbD (26 + d)).length

/-- The Link Engine accepts a SPANMAP entry: its peer region is GRANTED, holds the die whole, and is bound to no other
spanning region. For a region of another package that package decides (notes/assumptions/18.md). -/
def spanAccepted (s : State) (rid : Nat) (e : Word) : Bool :=
  let p := getRegion s (bits e 62 56)
  e.getLsbD 63 && bits e 55 16 == 0 && !e.getLsbD 3 &&
  (if bits e 15 4 = ownPackage then
     p.state == .granted && p.whole && p.dies.contains (some (bits e 2 0)) && !p.member && bits e 62 56 != rid && p.span.isEmpty
   else Config.isPackage (destOf (bits e 15 4)) && Config.spanAccepts e)

/-- Unbind die index i of a region. -/
def spanClear (s : State) (rid i : Nat) : State :=
  let e : Word := Tab.get 0 (getRegion s rid).span i
  let s := if e.getLsbD 63 && bits e 15 4 == ownPackage then modRegion s (bits e 62 56) fun x => { x with member := false } else s
  modRegion s rid fun r => { r with span := Tab.set 0 r.span i 0, dies := r.dies.set i none }

/-- A store to SPANMAP entry i of a region: it binds or unbinds while the owner is GRANTED, for an index beyond the
owner's own dies; an entry that is not accepted reads 0. -/
def spanStore (s : State) (rid i : Nat) (e : Word) : State :=
  let r := getRegion s rid
  if r.state ≠ .granted ∨ !r.whole ∨ r.member ∨ i < ownDies r ∨ 8 ≤ i then s
  else if e = 0 ∨ !spanAccepted s rid e then spanClear s rid i
  else
    let s := spanClear s rid i
    let here := bits e 15 4 == ownPackage
    let s := if here then modRegion s (bits e 62 56) fun x => { x with member := true } else s
    modRegion s rid fun r =>
      let ds := r.dies ++ List.replicate (i + 1 - r.dies.length) none
      { r with span := Tab.set 0 r.span i e, dies := if here then ds.set i (some (bits e 2 0)) else ds }

/-- A SPANMAP entry as it reads: the owner's own dies, then the bound entries. -/
def spanEntry (s : State) (rid i : Nat) : Word :=
  let r := getRegion s rid
  match Tab.get 0 r.span i with
  | 0 => match r.dies.getD i none with
    | some d => if r.state = .free ∨ !r.whole then 0
                else BitVec.ofNat 64 (2 ^ 63 + rid * 2 ^ 56 + ownPackage * 16 + d)
    | none => 0
  | e => e

def execSpanmapBind (rid i : Nat) (e : Word) (s : State) : Host.Outcome State Fault Refusal := .next (spanStore s rid i e)
def execSpanmapUnbind (rid i : Nat) (s : State) : Host.Outcome State Fault Refusal := .next (spanStore s rid i 0)

/-! ### Twin pairing (05 R169) -/

/-- A store to TWIN_PAIR: pair or unpair two LOADED regions; any other store is ignored. -/
def twinStore (s : State) (v : Word) : State :=
  let a := bits v 62 56
  let b := bits v 54 48
  if (getRegion s a).state ≠ .loaded then s
  else if v.getLsbD 63 then
    if (getRegion s b).state ≠ .loaded ∨ a = b then s
    else modRegion (modRegion s a fun r => { r with twin := some (b, true) }) b fun r => { r with twin := some (a, false) }
  else match (getRegion s a).twin with
    | none => s
    | some (p, _) => modRegion (modRegion s a fun r => { r with twin := none }) p fun r => { r with twin := none }

def execTwinPair (v : Word) (s : State) : Host.Outcome State Fault Refusal := .next (twinStore s v)
def execTwinUnpair (v : Word) (s : State) : Host.Outcome State Fault Refusal := .next (twinStore s v)

/-! ### Launch queues (04 R117, R118) -/

def getQueue (s : State) (q : Nat) : LaunchQueue := Tab.get LaunchQueue.reset s.launch q
def setQueue (s : State) (q : Nat) (x : LaunchQueue) : State := { s with launch := Tab.set LaunchQueue.reset s.launch q x }

def LaunchQueue.nonEmpty (x : LaunchQueue) : Bool := x.head != x.tail

/-- Effective priority: raised by one level once the record has been aged, never above 0. -/
def effectivePriority (q : Nat) (x : LaunchQueue) : Nat := if x.raised then q / 16 - 1 else q / 16

/-- A lease word: bit 63, the queue, the record index. -/
def leaseWord (q : Nat) (x : LaunchQueue) : Word := BitVec.ofNat 64 (2 ^ 63 + q * 2 ^ 48 + x.head.toNat)

/-- The queue that PEEK picks: highest effective priority, then round robin after the last commit at that priority. -/
def peekQueue (s : State) : Option Nat :=
  let ok := (List.range 64).filter fun q => let x := getQueue s q; x.en && x.nonEmpty && x.lease.isNone
  match (ok.map fun q => effectivePriority q (getQueue s q)).min? with
  | none => none
  | some p =>
    let at_ := ok.filter fun q => effectivePriority q (getQueue s q) == p
    let last := Tab.get 63 s.lastCommit p
    match at_.find? fun q => decide (last < q) with
    | some q => some q
    | none => at_.head?

/-- A load of LAUNCH_PEEK by a thread. -/
def launchPeek (s : State) (th : Nat) : State × Word :=
  match peekQueue s with
  | none => (s, 0)
  | some q => (setQueue s q { getQueue s q with lease := some th }, leaseWord q (getQueue s q))

/-- The queue whose live lease of the thread a word is. -/
def leaseOf (s : State) (th : Nat) (w : Word) : Option Nat :=
  (List.range 64).find? fun q => (getQueue s q).lease == some th && w == leaseWord q (getQueue s q)

/-- A store to LAUNCH_COMMIT: the leased record is retired. -/
def launchCommit (s : State) (th : Nat) (w : Word) : State :=
  match leaseOf s th w with
  | none => s
  | some q =>
    let x := getQueue s q
    let s := setQueue s q { x with head := x.head + 1, lease := none, since := s.htime, raised := false }
    { s with lastCommit := Tab.set 63 s.lastCommit (effectivePriority q x) q }

/-- A store to LAUNCH_RELEASE: the lease is given up. -/
def launchRelease (s : State) (th : Nat) (w : Word) : State :=
  match leaseOf s th w with
  | none => s
  | some q => setQueue s q { getQueue s q with lease := none }

def execLaunchPeek (th : Nat) (rd : Reg) (s : State) : Host.Outcome State Fault Refusal :=
  let (s, w) := launchPeek s th
  .next (if rd = 0 then s else setThread s th { getThread s th with x := (getThread s th).x.set rd.toNat w })

def execLaunchCommit (th : Nat) (w : Word) (s : State) : Host.Outcome State Fault Refusal := .next (launchCommit s th w)
def execLaunchRelease (th : Nat) (w : Word) (s : State) : Host.Outcome State Fault Refusal := .next (launchRelease s th w)

/-- A record that has stood at the head for 2^24 ticks is raised one level, once (R118). -/
def execEffectivePriorityAging (q : Nat) (s : State) : Host.Outcome State Fault Refusal :=
  let x := getQueue s q
  .next (if x.en ∧ x.nonEmpty ∧ !x.raised ∧ 16 ≤ q ∧ x.since + 2 ^ 24 ≤ s.htime then setQueue s q { x with raised := true }
    else s)

end Sys2Proof.Machine
end

