-- ==== Sys2Proof/Machine/Pcb.lean ====
section
/-! DEFINITION. The package control block: every register block of the part, its loads and its stores (04 R117, R121, R129;
01 R32; 05 R169, R175, R176; 06 R191; 09 R289, R292, R294, R295, R297; 11 R352; 12 R387 to R391, R398, R400, R402, R408;
13 R419 to R421, R424, R425). -/

namespace Sys2Proof.Machine

/-! ### Translator tables (09 R292, R294, R295) -/

/-- A firing accepted before a store to PRTAB completes against the entries of that time; a held one retries against the
new entries (R292). -/
def keepRanges (old : List RangeEntry) (j : Job) : Job :=
  { j with ranges := if j.held.isSome then none else some (j.ranges.getD old) }

/-- A store to PRTAB loads the port's range table. -/
def prtabLoad (s : State) (p : Nat) (a : Word) : State :=
  let (s, rs) := loadRanges s a.toNat
  modPort s p fun x =>
    let keep := keepRanges x.xlate.ranges
    { x with xlate := { x.xlate with ranges := rs }, queue := x.queue.map keep, waiting := x.waiting.map keep,
             gens := x.gens.map fun e => (e.1, e.2.map keep) }

def hrtabLoad (s : State) (d : Nat) (a : Word) : State :=
  let (s, rs) := loadRanges s a.toNat
  let x := getDie s d
  setDie s d { x with xlate := { x.xlate with ranges := rs } }

/-- Invalidate the TLB entries that a test picks, in every port and Hawk translator of the package. -/
def tlbInvalidate (s : State) (p : TlbEntry → Bool) : State :=
  { s with ports := (s.ports.map fun e => (e.1, { e.2 with xlate := e.2.xlate.drop p })).filter (fun e => e.2 != Port.reset),
           dies := (s.dies.map fun e => (e.1, { e.2 with xlate := e.2.xlate.drop p })).filter fun e => e.2 != Die.reset }

def tlbinvPage (s : State) (va : Word) (asid : BitVec 32) : State :=
  tlbInvalidate s fun e => e.asid == asid && e.holds asid (bits va 56 0)
def tlbinvAsid (s : State) (asid : BitVec 32) : State := tlbInvalidate s fun e => e.asid == asid
def tlbinvAll (s : State) : State := tlbInvalidate s fun _ => true

def execPrtabLoad (p : Nat) (a : Word) (s : State) : Host.Outcome State Fault Refusal := .next (prtabLoad s p a)
def execHrtabLoad (d : Nat) (a : Word) (s : State) : Host.Outcome State Fault Refusal := .next (hrtabLoad s d a)
def execTlbinvPage (va : Word) (asid : BitVec 32) (s : State) : Host.Outcome State Fault Refusal := .next (tlbinvPage s va asid)
def execTlbinvAsid (asid : BitVec 32) (s : State) : Host.Outcome State Fault Refusal := .next (tlbinvAsid s asid)
def execTlbinvAll (s : State) : Host.Outcome State Fault Refusal := .next (tlbinvAll s)

/-! ### Region counters (05 R175, R176) -/

def tctlClr (s : State) (rid : Nat) : State :=
  modRegion s rid fun r =>
    { r with stale := 0, reclaimed := 0, discarded := 0, purged := 0, replays := 0, failed := 0 }

/-- A write to LEAKTHR re-arms the trap, which the next count past it raises (notes/assumptions/114.md). -/
def leakthrWrite (s : State) (rid : Nat) (v : BitVec 32) : State :=
  modRegion s rid fun r => { r with leakThr := v, leakArmed := true }

def execTctlClr (rid : Nat) (s : State) : Host.Outcome State Fault Refusal := .next (tctlClr s rid)
def execLeakthrWrite (rid : Nat) (v : BitVec 32) (s : State) : Host.Outcome State Fault Refusal := .next (leakthrWrite s rid v)

/-! ### Operating points (13 R421) -/

/-- An island holds a cluster of a granted region or of a pager region. -/
def islandInUse (s : State) (i : Nat) : Bool :=
  (List.range 320).any fun cl => islandOf (i / 8) cl == i && (heldBy s (i / 8) cl || isPager s (i / 8) cl)

/-- A write of OPREQ0 or OPREQ1: two bits an island; point 3 is ignored for an island in use. -/
def opreqWrite (s : State) (hi : Bool) (v : Word) : State :=
  (List.range 32).foldl (fun s j =>
    let i := if hi then 32 + j else j
    let p : BitVec 2 := v.extractLsb' (2 * j) 2
    if p = 3 ∧ islandInUse s i then s
    else modService s fun x => { x with opreq := Tab.set 0 x.opreq i p }) s

def execOpreqWrite (hi : Bool) (v : Word) (s : State) : Host.Outcome State Fault Refusal := .next (opreqWrite s hi v)

/-- An island's new effective point takes effect. -/
def execOperatingPointChange (i : Nat) (s : State) : Host.Outcome State Fault Refusal :=
  .next (modService s fun v => { v with opnow := Tab.set 0 v.opnow i (effectivePoint v i) })

/-! ### Link Engine commands (12 R391, R398, R402) -/

def modLink (s : State) (f : Link → Link) : State := { s with link := f s.link }

def kcmdRereadKey (s : State) (i : Nat) : State :=
  let (s, bs, _) := readMem s (s.link.ktbase.toNat + 32 * i) 32
  modLink s fun l => { l with keys := Tab.set [] l.keys i bs }

def kcmdRereadConn (s : State) (i : Nat) : State :=
  let (s, bs, _) := readMem s (s.link.ctbase.toNat + 64 * i) 64
  modLink s fun l => { l with conns := Tab.set [] l.conns i bs }

/-- A key entry revoked: V clear and TAG one up, modulo 2^20. -/
def revokeEntry (bs : List Byte) : List Byte :=
  let t := leNat ((bs.drop 24).take 4)
  let t' := t / 2 ^ 20 * 2 ^ 20 + (t + 1) % 2 ^ 20
  bs.take 24 ++ leBytes 4 t' ++ [bs.getD 28 0 &&& 0x7F] ++ bs.drop 29

def kcmdRevoke (s : State) (i : Nat) : State :=
  let a := s.link.ktbase.toNat + 32 * i
  let (s, bs, _) := readMem s a 32
  let s := (writeMem s a (revokeEntry bs) false).1
  modLink s fun l =>
    match Tab.get [] l.keys i with
    | [] => l
    | e => { l with keys := Tab.set [] l.keys i (revokeEntry e) }

def execKcmdRereadKey (i : Nat) (s : State) : Host.Outcome State Fault Refusal := .next (kcmdRereadKey s i)
def execKcmdRevoke (i : Nat) (s : State) : Host.Outcome State Fault Refusal := .next (kcmdRevoke s i)
def execKcmdRereadConn (i : Nat) (s : State) : Host.Outcome State Fault Refusal := .next (kcmdRereadConn s i)

def ringEntries (s : State) : Nat := 2 ^ s.link.ringsz.toNat
def d2hFull (s : State) : Bool := decide (ringEntries s ≤ (s.link.d2htail - s.link.d2hhead).toNat)

/-- Append a message at D2H TAIL and raise MSI-X vector 0. -/
def appendMessage (s : State) (m : List Byte) : State :=
  let a := hostAddr (s.link.d2hbase.toNat + 64 * (s.link.d2htail.toNat % ringEntries s))
  let s := (writeMem s a m false).1
  send (modLink s fun l => { l with d2htail := l.d2htail + 1 }) (.msix 0)

/-- MSGOUT is a page request that goes by PRI. -/
def isPri (s : State) : Bool :=
  let m := s.link.msgout
  m.getD 0 0 == 1 && (m.getD 1 0).getLsbD 1 && s.link.hpctl.getLsbD 3

/-- A store to MSGGO: none while the ring is full (R391). -/
def sendMessage (s : State) : Option State :=
  let m := s.link.msgout
  if isPri s then
    some (send s (.pageRequest (BitVec.ofNat 32 (leNat ((m.drop 4).take 4) % 2 ^ 20)) (BitVec.ofNat 64 (leNat ((m.drop 8).take 8)))
      ((m.getD 1 0).getLsbD 0)))
  else if d2hFull s then none else some (appendMessage s m)

def msginValid (s : State) : Bool := (s.link.msgin.getD 1 0).getLsbD 7

/-- A store to MSGACK releases the message that MSGIN holds. -/
def msgAck (s : State) : State :=
  if msginValid s then
    modLink s fun l => { l with msgin := l.msgin.set 1 (l.msgin.getD 1 0 &&& 0x7F), h2dhead := l.h2dhead + 1 }
  else s

/-- The store to MSGGO that a thread performs, or that it is blocked in and that completes now. -/
def execMsggo (th : Nat) (s : State) : Host.Outcome State Fault Refusal :=
  .next (match sendMessage s with
    | some s =>
      if (getThread s th).block = .msggo then
        let t := getThread s th
        setThread s th { t with block := .none, pc := t.pc + 4 }
      else s
    | none => s)

def execMsgack (s : State) : Host.Outcome State Fault Refusal := .next (msgAck s)

/-- Every Hawk thread of an enabled die gets a wake event. -/
def wakeAll (s : State) : State := ((List.range 64).filter fun th => s.service.dies.contains (th / 8)).foldl wakeThread s

/-- The host entry at HEAD enters MSGIN; an entry of an unknown TYPE is released at once. -/
def execHostMessageArrival (s : State) : Host.Outcome State Fault Refusal :=
  .next (if s.link.h2dtail = s.link.h2dhead ∨ msginValid s then s
    else
      let (s, m, _) := readMem s (hostAddr (s.link.h2dbase.toNat + 64 * (s.link.h2dhead.toNat % ringEntries s))) 64
      let ty := (m.getD 0 0).toNat
      if ty = 2 ∨ ty = 4 ∨ 0x80 ≤ ty then wakeAll (modLink s fun l => { l with msgin := m.set 1 (m.getD 1 0 ||| 0x80) })
      else modLink s fun l => { l with h2dhead := l.h2dhead + 1 })

/-! ### The capability list (13 R424, R425) -/

def capEntry (id version : Nat) (words : List Nat) : List Byte :=
  leBytes 4 (id + version * 2 ^ 16 + words.length * 2 ^ 24) ++ words.flatMap (leBytes 4)

def ratedWatts (v : Service) : Nat := if v.code = 0x60 then 4000 else 5000

/-- Absent logical columns of row r of logical die d, as a mask. -/
def absentMask (s : State) (d r : Nat) : Nat :=
  match s.service.dies[d]? with
  | none => 0xFFFF
  | some p => 2 ^ 16 - 2 ^ presentCols s p r

def pairUp : List Nat → List Nat
  | a :: b :: t => (a + b * 65536) :: pairUp t
  | [a] => [a]
  | [] => []

def coordBits (x : BitVec 12) : Nat := x.toNat

/-- The security version of the running bundle (R417). -/
def bundleSvn (v : Service) : Nat := leNat ((v.running.drop 8).take 4)

def capList (s : State) : List Byte :=
  let v := s.service
  let part := [v.code.toNat + Config.form.toNat * 256 + v.dies.length * 65536,
               (List.range 8).foldl (fun a i => a + (v.dies.getD i 15) * 16 ^ i) 0]
  let absent := pairUp ((List.range 160).map fun n => absentMask s (n / 20) (n % 20))
  let fabric := [bits Config.dest 20 12 * 2 ^ 16 + bits Config.dest 11 0, coordBits Config.torus,
                 v.scewenUp.toNat + s.link.ethUp.toNat * 256]
  capEntry 1 1 part ++ capEntry 2 1 absent ++ capEntry 3 1 [1250000, 800, ratedWatts v, 4] ++ capEntry 4 1 fabric ++
  capEntry 5 1 [v.fused.toNat, bundleSvn v, bundleSvn v, bundleSvn v]

/-! ### Loads -/

def b2n (b : Bool) : Nat := if b then 1 else 0
def word (n : Nat) : Word := BitVec.ofNat 64 n

/-- A launch queue's block (04 R117). -/
def loadQueue (s : State) (q o size : Nat) : Option Word :=
  let x := getQueue s q
  match o, size with
  | 0x00, 8 => some x.base
  | 0x08, 4 => some (word x.mask.toNat)
  | 0x0C, 4 => some (word x.head.toNat)
  | 0x10, 4 => some (word x.tail.toNat)
  | 0x14, 4 => some (word (b2n x.en))
  | 0x18, 8 | 0x18, 4 | 0x1C, 4 => some 0
  | _, _ => none

/-- A region's Token Engine block (05 R175). -/
def loadToken (r : Region) (o : Nat) : Word :=
  match o with
  | 0x00 => word r.stale.toNat
  | 0x04 => word r.reclaimed.toNat
  | 0x08 => word r.discarded.toNat
  | 0x0C => word r.purged.toNat
  | 0x10 => word r.leakThr.toNat
  | 0x14 => word r.replays.toNat
  | 0x18 => word r.failed.toNat
  | 0x20 => word (b2n r.leakTrap)
  | _ => 0

/-- PCTL (09 R289). -/
def pctl (p : Port) : Word := word (b2n p.en * 2 ^ 63 + p.owner.toNat * 2 ^ 56 + b2n p.copy * 2 ^ 55 + p.mode.toNat)

def loadPort (s : State) (p : Port) (o size : Nat) : Option Word :=
  match o, size with
  | 0x00, 8 => some (pctl p)
  | 0x08, 8 => some (word p.asid.toNat)
  | 0x10, 8 => some (writeOnly s)
  | 0x18, 4 => some (word p.pce.toNat)
  | 0x1C, 4 => some (word p.pue.toNat)
  | 0x20, 4 => some (word p.pminor.toNat)
  | 0x24, 4 => some (word p.pmajor.toNat)
  | _, _ => none

/-- A die's block (09 R295). -/
def loadDie (s : State) (d o : Nat) : Word :=
  match o with
  | 0x00 => (getDie s d).pmiss
  | 0x10 => writeOnly s
  | _ => 0

/-- A region's Plumb block (11 R352). -/
def loadPlumb (s : State) (rid o size : Nat) : Option Word :=
  let r := getRegion s rid
  match o, size with
  | 0x00, 4 => some (word (b2n r.wdEn * 2 ^ 31 + r.wdWin.toNat))
  | 0x04, 4 => some (word r.census.toNat)
  | 0x08, 4 => some (word r.parkTicks.toNat)
  | 0x0C, 4 => some (word (b2n r.dlCtl))
  | 0x10, 8 => some r.snapBase
  | 0x18, 4 => some (word r.snapLen.toNat)
  | 0x1C, 4 => some (word r.snapLim.toNat)
  | 0x20, 4 => some (word (s.plumb.crews.filter fun e => e.2.used && e.2.region == rid).length)
  | o, 4 => if 0x24 ≤ o ∧ o % 4 = 0 then some 0 else none
  | _, _ => none

def wordOfBytes (bs : List Byte) (o : Nat) : Word := word (leNat ((bs.drop o).take 8))

def rqctl (q : RecvQueue) : Nat := b2n q.en * 2 ^ 31 + q.owner.toNat * 2 ^ 24 + q.slots.toNat

/-- The Link Engine's registers (12 R387). -/
def loadLink (s : State) (o size : Nat) : Option Word :=
  let l := s.link
  if 0x400 ≤ o then
    let q := Tab.get RecvQueue.reset l.queues ((o - 0x400) / 16)
    if size ≠ 4 then none
    else match o % 16 with
      | 0 => some (word q.base.toNat)
      | 4 => some (word q.hi.toNat)
      | 8 => some (word (rqctl q))
      | 12 => some (word q.msgs.length)
      | _ => none
  else if size ≠ 8 ∨ o % 8 ≠ 0 ∨ 0x140 ≤ o then none
  else if 0x40 ≤ o ∧ o < 0x80 then some (wordOfBytes l.msgout (o - 0x40))
  else if 0x80 ≤ o ∧ o < 0xC0 then some (wordOfBytes l.msgin (o - 0x80))
  else match o with
    | 0x00 => some l.hpctl
    | 0x08 => some (word (l.refused.toNat * 2 ^ 32 + l.aborts.toNat))
    | 0x10 => some l.ktbase
    | 0x18 => some 0
    | 0x20 => some l.ctbase
    | 0x28 | 0x30 => some (writeOnly s)
    | 0x100 => some l.d2hbase
    | 0x108 => some (word (l.d2htail.toNat * 2 ^ 32 + l.d2hhead.toNat))
    | 0x110 => some l.h2dbase
    | 0x118 => some (word (l.h2dtail.toNat * 2 ^ 32 + l.h2dhead.toNat))
    | 0x120 => some (word l.ringsz.toNat)
    | _ => some 0

/-- HEALTH (13 R420). -/
def health (v : Service) : Word :=
  word (b2n v.fatal * 32 + b2n v.thermal * 16 + b2n v.degraded * 8 + b2n v.replace * 4 + b2n v.bootfail * 2 + b2n v.ready)

def packPoints (t : Tab (BitVec 2)) (base : Nat) : Word :=
  word ((List.range 32).foldl (fun a i => a + (pointOf t (base + i)).toNat * 4 ^ i) 0)

/-- The Service Engine block and the capability list (13 R419, R424). -/
def loadService (s : State) (o size : Nat) : Option Word :=
  let v := s.service
  if 0x400 ≤ o then
    if (size = 4 ∨ size = 8) ∧ o % size = 0 then some (word (leNat (((capList s).drop (o - 0x400)).take size))) else none
  else if size ≠ 8 ∨ o % 8 ≠ 0 then none
  else match o with
    | 0x00 => some (health v)
    | 0x08 => some (word v.rcause.toNat)
    | 0x10 => some (word v.plim.toNat)
    | 0x18 => some (packPoints v.opreq 0)
    | 0x20 => some (packPoints v.opreq 32)
    | 0x28 => some (packPoints v.opnow 0)
    | 0x30 => some (packPoints v.opnow 32)
    | 0x38 => some (word v.pwr.toNat)
    | 0x40 => some v.energy
    | 0x48 => some v.temp
    | 0x50 => some (word (v.poisoned.toNat * 2 ^ 32 + v.corrected.toNat))
    | 0x58 => some v.teltick
    | 0x60 => some v.frbase
    | 0x68 => some (word (v.frtail.toNat * 2 ^ 32 + v.frhead.toNat))
    | 0x70 => some v.frlost
    | 0x78 => some (word v.capgen.toNat)
    | _ => some 0

/-- The die that a port block or a die block belongs to is enabled (00 R2; notes/assumptions/117.md). -/
def dieBlockOpen (s : State) (off : Nat) : Bool :=
  s.service.dies.contains (if off < 0xA000 then (off - 0x8000) / 1024 else (off - 0xA000) / 64)

/-- A load of the package control block, by thread th or by the host: none where it traps HPAGE with DETAIL 3, or completes
with Completer Abort. -/
def loadPcb (s : State) (who : Option Nat) (off size : Nat) : Option (State × Word) :=
  let pure (w : Option Word) : Option (State × Word) := w.map fun x => (s, x)
  if off < 0x800 then pure (loadQueue s (off / 32) (off % 32) size)
  else if off = 0x1000 then
    match who with
    | some th => if size = 8 then some (launchPeek s th) else none
    | none => none
  else if 0x1400 ≤ off ∧ off < 0x3400 ∧ size = 8 then
    if off % 8 = 0 then pure (some (spanEntry s ((off - 0x1400) / 64) (off / 8 % 8))) else none
  else if 0x2000 ≤ off ∧ off < 0x4000 then
    if size = 4 ∧ off % 4 = 0 then pure (some (loadToken (getRegion s ((off - 0x2000) / 64)) (off % 64))) else none
  else if 0x4000 ≤ off ∧ off < 0x4800 then
    if size = 4 ∧ off % 4 = 0 then
      pure (some (if off % 16 = 0 then word (getRegion s ((off - 0x4000) / 16)).fpTrap.toNat else 0))
    else none
  else if 0x8000 ≤ off ∧ off < 0xA200 ∧ !dieBlockOpen s off then none
  else if 0x8000 ≤ off ∧ off < 0xA000 then pure (loadPort s (getPort s ((off - 0x8000) / 64)) (off % 64) size)
  else if 0xA000 ≤ off ∧ off < 0xA200 then
    if size = 8 ∧ off % 8 = 0 then pure (some (loadDie s ((off - 0xA000) / 64) (off % 64))) else none
  else if off = 0xA800 ∧ size = 8 then pure (some s.invVa)
  else if off = 0xA808 ∧ size = 4 then pure (some (word s.invAsid.toNat))
  else if off = 0xA80C ∧ size = 4 then pure (some 0)
  else if 0xC000 ≤ off ∧ off < 0xE000 then pure (loadPlumb s ((off - 0xC000) / 64) (off % 64) size)
  else if 0xE000 ≤ off ∧ off < 0xE800 then pure (loadLink s (off - 0xE000) size)
  else if 0xF000 ≤ off ∧ off < 0x10000 then pure (loadService s (off - 0xF000) size)
  else none

/-! ### Stores -/

inductive StoreAns where
  | bad
  | ok (s : State)
  /-- MSGGO while the ring is full. -/
  | full

/-- QMASK takes 15 to 65,535, one less than a power of two. -/
def maskOk (v : Nat) : Bool := decide (15 ≤ v) && decide (v ≤ 65535) && 2 ^ (v + 1).log2 == v + 1

/-- A disabled queue ages no record: the record at its head stands there anew from the enabling
(notes/assumptions/108.md). -/
def storeQueue (s : State) (q o size : Nat) (v : Word) : StoreAns :=
  let x := getQueue s q
  match o, size with
  | 0x00, 8 => .ok (if x.en then s else setQueue s q { x with base := v })
  | 0x08, 4 => .ok (if x.en ∨ !maskOk v.toNat then s else setQueue s q { x with mask := BitVec.ofNat 32 v.toNat })
  | 0x0C, 4 => .ok s
  | 0x10, 4 =>
    let x' := { x with tail := BitVec.ofNat 32 v.toNat }
    .ok (setQueue s q (if x.nonEmpty then x' else { x' with since := s.htime, raised := false }))
  | 0x14, 4 =>
    if !v.getLsbD 0 then .ok (setQueue s q { x with en := false })
    else if x.mask = 0 ∨ x.base = 0 ∨ !s.service.ready then .ok s
    else .ok (setQueue s q { x with en := true, since := if x.en then x.since else s.htime })
  | 0x18, 8 | 0x18, 4 | 0x1C, 4 => .ok s
  | _, _ => .bad

def storeToken (s : State) (rid o : Nat) (v : Word) : State :=
  match o with
  | 0x10 => leakthrWrite s rid (BitVec.ofNat 32 v.toNat)
  | 0x20 =>
    let s := modRegion s rid fun r => { r with leakTrap := v.getLsbD 0 }
    if v.getLsbD 1 then tctlClr s rid else s
  | _ => s

def storePort (s : State) (p o size : Nat) (v : Word) : StoreAns :=
  match o, size with
  | 0x00, 8 =>
    .ok (modPort s p fun x =>
      if x.en then { x with en := v.getLsbD 63 }
      else { x with en := v.getLsbD 63, owner := v.extractLsb' 56 7, copy := v.getLsbD 55 })
  | 0x08, 8 => .ok (modPort s p fun x => { x with asid := v.extractLsb' 0 32 })
  | 0x10, 8 => .ok (prtabLoad s p v)
  | 0x18, 4 | 0x1C, 4 | 0x20, 4 | 0x24, 4 => .ok s
  | _, _ => .bad

def pmissMask : Word := 0x80FF0000FFFFFFFF

def storePlumb (s : State) (rid o size : Nat) (v : Word) : StoreAns :=
  let put (f : Region → Region) : StoreAns := .ok (modRegion s rid f)
  match o, size with
  | 0x00, 4 => put fun r => { r with wdEn := v.getLsbD 31,
                                     wdWin := if 17 ≤ bits v 5 0 ∧ bits v 5 0 ≤ 40 then v.extractLsb' 0 6 else r.wdWin }
  | 0x0C, 4 => put fun r => { r with dlCtl := v.getLsbD 0 }
  | 0x10, 8 => put fun r => { r with snapBase := v &&& 0xFFFFFFFFFFFFF000 }
  | 0x18, 4 => put fun r => if v.toNat ≤ 2 ^ 20 then { r with snapLen := v.extractLsb' 0 32 } else r
  | 0x1C, 4 => put fun r => if 10 ≤ bits v 5 0 ∧ bits v 5 0 ≤ 40 then { r with snapLim := v.extractLsb' 0 6 } else r
  | o, 4 => if o % 4 = 0 ∧ o ≠ 0x10 ∧ o ≠ 0x14 then .ok s else .bad
  | _, _ => .bad

def putBytes (bs : List Byte) (o : Nat) (v : Word) : List Byte := bs.take o ++ leBytes 8 v.toNat ++ bs.drop (o + 8)

def storeRecvQueue (s : State) (o : Nat) (v : Word) : State :=
  let i := (o - 0x400) / 16
  let q := Tab.get RecvQueue.reset s.link.queues i
  let q' := match o % 16 with
    | 0 => { q with base := v.extractLsb' 0 32 }
    | 4 => { q with hi := v.extractLsb' 0 8 }
    | 8 => if q.en then { q with en := v.getLsbD 31 }
           else { q with en := v.getLsbD 31, owner := v.extractLsb' 24 7, slots := v.extractLsb' 0 10 }
    | _ => q
  modLink s fun l => { l with queues := Tab.set RecvQueue.reset l.queues i q' }

/-- KCMD (12 R402): a command word; the command is complete at once. -/
def storeKcmd (s : State) (v : Word) : StoreAns :=
  match bits v 63 60 with
  | 1 => .ok (kcmdRereadKey s (bits v 11 0))
  | 2 => .ok (kcmdRevoke s (bits v 11 0))
  | 3 => .ok (kcmdRereadConn s (bits v 11 0))
  | _ => .bad

def storeLink (s : State) (o size : Nat) (v : Word) : StoreAns :=
  if 0x400 ≤ o then if size = 4 ∧ o % 4 = 0 then .ok (storeRecvQueue s o v) else .bad
  else if size ≠ 8 ∨ o % 8 ≠ 0 ∨ 0x140 ≤ o then .bad
  else if 0x40 ≤ o ∧ o < 0x80 then .ok (modLink s fun l => { l with msgout := putBytes l.msgout (o - 0x40) v })
  else match o with
    | 0x00 => .ok (modLink s fun l => { l with hpctl := (l.hpctl &&& ~~~(5 : Word)) ||| (v &&& 5) })
    | 0x10 => .ok (modLink s fun l => { l with ktbase := v &&& 0xFFFFFFFFFFFE0000 })
    | 0x18 => storeKcmd s v
    | 0x20 => .ok (modLink s fun l => { l with ctbase := v })
    | 0x28 => match sendMessage s with | some s => .ok s | none => .full
    | 0x30 => .ok (msgAck s)
    | 0x100 => .ok (modLink s fun l => { l with d2hbase := v })
    | 0x108 => .ok (modLink s fun l => { l with d2hhead := v.extractLsb' 0 32 })
    | 0x110 => .ok (modLink s fun l => { l with h2dbase := v })
    | 0x118 => .ok (modLink s fun l => { l with h2dtail := v.extractLsb' 32 32 })
    | 0x120 => .ok (modLink s fun l =>
        if 4 ≤ v.toNat ∧ v.toNat ≤ 12 then { l with ringsz := v.extractLsb' 0 4 } else l)
    | _ => .ok s

def storeService (s : State) (o size : Nat) (v : Word) : StoreAns :=
  if 0x400 ≤ o ∨ size ≠ 8 ∨ o % 8 ≠ 0 then .bad
  else match o with
    | 0x10 => .ok (modService s fun x =>
        if 1000 ≤ bits v 15 0 ∧ bits v 15 0 ≤ ratedWatts x then { x with plim := v.extractLsb' 0 16 } else x)
    | 0x18 => .ok (opreqWrite s false v)
    | 0x20 => .ok (opreqWrite s true v)
    | 0x60 => .ok (modService s fun x => { x with frbase := v &&& 0xFFFFFFFFFFFC0000 })
    | 0x68 => .ok (modService s fun x => { x with frhead := v.extractLsb' 0 32 })
    | _ => .ok s

/-- A store to the package control block, by thread th or by the host. -/
def storePcb (s : State) (who : Option Nat) (off size : Nat) (v : Word) : StoreAns :=
  if off < 0x800 then storeQueue s (off / 32) (off % 32) size v
  else if off = 0x1008 ∧ size = 8 then .ok (match who with | some th => launchCommit s th v | none => s)
  else if off = 0x1010 ∧ size = 8 then .ok (match who with | some th => launchRelease s th v | none => s)
  else if off = 0x1108 ∧ size = 8 then .ok (allocFree s v)
  else if off = 0x1200 ∧ size = 8 then .ok (twinStore s v)
  else if 0x1400 ≤ off ∧ off < 0x3400 ∧ size = 8 then
    if off % 8 = 0 then .ok (spanStore s ((off - 0x1400) / 64) (off / 8 % 8) v) else .bad
  else if 0x2000 ≤ off ∧ off < 0x4000 then
    if size = 4 ∧ off % 4 = 0 then .ok (storeToken s ((off - 0x2000) / 64) (off % 64) v) else .bad
  else if 0x4000 ≤ off ∧ off < 0x4800 then
    if size = 4 ∧ off % 4 = 0 then
      let rid := (off - 0x4000) / 16
      .ok (if off % 16 = 0 then modRegion s rid fun r => { r with fpTrap := v.extractLsb' 0 6 } else s)
    else .bad
  else if 0x8000 ≤ off ∧ off < 0xA200 ∧ !dieBlockOpen s off then .bad
  else if 0x8000 ≤ off ∧ off < 0xA000 then storePort s ((off - 0x8000) / 64) (off % 64) size v
  else if 0xA000 ≤ off ∧ off < 0xA200 then
    if size ≠ 8 ∨ off % 8 ≠ 0 then .bad
    else
      let d := (off - 0xA000) / 64
      match off % 64 with
      | 0 => .ok (setDie s d { getDie s d with pmiss := v &&& pmissMask })
      | 0x10 => .ok (hrtabLoad s d v)
      | _ => .ok s
  else if off = 0xA800 ∧ size = 8 then .ok { s with invVa := v &&& 0x01FFFFFFFFFF0000 }
  else if off = 0xA808 ∧ size = 4 then .ok { s with invAsid := v.extractLsb' 0 32 }
  else if off = 0xA80C ∧ size = 4 then
    match v.toNat with
    | 1 => .ok (tlbinvPage s s.invVa s.invAsid)
    | 2 => .ok (tlbinvAsid s s.invAsid)
    | 3 => .ok (tlbinvAll s)
    | _ => .bad
  else if 0xC000 ≤ off ∧ off < 0xE000 then storePlumb s ((off - 0xC000) / 64) (off % 64) size v
  else if 0xE000 ≤ off ∧ off < 0xE800 then storeLink s (off - 0xE000) size v
  else if 0xF000 ≤ off ∧ off < 0x10000 then storeService s (off - 0xF000) size v
  else .bad

/-- A register write as a step of its own: by the host through BAR0, or by thread 0. A write that traps, or that the host
port discards, changes nothing here. -/
def execRegisterWrite (host : Bool) (off size : Nat) (v : Word) (s : State) : Host.Outcome State Fault Refusal :=
  .next (match storePcb s (if host then none else some 0) off size v with
    | .ok s => s
    | _ => s)

/-! ### The die control block (04 R121, R129) -/

/-- An 8-byte load of the fault-record ring or its counts. -/
def loadDcb (s : State) (d off size : Nat) : Option Word :=
  let x := getDie s d
  if size ≠ 8 ∨ off % 8 ≠ 0 then none
  else if off < 0x4000 then some ((Tab.get [] x.ring (off / 64)).getD (off / 8 % 8) 0)
  else if off = 0x4000 then some x.ringIdx
  else if off = 0x4008 then some x.lost
  else none

end Sys2Proof.Machine
end

