-- ==== Sys2Proof/Machine/HawkMem.lean ====
section
/-! DEFINITION. Hawk registers, addresses and accesses, and the load, store, atomic and fence words
(04 R107, R112 to R114, R135, R137, R138; 10 R322). -/

namespace Sys2Proof.Machine

/-! ### The moving thread and its registers (R107) -/

/-- The thread that moves. -/
def cur (s : State) : Nat := match s.turn with | .hawk th => th | _ => 0

/-- x0 reads as zero. -/
def Thread.getX (t : Thread) (r : Reg) : Word := if r = 0 then 0 else t.x[r.toNat]

/-- Writes to x0 are discarded. -/
def Thread.setX (t : Thread) (r : Reg) (v : Word) : Thread := if r = 0 then t else { t with x := t.x.set r.toNat v }

def Thread.getD (t : Thread) (r : Reg) : Word := t.d[r.toNat]
def Thread.setD (t : Thread) (r : Reg) (v : Word) : Thread := { t with d := t.d.set r.toNat v }

/-- The moving thread's x register, a write of it that ends the word, and the same for a d register. -/
def rx (s : State) (r : Reg) : Word := (getThread s (cur s)).getX r
def rd (s : State) (r : Reg) : Word := (getThread s (cur s)).getD r

def finishX (s : State) (th : Nat) (r : Reg) (v : Word) : State :=
  let t := (getThread s th).setX r v
  setThread s th { t with pc := t.pc + 4 }

def finishD (s : State) (th : Nat) (r : Reg) (v : Word) : State :=
  let t := (getThread s th).setD r v
  setThread s th { t with pc := t.pc + 4 }

/-- The bits of a Hawk word, as a trap's HXVAL holds them. -/
def wordOf (i : Instr) : Word := ((encodeHawk i).getD 0).setWidth 64

/-! ### What an access meets (R112, R113) -/

/-- The outcome of an access or of part of one: a value, a trap of the word, or a wait for a page. -/
inductive Hawk (α : Type) where
  | ok (s : State) (a : α)
  | trap (code detail : Nat) (val : Word)
  | wait (s : State)

/-- Go on from a result. -/
def Hawk.andThen {α β : Type} (h : Hawk α) (f : State → α → Hawk β) : Hawk β :=
  match h with
  | .ok s a => f s a
  | .trap c d v => .trap c d v
  | .wait s => .wait s

/-- End a word: its trap leaves all other state as it was before the word (R128). -/
def Hawk.finish {α : Type} (h : Hawk α) (s0 : State) (th : Nat) (f : State → α → State) : State :=
  match h with
  | .ok s a => f s a
  | .trap c d v => Sys2Proof.Machine.trap s0 th c d v
  | .wait s => s

inductive HLoc where
  | mem (a : Nat)
  | bank (a : Nat) (window : Bool)
  | pcb (off : Nat)
  | dcb (off : Nat)
  deriving DecidableEq, Repr

/-- The region that a thread's HREGION names, for the windows of the lower half (R112). -/
def hregion (s : State) (t : Thread) : Region :=
  if t.region.getLsbD 63 then
    let r := getRegion s (bits t.region 62 56)
    if r.state ≠ .free ∧ r.handle = t.region then r else Region.free
  else Region.free

def inRange (a lo n : Nat) : Bool := decide (lo ≤ a) && decide (a < lo + n)

/-- The upper half of the address space (R112); none where the table maps nothing. -/
def upperLoc (s : State) (d a : Nat) : Option HLoc :=
  if inRange a 0xFF00000000000000 (2 ^ 20) then some (.mem (sramAddr d (a % 2 ^ 20)))
  else if inRange a 0xFF00000001000000 (2 ^ 16) then some (.dcb (a % 2 ^ 16))
  else if inRange a 0xFF00000002000000 (2 ^ 16) then some (.pcb (a % 2 ^ 16))
  else if inRange a 0xFF10000000000000 (2 ^ 40) then
    if s.service.dies.contains (a % 2 ^ 40 / 2 ^ 37) then some (.mem (a % 2 ^ 40)) else none
  else if inRange a 0xFF20000000000000 (2 ^ 29) then
    if s.service.dies.contains (a % 2 ^ 29 / 2 ^ 26) then some (.bank (bankAddr (a % 2 ^ 29 / 2 ^ 26) (a % 2 ^ 26)) false)
    else none
  else none

/-- Hold a thread on a translation miss: its ticket goes to the pager graph, or it tries again while the pager's colour is
refused (09 R298). -/
def hawkMiss (s : State) (th v kind : Nat) : State :=
  let t := getThread s th
  let seq := t.faultSeq + 1
  match raiseMiss s (ticketWord (th / 8) true (th % 8) 0 seq.toNat kind (t.asid)) v with
  | none => s
  | some s => setThread s th { getThread s th with faultSeq := seq, block := .page (word v) }

/-- Where n bytes at a lie for a thread, or the trap or the wait they meet. w is the word's bits. -/
def hawkLoc (s : State) (th : Nat) (a : Word) (n : Nat) (write : Bool) (w : Word) : Hawk HLoc :=
  let t := getThread s th
  let v := a.toNat
  if !canonical v then .trap cHPAGE 1 a
  else if lowerTop ≤ v then
    if !t.mode then .trap cPRIV 0 w
    else match upperLoc s (th / 8) v with
      | none => .trap cHPAGE 1 a
      | some (.mem p) => if inSinkArea p then .trap cHPAGE 3 a else .ok s (.mem p)
      | some l => .ok s l
  else match locate s (hregion s t) v n with
    | .fail _ => .trap cHPAGE 1 a
    | .bank p => .ok s (.bank p true)
    | .scratch c off => .ok s (.mem (spAddr c off))
    | .global v =>
      match translate s (getDie s (th / 8)).xlate t.asid v n write with
      | .miss b => .wait (hawkMiss s th b (missKind false write))
      | .prot _ => .trap cHPAGE 2 a
      | .fail => .trap cHPAGE 3 a
      | .parts ps => match ps with | (p, _) :: _ => .ok s (.mem p) | [] => .ok s (.mem 0)

/-! ### Loads and stores (R113, R135) -/

/-- Read n bytes for a thread. -/
def hawkLoad (s : State) (th : Nat) (a : Word) (n : Nat) (w : Word) : Hawk Nat :=
  if a.toNat % n ≠ 0 then .trap cMISALIGN 0 a
  else (hawkLoc s th a n false w).andThen fun s l =>
    match l with
    | .mem p =>
      let (s, bs, bad) := readMem s p n
      if bad then .trap cPOISON 0 a else .ok s (leNat bs)
    | .bank p _ =>
      (match loadBank s p n with
      | none => .trap cHPAGE 3 a
      | some (s, bs, bad) => if bad then .trap cPOISON 0 a else .ok s (leNat bs))
    | .pcb off => (match loadPcb s (some th) off n with
      | none => .trap cHPAGE 3 a
      | some (s, v) => .ok s v.toNat)
    | .dcb off => (match loadDcb s (th / 8) off n with
      | none => .trap cHPAGE 3 a
      | some v => .ok s v.toNat)

/-- Write n bytes for a thread. A store of MSGGO to a full ring blocks the thread at its word (12 R391). -/
def hawkStore (s : State) (th : Nat) (a : Word) (n : Nat) (v : Word) (w : Word) : Hawk Unit :=
  if a.toNat % n ≠ 0 then .trap cMISALIGN 0 a
  else (hawkLoc s th a n true w).andThen fun s l =>
    match l with
    | .mem p =>
      let (s, ok) := writeMem s p (leBytes n v.toNat) false
      if ok then .ok s () else .trap cPOISON 0 a
    | .bank p _ =>
      (match storeBank s p (leBytes n v.toNat) false with
      | .error c => if c = ePOISON then .trap cPOISON 0 a else .trap cHPAGE 3 a
      | .ok s => .ok s ())
    | .pcb off =>
      (match storePcb s (some th) off n (v.setWidth (8 * n) |>.setWidth 64) with
      | .bad => .trap cHPAGE 3 a
      | .ok s => .ok s ()
      | .full => .wait (setThread s th { getThread s th with block := .msggo }))
    | .dcb _ => .trap cHPAGE 3 a

/-- Sign- or zero-extend a loaded value of n bytes. -/
def extend (n : Nat) (signed : Bool) (v : Nat) : Word :=
  if signed then (BitVec.ofNat (8 * n) v).signExtend 64 else BitVec.ofNat 64 v

/-- The address of a load or store. -/
def addrOf (s : State) (ra : Reg) (imm : BitVec 16) : Word := rx s ra + imm.signExtend 64

/-- A load into an x register. -/
def loadX (s : State) (r ra : Reg) (imm : BitVec 16) (n : Nat) (signed : Bool) (i : Instr) : State :=
  (hawkLoad s (cur s) (addrOf s ra imm) n (wordOf i)).finish s (cur s) fun s' v =>
    finishX s' (cur s) r (extend n signed v)

/-- A store of n low bytes. -/
def storeV (s : State) (v : Word) (ra : Reg) (imm : BitVec 16) (n : Nat) (i : Instr) : State :=
  (hawkStore s (cur s) (addrOf s ra imm) n v (wordOf i)).finish s (cur s) fun s' _ => advance s' (cur s)

def execLdb (r ra : Reg) (imm : BitVec 16) (s : State) : Host.Outcome State Fault Refusal :=
  .next (loadX s r ra imm 1 true (.ldb r ra imm))
def execLdh (r ra : Reg) (imm : BitVec 16) (s : State) : Host.Outcome State Fault Refusal :=
  .next (loadX s r ra imm 2 true (.ldh r ra imm))
def execLdw (r ra : Reg) (imm : BitVec 16) (s : State) : Host.Outcome State Fault Refusal :=
  .next (loadX s r ra imm 4 true (.ldw r ra imm))
def execLdd (r ra : Reg) (imm : BitVec 16) (s : State) : Host.Outcome State Fault Refusal :=
  .next (loadX s r ra imm 8 false (.ldd r ra imm))
def execLdbn (r ra : Reg) (imm : BitVec 16) (s : State) : Host.Outcome State Fault Refusal :=
  .next (loadX s r ra imm 1 false (.ldbn r ra imm))
def execLdhn (r ra : Reg) (imm : BitVec 16) (s : State) : Host.Outcome State Fault Refusal :=
  .next (loadX s r ra imm 2 false (.ldhn r ra imm))
def execLdwn (r ra : Reg) (imm : BitVec 16) (s : State) : Host.Outcome State Fault Refusal :=
  .next (loadX s r ra imm 4 false (.ldwn r ra imm))
def execStb (r ra : Reg) (imm : BitVec 16) (s : State) : Host.Outcome State Fault Refusal :=
  .next (storeV s (rx s r) ra imm 1 (.stb r ra imm))
def execSth (r ra : Reg) (imm : BitVec 16) (s : State) : Host.Outcome State Fault Refusal :=
  .next (storeV s (rx s r) ra imm 2 (.sth r ra imm))
def execStw (r ra : Reg) (imm : BitVec 16) (s : State) : Host.Outcome State Fault Refusal :=
  .next (storeV s (rx s r) ra imm 4 (.stw r ra imm))
def execStd (r ra : Reg) (imm : BitVec 16) (s : State) : Host.Outcome State Fault Refusal :=
  .next (storeV s (rx s r) ra imm 8 (.std r ra imm))

def execFld (r ra : Reg) (imm : BitVec 16) (s : State) : Host.Outcome State Fault Refusal :=
  .next ((hawkLoad s (cur s) (addrOf s ra imm) 8 (wordOf (.fld r ra imm))).finish s (cur s) fun s' v =>
    finishD s' (cur s) r (BitVec.ofNat 64 v))
def execFst (r ra : Reg) (imm : BitVec 16) (s : State) : Host.Outcome State Fault Refusal :=
  .next (storeV s (rd s r) ra imm 8 (.fst r ra imm))

/-! ### Atomics (R137) -/

inductive AtomOp where
  | swap | add | and | or | xor | min | max | minn | maxn | cas
  deriving DecidableEq, Repr

/-- The new value of an n-bit word: c is the compare value of cas. -/
def atomNew (o : AtomOp) (n : Nat) (old b c : BitVec n) : BitVec n :=
  match o with
  | .swap => b
  | .add => old + b
  | .and => old &&& b
  | .or => old ||| b
  | .xor => old ^^^ b
  | .min => if old.sle b then old else b
  | .max => if old.sle b then b else old
  | .minn => if old ≤ b then old else b
  | .maxn => if old ≤ b then b else old
  | .cas => if old = c then b else old

/-- The 8-byte swap of a poisoned word of local SRAM: a store of the whole word, which clears the poison (R113). -/
def sramSwap (s : State) (o : AtomOp) (p n : Nat) : Bool := o == .swap && n == 8 && kindOf p == .sram && (readMem s p 8).2.2

/-- The read-modify-write at the place that performs it: the old value. -/
def atomAt (s : State) (th : Nat) (l : HLoc) (o : AtomOp) (n : Nat) (a b c : Word) : Hawk Word :=
  let go (s : State) (p : Nat) : Hawk Word :=
    let (s, bs, bad) := readMem s p n
    if bad && !sramSwap s o p n then .trap cPOISON 0 a
    else
      let old := BitVec.ofNat (8 * n) (leNat bs)
      let new := atomNew o (8 * n) old (b.setWidth (8 * n)) (c.setWidth (8 * n))
      .ok (writeMem s p (leBytes n new.toNat) false).1 (old.setWidth 64)
  match l with
  | .mem p => if kindOf p = .sram then go s p else .trap cHPAGE 3 a
  | .bank p window => if window ∧ wordMode s p = .plain then go s p else .trap cHPAGE 3 a
  | .pcb off =>
    if off = 0x1100 ∧ o = .swap ∧ n = 8 then (let (s, h) := allocate s (th / 8) b; .ok s h) else .trap cHPAGE 3 a
  | .dcb _ => .trap cHPAGE 3 a

/-- ATOM: earlier accesses of the thread are performed already, since each is performed as it issues. -/
def atom (s : State) (o : AtomOp) (r ra rb : Reg) (w32 : Bool) (i : Instr) : State :=
  let th := cur s
  let n := if w32 then 4 else 8
  let a := rx s ra
  let h : Hawk Word :=
    if a.toNat % n ≠ 0 then .trap cMISALIGN 0 a
    else if a.toNat < bankWindow then .trap cHPAGE 3 a
    else (hawkLoc s th a n true (wordOf i)).andThen fun s' l => atomAt s' th l o n a (rx s rb) (rx s r)
  h.finish s th fun s' v => finishX s' th r v

def execAtomSwap (r ra rb : Reg) (sc : Scope) (w : Bool) (s : State) : Host.Outcome State Fault Refusal :=
  .next (atom s .swap r ra rb w (.atomSwap r ra rb sc w))
def execAtomAdd (r ra rb : Reg) (sc : Scope) (w : Bool) (s : State) : Host.Outcome State Fault Refusal :=
  .next (atom s .add r ra rb w (.atomAdd r ra rb sc w))
def execAtomAnd (r ra rb : Reg) (sc : Scope) (w : Bool) (s : State) : Host.Outcome State Fault Refusal :=
  .next (atom s .and r ra rb w (.atomAnd r ra rb sc w))
def execAtomOr (r ra rb : Reg) (sc : Scope) (w : Bool) (s : State) : Host.Outcome State Fault Refusal :=
  .next (atom s .or r ra rb w (.atomOr r ra rb sc w))
def execAtomXor (r ra rb : Reg) (sc : Scope) (w : Bool) (s : State) : Host.Outcome State Fault Refusal :=
  .next (atom s .xor r ra rb w (.atomXor r ra rb sc w))
def execAtomMin (r ra rb : Reg) (sc : Scope) (w : Bool) (s : State) : Host.Outcome State Fault Refusal :=
  .next (atom s .min r ra rb w (.atomMin r ra rb sc w))
def execAtomMax (r ra rb : Reg) (sc : Scope) (w : Bool) (s : State) : Host.Outcome State Fault Refusal :=
  .next (atom s .max r ra rb w (.atomMax r ra rb sc w))
def execAtomMinn (r ra rb : Reg) (sc : Scope) (w : Bool) (s : State) : Host.Outcome State Fault Refusal :=
  .next (atom s .minn r ra rb w (.atomMinn r ra rb sc w))
def execAtomMaxn (r ra rb : Reg) (sc : Scope) (w : Bool) (s : State) : Host.Outcome State Fault Refusal :=
  .next (atom s .maxn r ra rb w (.atomMaxn r ra rb sc w))
def execAtomCas (r ra rb : Reg) (sc : Scope) (w : Bool) (s : State) : Host.Outcome State Fault Refusal :=
  .next (atom s .cas r ra rb w (.atomCas r ra rb sc w))

/-- FENCE (R138): every earlier write of the thread is performed already, since each is performed as it issues. -/
def execFence (_ : Scope) (s : State) : Host.Outcome State Fault Refusal := .next (advance s (cur s))

end Sys2Proof.Machine
end

