-- ==== Sys2Proof/Machine/Compact.lean ====
section
/-! DEFINITION. Magnitude compression (06 R214, R215), which VCOMPR, VEXPND, LDS, STS and the sparse product share. -/

namespace Sys2Proof.Machine

/-- Element x of format f ranks strictly above y: NaN above infinity above every finite magnitude (R214). -/
def outranks (f : Fmt) (x y : Nat) : Bool :=
  match fpOf f with
  | none => decide ((intOf f y).natAbs < (intOf f x).natAbs)
  | some p =>
    match unpack p x, unpack p y with
    | .nan .., .nan .. => false
    | .nan .., _ => true
    | _, .nan .. => false
    | .inf _, .inf _ => false
    | .inf _, _ => true
    | _, .inf _ => false
    | .fin _ m e, .fin _ n g => cmpMag m e n g == .gt

/-- Index j of a group is kept: fewer than k elements rank above it, or equal with a lower index. -/
def kept (f : Fmt) (k : Nat) (grp : List Nat) (j : Nat) : Bool :=
  let x := grp.getD j 0
  let above := (List.range grp.length).filter fun i =>
    let y := grp.getD i 0
    outranks f y x || (decide (i < j) && !outranks f x y)
  decide (above.length < k)

/-- The kept indices of one group, ascending. -/
def keptIn (f : Fmt) (k : Nat) (grp : List Nat) : List Nat := (List.range grp.length).filter (kept f k grp)

/-- The groups of g consecutive elements of a row. -/
def groupsOf (g : Nat) (row : List Nat) : List (List Nat) :=
  (List.range (row.length / g)).map fun i => (row.drop (g * i)).take g

/-- Four 2-bit indices a byte, from bit 0 upward. -/
def packIndices (ix : List Nat) : List Nat :=
  (List.range (ix.length / 4)).map fun i =>
    ix.getD (4 * i) 0 + 4 * ix.getD (4 * i + 1) 0 + 16 * ix.getD (4 * i + 2) 0 + 64 * ix.getD (4 * i + 3) 0

def unpackIndices (bs : List Nat) : List Nat := bs.flatMap fun b => [b % 4, b / 4 % 4, b / 16 % 4, b / 64 % 4]

/-- One row compressed: its kept elements and its metadata bytes. -/
def compressRow (f : Fmt) (g k : Nat) (pack : Bool) (row : List Nat) : List Nat × List Nat :=
  let grps := groupsOf g row
  let ixs := grps.map (keptIn f k)
  let vals := (grps.zip ixs).flatMap fun e => e.2.map fun j => e.1.getD j 0
  (vals, if pack then packIndices ixs.flatten else ixs.flatten)

/-- A row's metadata as indices within their groups. -/
def rowIndices (pack : Bool) (bs : List Nat) : List Nat := if pack then unpackIndices bs else bs

/-- The first index of a row that is not below g or not above the one before it in its group. -/
def badIndex (g k : Nat) (ix : List Nat) : Option Nat :=
  (List.range ix.length).find? fun i =>
    decide (g ≤ ix.getD i 0) || (i % k != 0 && decide (ix.getD i 0 ≤ ix.getD (i - 1) 0))

/-- One dense row from its values and indices: n elements, zero where no index names a value. -/
def expandRow (g k n : Nat) (vals ix : List Nat) : List Nat :=
  (List.range n).map fun j =>
    match (List.range k).find? fun i => ix.getD (j / g * k + i) g == j % g with
    | some i => vals.getD (j / g * k + i) 0
    | none => 0

/-- The first metadata error of a tile, as a values element index (R215). -/
def badMeta (g k : Nat) (pack : Bool) (vepr : Nat) (rows : List (List Nat)) : Option Nat :=
  (List.range rows.length).foldl (fun acc i => match acc with
    | some e => some e
    | none => (badIndex g k (rowIndices pack (rows.getD i []))).map fun j => i * vepr + j) none

/-- The two tiles that VCOMPR makes of one. -/
def compressTile (g k : Nat) (pack : Bool) (t : Tile) : Tile × Tile :=
  let rows := t.elems.map (compressRow t.fmt g k pack)
  let n := t.epr * k / g
  ({ fmt := t.fmt, epr := n, elems := rows.map Prod.fst, scales := [] },
   { fmt := .n8, epr := if pack then n / 4 else n, elems := rows.map Prod.snd, scales := [] })

/-- The dense tile that values and metadata stand for. -/
def expandTile (g k : Nat) (pack : Bool) (v d : Tile) : Tile :=
  let n := v.epr * g / k
  { fmt := v.fmt, epr := n, scales := [],
    elems := (v.elems.zip d.elems).map fun e => expandRow g k n e.1 (rowIndices pack e.2) }

/-- Values and metadata, as rows and elements per row, have the shapes that VCOMPR produces (R215). -/
def compactShapes (k : Nat) (pack : Bool) (v d : Nat × Nat) : Bool :=
  v.1 == d.1 && v.2 % k == 0 && (if pack then v.2 % 4 == 0 && d.2 == v.2 / 4 else d.2 == v.2)

end Sys2Proof.Machine
end

