-- ==== Sys2Proof/Machine/Transc.lean ====
section
/-! DEFINITION. The correctly rounded transcendentals of 06 R202 and R203: e^a, e^a - 1, 2^a, ln a, ln(1 + a), log2 a,
erf a and erfc a. Each is enclosed in an interval of integers at a fixed scale, and rounded once both ends of the interval
round alike; the scale is raised until they do. -/

namespace Sys2Proof.Machine

/-! ### Fixed-point series at scale 2^n -/

/-- Sum of p z2^i / (2 (k + i) + 1) over i, p taken at scale 2^n; sgn is -1 for alternating terms. -/
def oddSeries (n : Nat) (z2 sgn : Int) : Nat → Int → Nat → Int → Int
  | 0, _, _, acc => acc
  | fuel + 1, p, k, acc =>
    if p = 0 then acc else oddSeries n z2 sgn fuel (sgn * (p * z2 / 2 ^ n)) (k + 1) (acc + p / (2 * k + 1 : Nat))

/-- artanh z for z at scale 2^n. -/
def atanhFix (n : Nat) (z : Int) : Int := oddSeries n (z * z / 2 ^ n) 1 (n + 2) z 0 0

/-- arctan (1 / d). -/
def atanInv (n d : Nat) : Int := oddSeries n (2 ^ n / (d * d : Nat)) (-1) (n + 2) (2 ^ n / (d : Nat)) 0 0

def ln2Fix (n : Nat) : Int := 2 * atanhFix n (2 ^ n / 3)

def piFix (n : Nat) : Int := 16 * atanInv n 5 - 4 * atanInv n 239

/-- 2 / Sqrt pi. -/
def erfConst (n : Nat) : Int := 2 ^ (2 * n + 1) / (isqrt ((piFix n).toNat * 2 ^ n) : Nat)

/-- The terms r^i / i! from i on. -/
def expSeries (n : Nat) (r : Int) : Nat → Int → Nat → Int → Int
  | 0, _, _, acc => acc
  | fuel + 1, t, i, acc => if t = 0 then acc else expSeries n r fuel (t * r / 2 ^ n / (i + 1 : Nat)) (i + 1) (acc + t)

/-- e^x for x at scale 2^n, as an integer v and a binary exponent k: e^x is about v 2^(k - n). -/
def expFix (n : Nat) (x : Int) : Int × Int :=
  let l := ln2Fix n
  let k := (x + l / 2) / l
  (expSeries n (x - k * l) (n + 2) (2 ^ n) 0 0, k)

/-- m 2^e at scale 2^n. -/
def toFix (n m : Nat) (e : Int) : Nat := if 0 ≤ e + n then m * 2 ^ (e + n).toNat else m / 2 ^ (-(e + n)).toNat

/-- ln (m 2^e). -/
def lnFix (n m : Nat) (e : Int) : Int :=
  let h := bitLen m - 1
  -- f = m / 2^h lies in [1, 2); above 4/3 it is halved
  let h' := if 4 * 2 ^ h < 3 * m then h + 1 else h
  2 * atanhFix n (((m : Int) - 2 ^ h') * 2 ^ n / ((m : Int) + 2 ^ h')) + (e + h') * ln2Fix n

/-- Sum of (2 x^2)^k x / (2k + 1)!!. -/
def erfSeries (n : Nat) (x2 : Int) : Nat → Int → Nat → Int → Int
  | 0, _, _, acc => acc
  | fuel + 1, t, k, acc =>
    if t = 0 then acc else erfSeries n x2 fuel (t * (2 * x2) / 2 ^ n / (2 * k + 3 : Nat)) (k + 1) (acc + t)

/-! ### Enclosures: a sign, and lo 2^e < |value| < hi 2^e -/

structure Encl where
  sign : Bool
  lo : Int
  hi : Int
  e : Int

/-- The error allowed to a fixed-point result, far above what the series can lose. -/
def slack : Int := 2 ^ 48

/-- An enclosure of v 2^e, none where the slack reaches zero. -/
def around (v e : Int) : Option Encl :=
  if 0 < v - slack then some ⟨false, v - slack, v + slack, e⟩
  else if v + slack < 0 then some ⟨true, -v - slack, -v + slack, e⟩
  else none

/-- A value just above (below with up clear) m 2^e. -/
def nearly (sign up : Bool) (m : Nat) (e : Int) : Option Encl :=
  let m' : Int := m * 2 ^ 200
  some ⟨sign, if up then m' else m' - 1, if up then m' + 1 else m', e - 200⟩

/-- The magnitude m 2^e is below 2^(-200). -/
def isTiny (m : Nat) (e : Int) : Bool := decide ((bitLen m : Int) + e ≤ -200)

/-- The magnitude m 2^e is at least 2^b. -/
def atLeast (m : Nat) (e b : Int) : Bool := decide (b < (bitLen m : Int) + e)

def negIf (s : Bool) (x : Int) : Int := if s then -x else x

def enclExp (n : Nat) (s : Bool) (m : Nat) (e : Int) : Option Encl :=
  if isTiny m e then nearly false (!s) 1 0
  else if atLeast m e 12 then (if s then nearly false true 1 (-6000) else nearly false true 1 6000)
  else let r := expFix n (negIf s (toFix n m e)); around r.1 (r.2 - n)

def enclExp2 (n : Nat) (s : Bool) (m : Nat) (e : Int) : Option Encl :=
  if isTiny m e then nearly false (!s) 1 0
  else if atLeast m e 13 then (if s then nearly false true 1 (-6000) else nearly false true 1 6000)
  else let r := expFix n (negIf s (toFix n m e * ln2Fix n / 2 ^ n)); around r.1 (r.2 - n)

def enclExpm1 (n : Nat) (s : Bool) (m : Nat) (e : Int) : Option Encl :=
  if isTiny m e then nearly s (!s) m e
  else if atLeast m e 12 then (if s then nearly true false 1 0 else nearly false true 1 6000)
  else
    let r := expFix n (negIf s (toFix n m e))
    if n ≤ r.2 then around (r.1 - 1) (r.2 - n) else around (r.1 - 2 ^ (n - r.2).toNat) (r.2 - n)

def enclLn (n m : Nat) (e : Int) : Option Encl := around (lnFix n m e) (-n)

def enclLog2 (n m : Nat) (e : Int) : Option Encl := around (lnFix n m e * 2 ^ n / ln2Fix n) (-n)

def enclLog1p (n : Nat) (s : Bool) (m : Nat) (e : Int) : Option Encl :=
  if isTiny m e then nearly s s m e
  else if 0 ≤ e then around (lnFix n (m * 2 ^ e.toNat + 1) 0) (-n)
  else around (lnFix n (2 ^ (-e).toNat + negIf s m).toNat e) (-n)

/-- erf of a positive m 2^e that is neither tiny nor above 32: v 2^(x), and a bound of the error of v. -/
def erfFix (n m : Nat) (e : Int) : Int × Int × Int :=
  let x : Int := toFix n m e
  let x2 := x * x / 2 ^ n
  let sum := erfSeries n x2 (8 * n) x 0 0
  let ex := expFix n (-x2)
  let v := sum * ex.1 / 2 ^ n * erfConst n / 2 ^ n
  (v, ex.2 - n, v / 2 ^ (n - 280) + 2)

def enclErf (n : Nat) (s : Bool) (m : Nat) (e : Int) : Option Encl :=
  if isTiny m e then
    let c := erfConst n
    some ⟨s, m * (c - slack - c / 2 ^ 390), m * (c + slack), e - n⟩
  else if atLeast m e 4 then nearly s false 1 0
  else let r := erfFix n m e; some ⟨s, r.1 - r.2.2, r.1 + r.2.2, r.2.1⟩

def enclErfc (n : Nat) (s : Bool) (m : Nat) (e : Int) : Option Encl :=
  if isTiny m e then nearly false s 1 0
  else if atLeast m e 5 then (if s then nearly false false 2 0 else nearly false true 1 (-6000))
  else
    let r := erfFix n m e
    if 0 ≤ r.2.1 then none
    else
      let one : Int := 2 ^ (-r.2.1).toNat
      if s then some ⟨false, one + r.1 - r.2.2, one + r.1 + r.2.2, r.2.1⟩
      else if 0 < one - r.1 - r.2.2 then some ⟨false, one - r.1 - r.2.2, one - r.1 + r.2.2, r.2.1⟩
      else none

/-! ### Rounding an enclosure -/

/-- Round both ends; an answer only where they agree. -/
def roundEncl (p : FP) (mode : Rnd) (sat : Bool) (rnd : Nat) (i : Encl) : Option (Nat × Flags) :=
  let a := roundPack p mode sat rnd i.sign i.lo.toNat i.e true
  let b := roundPack p mode sat rnd i.sign (i.hi - 1).toNat i.e true
  if a = b then some a else none

/-- The first scale whose enclosure rounds to one value. -/
def ziv (p : FP) (mode : Rnd) (sat : Bool) (rnd : Nat) (f : Nat → Option Encl) : List Nat → Nat × Flags
  | [] => (defaultNan p, 0)
  | n :: ns =>
    match (f n).bind (roundEncl p mode sat rnd) with
    | some r => r
    | none => ziv p mode sat rnd f ns

def scales : List Nat := [512, 1024, 2048, 4096]

/-! ### The operators (R202, R203) -/

inductive Transc where
  | exp | expm1 | log | log1p | erf | erfc | exp2 | log2
  deriving DecidableEq, Repr

/-- m 2^e is an integer. -/
def isIntegral (m : Nat) (e : Int) : Bool := decide (0 ≤ e) || (m % 2 ^ (-e).toNat == 0)

/-- The result on an operand that is not a NaN: the special operands of R203, and otherwise the rounded value. -/
def fpTransc (t : Transc) (p : FP) (mode : Rnd) (sat : Bool) (rnd : Nat) (a : Val) : Nat × Flags :=
  let one (s : Bool) : Nat × Flags := roundPack p mode sat rnd s 1 0 false
  let go (f : Nat → Option Encl) : Nat × Flags := ziv p mode sat rnd f scales
  match a with
  | .nan .. => nanResult p [a]
  | .inf s =>
    match t with
    | .exp | .exp2 => if s then (packZero p false, 0) else (packInf p false, 0)
    | .expm1 => if s then one true else (packInf p false, 0)
    | .log | .log2 | .log1p => if s then invalid p else (packInf p false, 0)
    | .erf => one s
    | .erfc => if s then roundPack p mode sat rnd false 2 0 false else (packZero p false, 0)
  | .fin s m e =>
    match t with
    | .exp => if m = 0 then one false else go fun n => enclExp n s m e
    | .exp2 =>
      if m = 0 then one false
      else if isIntegral m e then
        if atLeast m e 13 then go fun n => enclExp2 n s m e
        else roundPack p mode sat rnd false 1 (negIf s (toFix 0 m e)) false
      else go fun n => enclExp2 n s m e
    | .expm1 => if m = 0 then (packZero p s, 0) else go fun n => enclExpm1 n s m e
    | .log =>
      if m = 0 then (packInf p true, fDZ) else if s then invalid p
      else if cmpMag m e 1 0 = .eq then (packZero p false, 0) else go fun n => enclLn n m e
    | .log2 =>
      if m = 0 then (packInf p true, fDZ) else if s then invalid p
      else if m = 2 ^ (bitLen m - 1) then
        let x : Int := e + (bitLen m - 1 : Nat)
        roundPack p mode sat rnd (decide (x < 0)) x.natAbs 0 false
      else go fun n => enclLog2 n m e
    | .log1p =>
      if m = 0 then (packZero p s, 0)
      else if s then
        match cmpMag m e 1 0 with
        | .eq => (packInf p true, fDZ)
        | .gt => invalid p
        | .lt => go fun n => enclLog1p n s m e
      else go fun n => enclLog1p n s m e
    | .erf => if m = 0 then (packZero p s, 0) else go fun n => enclErf n s m e
    | .erfc => if m = 0 then one false else go fun n => enclErfc n s m e

end Sys2Proof.Machine
end

