-- ==== Sys2Proof/Machine/Vector.lean ====
section
/-! DEFINITION. The Vector Engine (06 R181 to R219): operands and results, arithmetic, conversion, comparison, integers,
reductions and scans, random numbers and microscaling. -/

namespace Sys2Proof.Machine

/-! ### Operands (R182, R185) -/

/-- What a port takes: its format, and a tile or a scalar only. -/
inductive VTakes where
  | any | tile | scalar
  deriving DecidableEq, Repr

structure VPort where
  fmt : Fmt
  takes : VTakes
  /-- The port's value is only forwarded (R182). -/
  fwd : Bool
  /-- Its tile must have the shape of the other such tiles. -/
  shaped : Bool
  deriving DecidableEq, Repr

def dataPort (f : Fmt) : VPort := { fmt := f, takes := .any, fwd := false, shaped := true }
def movePort (f : Fmt) : VPort := { fmt := f, takes := .any, fwd := true, shaped := true }

/-- An operand: one element that stands for every element, or a tile. -/
inductive VArg where
  | scalar (x : Nat)
  | tile (t : Tile)
  deriving DecidableEq, Repr

def VArg.elem (a : VArg) (i j : Nat) : Nat :=
  match a with
  | .scalar x => x
  | .tile t => t.at_ i j

/-- An f32 pattern widened exactly to f64: a NaN keeps its bits, quiet or signalling (R185). -/
def widenF32 (v : Nat) : Nat :=
  match unpack fpF32 v with
  | .nan .. => v / 2 ^ 31 * 2 ^ 63 + 0x7FF * 2 ^ 52 + v % 2 ^ 23 * 2 ^ 29
  | x => (fpConvert fpF64 .rne false 0 x).1

/-- The immediate operand as an element of its port's format (R185). A port of another format takes the low bits
(notes/assumptions/105.md). -/
def immElem (o : Op) (f : Fmt) : Nat :=
  let v := immBits o 31 0
  match f with
  | .f16 | .bf16 => v % 2 ^ 16
  | .f32 => v
  | .f64 => widenF32 v
  | _ => ((BitVec.ofNat 32 v).signExtend 64).toNat % 2 ^ fmtBits f

def hasImm (o : Op) (ps : List VPort) : Bool := decide (o.nports < ps.length)

/-- The shapes of the tile tokens on shaped ports. -/
def tokenShapes (f : Firing) (ps : List VPort) : List (Nat × Nat) :=
  ((f.toks.zip ps).filter fun e => isTile e.1 && e.2.shaped).map fun e =>
    let h := handleOf e.1.payload
    (h.rows, h.epr)

/-- The tiles on shaped ports have one shape (R182). -/
def sameShapes (f : Firing) (ps : List VPort) : Bool :=
  let shapes := tokenShapes f ps
  shapes.all fun x => shapes.head? == some x

/-- The checks of R182 and R87, in the order of R87's steps; fits: the operator's own rule of its tiles' shapes, which
goes with step 1. -/
def vecError (s : State) (f : Firing) (ps : List VPort) (fits : Bool) : Option (BitVec 8) :=
  let one (e : Tok × VPort) : Option (BitVec 8) :=
    if isTile e.1 then
      match checkTile s f.cluster e.1.payload (some [e.2.fmt]) with
      | some c => if c = eREPLAY_STALE ∧ e.2.takes = .scalar then some eTYPE_MISMATCH else some c
      | none => if e.2.takes = .scalar then some eTYPE_MISMATCH else none
    else if !isScalar e.1 || e.2.takes == .tile then some eTYPE_MISMATCH else none
  firstError ((if fits then none else some eBOUNDS) :: (f.toks.zip ps).map one)

/-- Read one operand; the answer says whether any of it reads as poisoned. -/
def readArg (s : State) (c : Nat) (t : Tok) (p : VPort) : State × VArg × Bool :=
  if isTile t then
    let (s, x, bad) := readTile s c t.payload
    (s, .tile x, bad || t.flag.poison)
  else (s, .scalar (t.payload.toNat % 2 ^ fmtBits p.fmt), t.flag.poison)

def readArgs (s : State) (c : Nat) : List (Tok × VPort) → State × List VArg × List Bool
  | [] => (s, [], [])
  | e :: es =>
    let (s, a, b) := readArg s c e.1 e.2
    let (s, l, bs) := readArgs s c es
    (s, a :: l, b :: bs)

/-- Check and read the operands, an immediate last; a used poisoned operand purges the strand, a forwarded one marks the
result (R182). -/
def withShaped (s : State) (f : Firing) (o : Op) (ps : List VPort) (fits : Bool) (k : State → List VArg → Bool → Act) : Act :=
  match vecError s f ps fits with
  | some e => .error e 0
  | none =>
    let (s, as, bs) := readArgs s f.cluster (f.toks.zip ps)
    if (bs.zip ps).any fun e => e.1 && !e.2.fwd then .purge
    else
      let imm := if hasImm o ps then [VArg.scalar (immElem o ((ps.getLast?.map VPort.fmt).getD .raw))] else []
      k s (as ++ imm) (bs.any id)

/-- The ordinary case: the tiles on shaped ports have one shape. -/
def withArgs (s : State) (f : Firing) (o : Op) (ps : List VPort) (k : State → List VArg → Bool → Act) : Act :=
  withShaped s f o ps (sameShapes f ps) k

/-- The handles on ports 0 and 1, if both tokens are tiles. -/
def twoHandles (f : Firing) : Option (Handle × Handle) :=
  if isTile (tokAt f 0) && isTile (tokAt f 1) then some (handleOf (tokAt f 0).payload, handleOf (tokAt f 1).payload) else none

/-! ### Results (R183, R184) -/

/-- A result over elements: bit patterns with the flags of each, by element index. -/
def orFlags (l : List Flags) : Flags := l.foldl (· ||| ·) 0

/-- The first element whose flags meet an enable bit of the region (R192). -/
def firstTrap (s : State) (f : Firing) (l : List Flags) : Nat :=
  let en := (getRegion s f.region).fpTrap
  ((List.range l.length).find? fun i => (l.getD i 0 &&& en) != 0).getD 0

def poisonFlag (p : Bool) : Flag := { Flag.none with poison := p }

/-- Emit a scalar result of format g on the destinations. -/
def scalarResult (s : State) (f : Firing) (o : Op) (g : Fmt) (r : Nat × Flags) (poison : Bool) : Act :=
  .done s (outAll s f o .scalar (poisonFlag poison) (narrow g r.1)) r.2 0

/-- Emit a tile result: BOUNDS when it breaks R183, held back when the pool cannot supply it. -/
def tileResult (s : State) (f : Firing) (o : Op) (t : Tile) (fl : List Flags) (poison : Bool) : Act :=
  if !shapeFits t.fmt t.rows t.epr then .error eBOUNDS 0
  else match putTile s f.region f.cluster f.tag t poison with
    | none => .hold
    | some (s, w) => .done s (outAll s f o .tile (poisonFlag poison) w) (orFlags fl) (firstTrap s f fl)

/-- The shape of a firing: that of its first tile, if it has one. -/
def argShape : List VArg → Option (Nat × Nat)
  | [] => none
  | .tile t :: _ => some (t.rows, t.epr)
  | .scalar _ :: l => argShape l

/-- A plain tile of format g from a function of row and column. -/
def tileFrom (g : Fmt) (rows epr : Nat) (e : Nat → Nat → Nat) : Tile :=
  { fmt := g, epr := epr, elems := (List.range rows).map fun i => (List.range epr).map (e i), scales := [] }

/-- Compute every element of a result in format g from its element index and its operands' elements. -/
def eachElem (s : State) (f : Firing) (o : Op) (g : Fmt) (as : List VArg) (poison : Bool)
    (fn : Nat → List Nat → Nat × Flags) : Act :=
  match argShape as with
  | none => scalarResult s f o g (fn 0 (as.map fun a => a.elem 0 0)) poison
  | some (rows, epr) =>
    let res := (List.range rows).map fun i => (List.range epr).map fun j => fn (i * epr + j) (as.map fun a => a.elem i j)
    tileResult s f o { fmt := g, epr := epr, elems := res.map fun r => r.map Prod.fst, scales := [] }
      (res.flatMap fun r => r.map Prod.snd) poison

/-- An element-wise operator. -/
def fireEach (s : State) (o : Op) (g : Fmt) (ps : List VPort) (fn : Firing → State → Nat → List Nat → Nat × Flags) : State :=
  fire s o fun s f => withArgs s f o ps fun s as poison => eachElem s f o g as poison (fn f s)

/-- The layout of a floating format; f32's for a format that has none, which no well-formed word names here. -/
def fpFor (f : Fmt) : FP := (fpOf f).getD fpF32

/-- An operator of group F: a function of the operands' values, with the element's random bits. -/
def fireFp (s : State) (o : Op) (n : Nat) (fn : FP → Rnd → Bool → Nat → List Val → Nat × Flags) : State :=
  let p := fpFor o.fmt
  fireEach s o o.fmt (List.replicate n (dataPort o.fmt)) fun f s k xs =>
    fn p (rndOf f o) o.sat (rstBits s f k) (xs.map (unpack p))

def valAt (l : List Val) (i : Nat) : Val := l.getD i (.fin false 0 0)

/-! ### Floating-point arithmetic (R193 to R199) -/

def execVadd (o : Op) (s : State) : Host.Outcome State Fault Refusal :=
  .next (fireFp s o 2 fun p m sat r l => fpAdd p m sat r (valAt l 0) (valAt l 1))
def execVsub (o : Op) (s : State) : Host.Outcome State Fault Refusal :=
  .next (fireFp s o 2 fun p m sat r l => fpSub p m sat r (valAt l 0) (valAt l 1))
def execVmul (o : Op) (s : State) : Host.Outcome State Fault Refusal :=
  .next (fireFp s o 2 fun p m sat r l => fpMul p m sat r (valAt l 0) (valAt l 1))
def execVdiv (o : Op) (s : State) : Host.Outcome State Fault Refusal :=
  .next (fireFp s o 2 fun p m sat r l => fpDiv p m sat r (valAt l 0) (valAt l 1))
def execVfma (o : Op) (s : State) : Host.Outcome State Fault Refusal :=
  .next (fireFp s o 3 fun p m sat r l => fpFma p m sat r (valAt l 0) (valAt l 1) (valAt l 2))
/-- a b - c: c negated, but a NaN c keeps its own sign. -/
def execVfms (o : Op) (s : State) : Host.Outcome State Fault Refusal :=
  .next (fireFp s o 3 fun p m sat r l =>
    let c := valAt l 2
    fpFma p m sat r (valAt l 0) (valAt l 1) (if c.isNan then c else c.neg))
def execVsqrt (o : Op) (s : State) : Host.Outcome State Fault Refusal :=
  .next (fireFp s o 1 fun p m sat r l => fpSqrt p m sat r (valAt l 0))
def execVrsqrt (o : Op) (s : State) : Host.Outcome State Fault Refusal :=
  .next (fireFp s o 1 fun p m sat r l => fpRsqrt p m sat r (valAt l 0))

/-- VMIN, VMAX, VMINN and VMAXN, on bit patterns. -/
def fireMinMax (s : State) (o : Op) (fn : FP → Nat → Nat → Nat × Flags) : State :=
  fireEach s o o.fmt [dataPort o.fmt, dataPort o.fmt] fun _ _ _ xs => fn (fpFor o.fmt) (xs.getD 0 0) (xs.getD 1 0)

def execVmin (o : Op) (s : State) : Host.Outcome State Fault Refusal :=
  .next (fireMinMax s o fun p x y => fpMinMax p false x y)
def execVmax (o : Op) (s : State) : Host.Outcome State Fault Refusal :=
  .next (fireMinMax s o fun p x y => fpMinMax p true x y)
def execVminn (o : Op) (s : State) : Host.Outcome State Fault Refusal :=
  .next (fireMinMax s o fun p x y => fpMinMaxNum p false x y)
def execVmaxn (o : Op) (s : State) : Host.Outcome State Fault Refusal :=
  .next (fireMinMax s o fun p x y => fpMinMaxNum p true x y)

/-- The sign bit of a format. -/
def signMask (f : Fmt) : Nat := 2 ^ (fmtBits f - 1)

def execVabs (o : Op) (s : State) : Host.Outcome State Fault Refusal :=
  .next (fireEach s o o.fmt [movePort o.fmt] fun _ _ _ xs => (xs.getD 0 0 % signMask o.fmt, 0))
def execVneg (o : Op) (s : State) : Host.Outcome State Fault Refusal :=
  .next (fireEach s o o.fmt [movePort o.fmt] fun _ _ _ xs => (xs.getD 0 0 ^^^ signMask o.fmt, 0))
def execVcpys (o : Op) (s : State) : Host.Outcome State Fault Refusal :=
  .next (fireEach s o o.fmt [movePort o.fmt, movePort o.fmt] fun _ _ _ xs =>
    (xs.getD 0 0 % signMask o.fmt + xs.getD 1 0 / signMask o.fmt % 2 * signMask o.fmt, 0))

def execVscale (o : Op) (s : State) : Host.Outcome State Fault Refusal :=
  let p := fpFor o.fmt
  .next (fireEach s o o.fmt [dataPort o.fmt, dataPort .i32] fun f s k xs =>
    fpScale p (rndOf f o) o.sat (rstBits s f k) (unpack p (xs.getD 0 0)) (intOf .i32 (xs.getD 1 0)))

def execVrnd (o : Op) (s : State) : Host.Outcome State Fault Refusal :=
  let p := fpFor o.fmt
  .next (fireEach s o o.fmt [dataPort o.fmt] fun f s k xs =>
    let r := fpIntegral p (rndOf f o) (rstBits s f k) (unpack p (xs.getD 0 0))
    (r.1, if r.2.1 && immBit o 0 then r.2.2 ||| fNX else r.2.2))

def execVclass (o : Op) (s : State) : Host.Outcome State Fault Refusal :=
  .next (fireEach s o .n16 [dataPort o.fmt] fun _ _ _ xs => (fpClass (fpFor o.fmt) (xs.getD 0 0), 0))

def execVcmp (o : Op) (s : State) : Host.Outcome State Fault Refusal :=
  let p := fpFor o.fmt
  .next (fireEach s o .b1 [dataPort o.fmt, dataPort o.fmt] fun _ _ _ xs =>
    let r := fpCompare (immBits o 35 32) (unpack p (xs.getD 0 0)) (unpack p (xs.getD 1 0))
    (if r.1 then 1 else 0, r.2))

/-! ### Conversion (R200, R201) -/

/-- One element of format f in format g (R200). -/
def convertElem (f g : Fmt) (m : Rnd) (sat : Bool) (rnd x : Nat) : Nat × Flags :=
  match fpOf f, fpOf g with
  | some p, some q => fpConvert q m sat rnd (unpack p x)
  | some p, none => fpToInt g m sat rnd (unpack p x)
  | none, some q => intToFp q m sat rnd (intOf f x)
  | none, none => fitInt g sat (intOf f x)

def ofmtOf (o : Op) : Fmt := (immFmt o 4 0).getD o.fmt

def execVcvt (o : Op) (s : State) : Host.Outcome State Fault Refusal :=
  .next (fireEach s o (ofmtOf o) [dataPort o.fmt] fun f s k xs =>
    convertElem o.fmt (ofmtOf o) (rndOf f o) o.sat (rstBits s f k) (xs.getD 0 0))

/-- A finite value less another, exactly. -/
def minus (a b : Val) : Val :=
  match a, b with
  | .fin s1 m1 e1, .fin s2 m2 e2 =>
    let r := exactAdd .rne s1 m1 e1 (!s2) m2 e2
    .fin r.1 r.2.1 r.2.2
  | a, _ => a

/-- hi, mid and lo of one f32 element; the flags are those of the last part (R201). -/
def splitElem (x : Nat) (three : Bool) : List Nat × Flags :=
  let a := unpack fpF32 x
  match a with
  | .fin .. =>
    let part (v : Val) : Nat × Flags := fpConvert fpBf16 .rtz false 0 v
    let hi := part a
    let r1 := minus a (unpack fpBf16 hi.1)
    let mid := part r1
    let lo := part (minus r1 (unpack fpBf16 mid.1))
    if three then ([hi.1, mid.1, lo.1], lo.2) else ([hi.1, mid.1], mid.2)
  | _ =>
    let hi := fpConvert fpBf16 .rtz false 0 a
    ([hi.1, 0, 0], hi.2)

/-- Tiles put one after another, each sent to one place. -/
def putTiles (s : State) (f : Firing) (poison : Bool) : List (Tile × List (Nat × Dst)) → Option (State × List Out)
  | [] => some (s, [])
  | (t, ds) :: l =>
    match putTile s f.region f.cluster f.tag t poison with
    | none => none
    | some (s, w) =>
      match putTiles s f poison l with
      | none => none
      | some (s, outs) => some (s, outTo ds .tile (poisonFlag poison) w ++ outs)

/-- The destinations at one place of R75. -/
def atPlace (s : State) (f : Firing) (o : Op) (i : Nat) : List (Nat × Dst) :=
  (destinations s f o).filter fun d => d.1 == i

def execVsplit (o : Op) (s : State) : Host.Outcome State Fault Refusal :=
  .next (fire s o fun s f => withArgs s f o [{ dataPort .f32 with takes := .tile }] fun s as poison =>
    match as with
    | [.tile t] =>
      let three := immBits o 1 0 == 3
      let res := t.elems.map fun r => r.map fun x => splitElem x three
      let part (i : Nat) : Tile :=
        { fmt := .bf16, epr := t.epr, elems := res.map fun r => r.map fun x => x.1.getD i 0, scales := [] }
      let outs := (List.range (if three then 3 else 2)).map fun i => (part i, atPlace s f o i)
      let fl := res.flatMap fun r => r.map Prod.snd
      match putTiles s f poison outs with
      | none => .hold
      | some (s, outs) => .done s outs (orFlags fl) (firstTrap s f fl)
    | _ => .error eTYPE_MISMATCH 0)

/-! ### Transcendentals (R202, R203) -/

def fireTransc (s : State) (o : Op) (t : Transc) : State :=
  fireFp s o 1 fun p m sat r l => fpTransc t p m sat r (valAt l 0)

def execVexp (o : Op) (s : State) : Host.Outcome State Fault Refusal := .next (fireTransc s o .exp)
def execVexpm1 (o : Op) (s : State) : Host.Outcome State Fault Refusal := .next (fireTransc s o .expm1)
def execVlog (o : Op) (s : State) : Host.Outcome State Fault Refusal := .next (fireTransc s o .log)
def execVlog1p (o : Op) (s : State) : Host.Outcome State Fault Refusal := .next (fireTransc s o .log1p)
def execVerf (o : Op) (s : State) : Host.Outcome State Fault Refusal := .next (fireTransc s o .erf)
def execVerfc (o : Op) (s : State) : Host.Outcome State Fault Refusal := .next (fireTransc s o .erfc)
def execVexp2 (o : Op) (s : State) : Host.Outcome State Fault Refusal := .next (fireTransc s o .exp2)
def execVlog2 (o : Op) (s : State) : Host.Outcome State Fault Refusal := .next (fireTransc s o .log2)

/-! ### Integer and bitwise operators (R204, R205) -/

/-- An integer operator whose exact result is adjusted once. -/
def fireInt (s : State) (o : Op) (n : Nat) (g : Int → Int → Int → Int) : State :=
  fireEach s o o.fmt (List.replicate n (dataPort o.fmt)) fun _ _ _ xs =>
    fitInt o.fmt o.sat (g (intOf o.fmt (xs.getD 0 0)) (intOf o.fmt (xs.getD 1 0)) (intOf o.fmt (xs.getD 2 0)))

def execViadd (o : Op) (s : State) : Host.Outcome State Fault Refusal := .next (fireInt s o 2 fun a b _ => a + b)
def execVisub (o : Op) (s : State) : Host.Outcome State Fault Refusal := .next (fireInt s o 2 fun a b _ => a - b)
def execVimul (o : Op) (s : State) : Host.Outcome State Fault Refusal := .next (fireInt s o 2 fun a b _ => a * b)
def execVimad (o : Op) (s : State) : Host.Outcome State Fault Refusal := .next (fireInt s o 3 fun a b c => a * b + c)
def execVimulh (o : Op) (s : State) : Host.Outcome State Fault Refusal :=
  .next (fireInt s o 2 fun a b _ => a * b / 2 ^ fmtBits o.fmt)
def execVimin (o : Op) (s : State) : Host.Outcome State Fault Refusal := .next (fireInt s o 2 fun a b _ => min a b)
def execVimax (o : Op) (s : State) : Host.Outcome State Fault Refusal := .next (fireInt s o 2 fun a b _ => max a b)

/-- EQ NE LT LE GT GE (R204). -/
def vintPredicate (fn : Nat) (a b : Int) : Bool :=
  match fn with
  | 0 => a == b | 1 => a != b | 2 => decide (a < b) | 3 => decide (a ≤ b) | 4 => decide (b < a) | _ => decide (b ≤ a)

def execVicmp (o : Op) (s : State) : Host.Outcome State Fault Refusal :=
  .next (fireEach s o .b1 [dataPort o.fmt, dataPort o.fmt] fun _ _ _ xs =>
    (if vintPredicate (immBits o 35 32) (intOf o.fmt (xs.getD 0 0)) (intOf o.fmt (xs.getD 1 0)) then 1 else 0, 0))

/-- A bitwise operator on the patterns. -/
def fireBits (s : State) (o : Op) (n : Nat) (g : Nat → Nat → Nat) : State :=
  fireEach s o o.fmt (List.replicate n (dataPort o.fmt)) fun _ _ _ xs =>
    (g (xs.getD 0 0) (xs.getD 1 0) % 2 ^ fmtBits o.fmt, 0)

def execVand (o : Op) (s : State) : Host.Outcome State Fault Refusal := .next (fireBits s o 2 (· &&& ·))
def execVor (o : Op) (s : State) : Host.Outcome State Fault Refusal := .next (fireBits s o 2 (· ||| ·))
def execVxor (o : Op) (s : State) : Host.Outcome State Fault Refusal := .next (fireBits s o 2 (· ^^^ ·))
def execVshl (o : Op) (s : State) : Host.Outcome State Fault Refusal :=
  .next (fireBits s o 2 fun a b => a * 2 ^ (b % fmtBits o.fmt))
def execVshr (o : Op) (s : State) : Host.Outcome State Fault Refusal :=
  .next (fireBits s o 2 fun a b => a / 2 ^ (b % fmtBits o.fmt))
/-- Copies of the top bit, whatever the signedness of FMT. -/
def sarBits (w a n : Nat) : Nat := a / 2 ^ n + (if a / 2 ^ (w - 1) % 2 = 1 then 2 ^ w - 2 ^ (w - n) else 0)
def execVsar (o : Op) (s : State) : Host.Outcome State Fault Refusal :=
  .next (fireBits s o 2 fun a b => sarBits (fmtBits o.fmt) a (b % fmtBits o.fmt))
def execVpopc (o : Op) (s : State) : Host.Outcome State Fault Refusal := .next (fireBits s o 1 fun a _ => popcount a)
def execVclz (o : Op) (s : State) : Host.Outcome State Fault Refusal :=
  .next (fireBits s o 1 fun a _ => fmtBits o.fmt - bitLen a)

/-! ### Reductions and scans (R211 to R213) -/

/-- One level of the pairwise tree. -/
def pairLevel {α : Type} (op : α → α → α) : List α → List α
  | a :: b :: l => op a b :: pairLevel op l
  | l => l

def pairLevels {α : Type} (op : α → α → α) : Nat → List α → List α
  | 0, l => l
  | n + 1, l => match l with
    | [] => []
    | [a] => [a]
    | l => pairLevels op n (pairLevel op l)

/-- The pairwise tree of R211. -/
def pairTree {α : Type} (op : α → α → α) (z : α) (l : List α) : α := (pairLevels op l.length l).headD z

/-- One rounded step of a reduction, with the flags so far. -/
def reduceStep (p : FP) (fn : Nat) (m : Rnd) (sat : Bool) (rnd : Nat) (a b : Nat × Flags) : Nat × Flags :=
  let r := match fn with
    | 0 => fpAdd p m sat rnd (unpack p a.1) (unpack p b.1)
    | 1 => fpMul p m sat rnd (unpack p a.1) (unpack p b.1)
    | 2 => fpMinMax p false a.1 b.1
    | 3 => fpMinMax p true a.1 b.1
    | 4 => fpMinMaxNum p false a.1 b.1
    | _ => fpMinMaxNum p true a.1 b.1
  (r.1, a.2 ||| b.2 ||| r.2)

/-- The identity of an operation in OFMT (R213). -/
def reduceIdentity (g : Fmt) (fn : Nat) : Nat :=
  match fpOf g with
  | some p => match fn with
    | 0 => 0
    | 1 => packFinite p false (2 ^ p.mbits) (-(p.mbits : Int))
    | 2 | 4 => packInf p false
    | _ => packInf p true
  | none => match fn with
    | 1 => 1
    | 2 => intBits (fmtBits g) (intMax g)
    | 3 => intBits (fmtBits g) (intMin g)
    | 6 => 2 ^ fmtBits g - 1
    | _ => 0

/-- Integers combined exactly, adjusted once; a b1 element counts as 0 or 1. -/
def reduceInts (f g : Fmt) (fn : Nat) (sat : Bool) (xs : List Nat) : Nat × Flags :=
  let v : List Int := xs.map fun x => if f = .b1 then Int.ofNat x else intOf f x
  match fn with
  | 0 => fitInt g sat (v.foldl (· + ·) 0)
  | 1 => fitInt g sat (v.foldl (· * ·) 1)
  | 2 => (intBits (fmtBits g) (v.foldl min (v.headD 0)), 0)
  | 3 => (intBits (fmtBits g) (v.foldl max (v.headD 0)), 0)
  | _ =>
    let ps := v.map (intBits (fmtBits g))
    (match fn with
     | 6 => ps.foldl (· &&& ·) (2 ^ fmtBits g - 1)
     | 7 => ps.foldl (· ||| ·) 0
     | _ => ps.foldl (· ^^^ ·) 0, 0)

/-- The tree of some elements of format f in format g. -/
def reduceOver (s : State) (f : Firing) (o : Op) (fn : Nat) (elem : Nat) (xs : List Nat) : Nat × Flags :=
  let g := ofmtOf o
  match fpOf o.fmt, fpOf g with
  | some p, some q =>
    pairTree (reduceStep q fn (rndOf f o) o.sat (rstBits s f elem)) (0, 0)
      (xs.map fun x => fpConvert q .rne false 0 (unpack p x))
  | _, _ => reduceInts o.fmt g fn o.sat xs

def tileOnly (f : Fmt) : VPort := { fmt := f, takes := .tile, fwd := false, shaped := true }

def execVreduce (o : Op) (s : State) : Host.Outcome State Fault Refusal :=
  .next (fire s o fun s f => withArgs s f o [tileOnly o.fmt] fun s as _ =>
    match as with
    | [.tile t] =>
      let fn := immBits o 35 32
      let g := ofmtOf o
      let rows := (t.elems.zip (List.range t.rows)).map fun e => reduceOver s f o fn e.2 e.1
      if immBit o 5 then
        match fpOf g with
        | some q => scalarResult s f o g (pairTree (reduceStep q fn (rndOf f o) o.sat (rstBits s f 0)) (0, 0) rows) false
        | none => scalarResult s f o g (reduceOver s f o fn 0 t.elems.flatten) false
      else tileResult s f o { fmt := g, epr := 1, elems := rows.map fun r => [r.1], scales := [] } (rows.map Prod.snd) false
    | _ => .error eTYPE_MISMATCH 0)

def execVscan (o : Op) (s : State) : Host.Outcome State Fault Refusal :=
  .next (fire s o fun s f => withArgs s f o [tileOnly o.fmt] fun s as _ =>
    match as with
    | [.tile t] =>
      let fn := immBits o 35 32
      let g := ofmtOf o
      let res := (t.elems.zip (List.range t.rows)).map fun e => (List.range t.epr).map fun j =>
        let n := if immBit o 6 then j else j + 1
        if n = 0 then (reduceIdentity g fn, (0 : Flags)) else reduceOver s f o fn (e.2 * t.epr + j) (e.1.take n)
      tileResult s f o { fmt := g, epr := t.epr, elems := res.map fun r => r.map Prod.fst, scales := [] }
        (res.flatMap fun r => r.map Prod.snd) false
    | _ => .error eTYPE_MISMATCH 0)

/-! ### Random numbers (R217) -/

def permRounds (h : Nat) (key : Word) : Nat → Nat → Nat × Nat → Nat × Nat
  | 0, _, x => x
  | n + 1, j, (hi, lo) =>
    permRounds h key n (j + 1) (lo, hi ^^^ ((gen key (BitVec.ofNat 64 (j * 2 ^ 32 ||| lo))).toNat / 2 ^ (64 - h)))

/-- Perm(n, key, c) of R217. -/
def permOf (n : Nat) (key : Word) (c : Nat) : Nat :=
  let h := n / 2
  let r := permRounds h key 4 0 (c / 2 ^ h, c % 2 ^ h)
  r.1 * 2 ^ h + r.2

/-- One element of VRNG. -/
def rngElem (o : Op) (key : Word) (c : Word) : Nat :=
  let x := (gen key c).toNat
  let p := fpFor o.fmt
  let w : Nat := if o.fmt = .f64 then 53 else 24
  match immBits o 36 35 with
  | 0 => x % 2 ^ fmtBits o.fmt
  | 1 => (roundPack p .rne false 0 false (x / 2 ^ (64 - w)) (-(w : Int)) false).1
  | 2 => (roundPack p .rne false 0 false (2 * (x / 2 ^ (65 - w)) + 1) (-(w : Int)) false).1
  | _ => permOf (immBits o 34 29) key (c.toNat % 2 ^ immBits o 34 29)

def scalarOnly (f : Fmt) : VPort := { fmt := f, takes := .scalar, fwd := false, shaped := false }

/-- The key and the counter base are scalars; a tile on either port is a TYPE_MISMATCH, as for the other generators. -/
def execVrng (o : Op) (s : State) : Host.Outcome State Fault Refusal :=
  .next (fire s o fun s f => withArgs s f o [scalarOnly .n64, scalarOnly .n64] fun s as _ =>
    let key := BitVec.ofNat 64 ((as.getD 0 (.scalar 0)).elem 0 0)
    let base := (as.getD 1 (.scalar 0)).elem 0 0
    let (rows, epr) := immShape o
    tileResult s f o (tileFrom o.fmt rows epr fun i j => rngElem o key (BitVec.ofNat 64 (base + (i * epr + j)))) [] false)

/-! ### Microscaling (R218, R219) -/

/-- The exponent of a magnitude. -/
def floorLog2 (m : Nat) (e : Int) : Int := (bitLen m : Int) - 1 + e

/-- Quantise one block: its scale, its elements and the flags of each. An element beyond the largest is clipped as FLG.SAT
clips it (03 R91, R94; notes/assumptions/104.md). -/
def quantBlock (p q : FP) (emax : Int) (m : Rnd) (sat : Bool) (rnd : Nat → Nat) (xs : List Nat) :
    Nat × List (Nat × Flags) :=
  let vs : List Val := xs.map (unpack p)
  let isInf (v : Val) : Bool := match v with | .inf _ => true | _ => false
  if vs.any Val.isNan || (!sat && vs.any isInf) then
    (0xFF, vs.map fun v => (0, if v.isNan || (!sat && isInf v) then fNV else 0))
  else
    let vs := vs.map fun v => match v with
      | .inf s => unpack p (packMax p s)
      | v => v
    let e := vs.foldl (fun acc v => match v with
      | .fin _ n g => if n = 0 then acc else match acc with
        | none => some (floorLog2 n g)
        | some x => some (max x (floorLog2 n g))
      | _ => acc) (none : Option Int)
    let e := match e with | none => -127 | some x => max (-127) (min 127 (x - emax))
    ((e + 127).toNat, (vs.zip (List.range vs.length)).map fun v => match v.1 with
      | .fin s n g => roundPack q m true (rnd v.2) s n (g - e) false
      | _ => (0, 0))

def execVquant (o : Op) (s : State) : Host.Outcome State Fault Refusal :=
  .next (fire s o fun s f => withArgs s f o [tileOnly o.fmt] fun s as _ =>
    match as with
    | [.tile t] =>
      let g := ofmtOf o
      let emax : Int := if g = .mx8 then 8 else 2
      if t.epr % 32 ≠ 0 then .error eBOUNDS 0
      else
        let res := (t.elems.zip (List.range t.rows)).map fun e =>
          (List.range (t.epr / 32)).map fun b =>
            quantBlock (fpFor o.fmt) (fpFor g) emax (rndOf f o) o.sat (fun j => rstBits s f (e.2 * t.epr + 32 * b + j))
              ((e.1.drop (32 * b)).take 32)
        tileResult s f o
          { fmt := g, epr := t.epr, elems := res.map fun r => r.flatMap fun b => b.2.map Prod.fst,
            scales := res.map fun r => r.map Prod.fst }
          (res.flatMap fun r => r.flatMap fun b => b.2.map Prod.snd) false
    | _ => .error eTYPE_MISMATCH 0)

/-- The value of an mx element with its scale (R219). -/
def mxValue (f : Fmt) (x scale : Nat) : Val :=
  if scale = 0xFF then .nan false (2 ^ 51) false
  else match unpack (fpFor f) x with
    | .fin s m e => .fin s m (e + scale - 127)
    | .nan .. => .nan false (2 ^ 51) false
    | v => v

def execVdeq (o : Op) (s : State) : Host.Outcome State Fault Refusal :=
  .next (fire s o fun s f => withArgs s f o [tileOnly o.fmt] fun s as _ =>
    match as with
    | [.tile t] =>
      let g := ofmtOf o
      let q := fpFor g
      let res := (List.range t.rows).map fun i => (List.range t.epr).map fun j =>
        match mxValue o.fmt (t.at_ i j) (t.scaleAt i (j / 32)) with
        | .fin sg m e => roundPack q (rndOf f o) o.sat (rstBits s f (i * t.epr + j)) sg m e false
        | _ => (defaultNan q, 0)
      tileResult s f o { fmt := g, epr := t.epr, elems := res.map fun r => r.map Prod.fst, scales := [] }
        (res.flatMap fun r => r.map Prod.snd) false
    | _ => .error eTYPE_MISMATCH 0)

end Sys2Proof.Machine
end

