-- ==== Sys2Proof/Machine/VectorMove.lean ====
section
/-! DEFINITION. The movement operators of the Vector Engine (06 R206 to R210) and its compression (06 R214, R215). -/

namespace Sys2Proof.Machine

/-- The port-0 scalar of VBCAST and VIOTA; a tile there is a TYPE_MISMATCH (R206). -/
def execVbcast (o : Op) (s : State) : Host.Outcome State Fault Refusal :=
  .next (fire s o fun s f => withArgs s f o [{ scalarOnly o.fmt with fwd := true }] fun s as poison =>
    let (rows, epr) := immShape o
    tileResult s f o (tileFrom o.fmt rows epr fun _ _ => (as.getD 0 (.scalar 0)).elem 0 0) [] poison)

def execViota (o : Op) (s : State) : Host.Outcome State Fault Refusal :=
  .next (fire s o fun s f => withArgs s f o [scalarOnly o.fmt] fun s as _ =>
    let (rows, epr) := immShape o
    let start : Int := (as.getD 0 (.scalar 0)).elem 0 0
    let step := (BitVec.ofNat 18 (immBits o 36 19)).toInt
    tileResult s f o (tileFrom o.fmt rows epr fun i j => intBits (fmtBits o.fmt) (start + (i * epr + j : Nat) * step)) []
      false)

def execVsel (o : Op) (s : State) : Host.Outcome State Fault Refusal :=
  .next (fireEach s o o.fmt [dataPort .b1, movePort o.fmt, movePort o.fmt] fun _ _ _ xs =>
    (if xs.getD 0 0 % 2 = 1 then xs.getD 1 0 else xs.getD 2 0, 0))

/-- VPERM: the index tile has A's ROWS; a scalar index stands for a tile of A's shape (R208). -/
def execVperm (o : Op) (s : State) : Host.Outcome State Fault Refusal :=
  .next (fire s o fun s f =>
    let rowsOk := match twoHandles f with | some (a, ix) => ix.rows == a.rows | none => true
    withShaped s f o [{ tileOnly o.fmt with fwd := true }, dataPort .n16] rowsOk fun s as poison =>
    match as with
    | [.tile a, ix] =>
      let n := match ix with | .tile t => t.epr | .scalar _ => a.epr
      if !shapeFits o.fmt a.rows n then .error eBOUNDS 0
      else
        let bad := (List.range (a.rows * n)).find? fun k => decide (a.epr ≤ ix.elem (k / n) (k % n))
        match bad, immBit o 0 with
        | some k, false => .error eBOUNDS k
        | _, _ =>
          tileResult s f o (tileFrom o.fmt a.rows n fun i j =>
            let x := ix.elem i j
            if x < a.epr then a.at_ i x else 0) [] poison
    | _ => .error eTYPE_MISMATCH 0)

def execVtrans (o : Op) (s : State) : Host.Outcome State Fault Refusal :=
  .next (fire s o fun s f => withArgs s f o [{ tileOnly o.fmt with fwd := true }] fun s as poison =>
    match as with
    | [.tile a] =>
      if 128 < a.epr then .error eBOUNDS 0
      else tileResult s f o (tileFrom o.fmt a.epr a.rows fun i j => a.at_ j i) [] poison
    | _ => .error eTYPE_MISMATCH 0)

def execVextr (o : Op) (s : State) : Host.Outcome State Fault Refusal :=
  .next (fire s o fun s f => withArgs s f o [{ tileOnly o.fmt with fwd := true }, scalarOnly .n32] fun s as poison =>
    match as with
    | [.tile a, ix] =>
      let k := ix.elem 0 0
      if a.rows * a.epr ≤ k then .error eBOUNDS k
      else scalarResult s f o o.fmt (a.at_ (k / a.epr) (k % a.epr), 0) poison
    | _ => .error eTYPE_MISMATCH 0)

def execVins (o : Op) (s : State) : Host.Outcome State Fault Refusal :=
  .next (fire s o fun s f =>
    withArgs s f o [{ tileOnly o.fmt with fwd := true }, scalarOnly .n32, { scalarOnly o.fmt with fwd := true }]
      fun s as poison =>
    match as with
    | [.tile a, ix, v] =>
      let k := ix.elem 0 0
      if a.rows * a.epr ≤ k then .error eBOUNDS k
      else tileResult s f o (tileFrom o.fmt a.rows a.epr fun i j => if i * a.epr + j = k then v.elem 0 0 else a.at_ i j) []
        poison
    | _ => .error eTYPE_MISMATCH 0)

/-- VSLICE: the first row in bits 6..0 and the first column in bits 27..16 of port 1 (R210). -/
def execVslice (o : Op) (s : State) : Host.Outcome State Fault Refusal :=
  .next (fire s o fun s f => withArgs s f o [{ tileOnly o.fmt with fwd := true }, scalarOnly .n64] fun s as poison =>
    match as with
    | [.tile a, w] =>
      let x := w.elem 0 0
      let r0 := x % 128
      let c0 := x / 2 ^ 16 % 4096
      let (rows, epr) := immShape o
      if x ≠ c0 * 2 ^ 16 + r0 ∨ a.rows < r0 + rows ∨ a.epr < c0 + epr then .error eBOUNDS 0
      else tileResult s f o (tileFrom o.fmt rows epr fun i j => a.at_ (r0 + i) (c0 + j)) [] poison
    | _ => .error eTYPE_MISMATCH 0)

/-! ### Compression (R214, R215) -/

def comprG (o : Op) : Nat := 2 ^ immBits o 2 0
def comprK (o : Op) : Nat := immBits o 8 3
def comprPack (o : Op) : Bool := immBit o 9

/-- A shape that VCOMPR takes. -/
def comprShape (g : Nat) (pack : Bool) (epr : Nat) : Bool := epr % g == 0 && (!pack || epr % 8 == 0)

def execVcompr (o : Op) (s : State) : Host.Outcome State Fault Refusal :=
  .next (fire s o fun s f => withArgs s f o [tileOnly o.fmt] fun s as _ =>
    match as with
    | [.tile a] =>
      if !comprShape (comprG o) (comprPack o) a.epr then .error eBOUNDS 0
      else
        let r := compressTile (comprG o) (comprK o) (comprPack o) a
        match putTiles s f false [(r.1, atPlace s f o 0), (r.2, atPlace s f o 1)] with
        | none => .hold
        | some (s, outs) => .done s outs 0 0
    | _ => .error eTYPE_MISMATCH 0)

def execVexpnd (o : Op) (s : State) : Host.Outcome State Fault Refusal :=
  .next (fire s o fun s f =>
    let g := comprG o
    let k := comprK o
    let paired := match twoHandles f with
      | some (v, d) => compactShapes k (comprPack o) (v.rows, v.epr) (d.rows, d.epr)
      | none => true
    withShaped s f o [{ tileOnly o.fmt with fwd := true }, tileOnly .n8] paired fun s as poison =>
    match as with
    | [.tile v, .tile d] =>
      if !shapeFits o.fmt v.rows (v.epr * g / k) then .error eBOUNDS 0
      else match badMeta g k (comprPack o) v.epr d.elems with
        | some e => .error eBOUNDS e
        | none => tileResult s f o (expandTile g k (comprPack o) v d) [] poison
    | _ => .error eTYPE_MISMATCH 0)

end Sys2Proof.Machine
end

