-- ==== Sys2Proof/Machine/Port.lean ====
section
/-! DEFINITION. The Memory Port Engine (09 R287 to R318): the issue of class-4 firings, acceptance, generators, elements,
modes and waves, and MRESUME. -/

namespace Sys2Proof.Machine

/-! ### Issue of a firing (R288, R305) -/

/-- The port that IMM.DIE and IMM.PORT name, 16 × die + port, where it is a port of this package. -/
def namedPort (s : State) (f : Firing) (o : Op) : Option Nat :=
  ((getRegion s f.region).dies.getD (immBits o 33 31) none).map fun d => 16 * d + immBits o 30 27

/-- The fields of a firing's word, as its issue decoded them. -/
def opWord (w : Word128) : Op :=
  { fmt := (Fmt.ofCode (bits w 116 112)).getD .raw, rnd := (Rnd.ofCode (bits w 111 109)).getD .rne,
    ports := w.extractLsb' 107 2, xfm := (Xfm.ofCode (bits w 106 104)).getD .keep, sat := w.getLsbD 103,
    fe := w.getLsbD 102, ord := w.getLsbD 101, imm := w.extractLsb' 64 37, dst1 := Dst.ofWord (w.extractLsb' 32 32),
    dst0 := Dst.ofWord (w.extractLsb' 0 32) }

def jobOp (j : Job) : Op := opWord j.firing.word
def jobOpc (j : Job) : Nat := bits j.firing.word 124 117

/-- What the checks of a class-4 firing answer. -/
inductive Issue where
  | error (code : BitVec 8) (elem : Nat)
  | purge
  | go (s : State) (es : List Elem)

/-- Issue a class-4 firing: after its checks it travels to its port as a request. A port of a member package lies outside
this one. -/
def firePort (s : State) (o : Op) (body : State → Firing → Issue) : State :=
  fireTagged s o o.xfm (fun f => destinations s f o) fun s f tg =>
    match body s f with
    | .error c e => .error c e
    | .purge => .purge
    | .go s es =>
      let (g, t) := firingUnder f tg
      let j : Job := { no := 0, firing := g, tag := t, started := false, elems := es, got := [], fail := none,
                       count := 0, bytes := 0, held := none, handshake := false, ranges := none }
      .later (match namedPort s f o with
        | some p => modPort s p fun q => { q with incoming := q.incoming ++ [j] }
        | none => if Tab.get 0 (getRegion s f.region).span (immBits o 33 31) = 0
            then answerError s g t (srcPort 0) (destinations s g o) eADDR_RANGE 0
            else send s (.firing g t))

/-- A scalar port of R305. -/
def scalarPort (f : Firing) (i : Nat) : Option (BitVec 8) := scalarError' (tokAt f i)
where
  scalarError' (t : Tok) : Option (BitVec 8) := if isScalar t then none else some eTYPE_MISMATCH

/-- A tile port of format g. -/
def tilePort (s : State) (f : Firing) (i : Nat) (g : Fmt) : Option (BitVec 8) :=
  if isTile (tokAt f i) then checkTile s f.cluster (tokAt f i).payload (some [g]) else some eTYPE_MISMATCH

def portValue (f : Firing) (i : Nat) : Nat := (tokAt f i).payload.toNat
def portSigned (f : Firing) (i : Nat) : Int := (tokAt f i).payload.toInt
def portPoison (f : Firing) (is : List Nat) : Bool := is.any fun i => (tokAt f i).flag.poison

def elemSize (f : Fmt) : Nat := match f with | .raw => 8 | _ => fmtBits f / 8

/-- One element that reads. -/
def readElem (ix : Nat) (a : Int) (size : Nat) : Elem := { ix := ix, addr := a, size := size, write := none, poison := false }

/-- One element that writes. -/
def writeElem (ix : Nat) (a : Int) (bs : List Byte) (poison : Bool) : Elem :=
  { ix := ix, addr := a, size := bs.length, write := some bs, poison := poison }

def issueError (e : BitVec 8) : Issue := .error e 0

def execLd (o : Op) (s : State) : Host.Outcome State Fault Refusal :=
  .next (firePort s o fun s f =>
    let tile := immBit o 25
    let (rows, epr) := immShapeHi o
    match firstError ([scalarPort f 0] ++ if tile then [scalarPort f 1] else []) with
    | some e => issueError e
    | none =>
      if portPoison f (if tile then [0, 1] else [0]) then .purge
      else if tile then
        .go s ((List.range rows).map fun i =>
          readElem i (portValue f 0 + (i : Int) * portSigned f 1) (rowBytes o.fmt epr))
      else .go s [readElem 0 (portValue f 0) (elemSize o.fmt)])

def execSt (o : Op) (s : State) : Host.Outcome State Fault Refusal :=
  .next (firePort s o fun s f =>
    let tile := immBit o 25
    match firstError ([scalarPort f 0] ++ if tile then [tilePort s f 1 o.fmt, scalarPort f 2] else [scalarPort f 1]) with
    | some e => issueError e
    | none =>
      if portPoison f (if tile then [0, 2] else [0]) then .purge
      else if tile then
        let (s, t, bad) := readTile s f.cluster (tokAt f 1).payload
        .go s ((List.range t.rows).map fun i =>
          writeElem i (portValue f 0 + (i : Int) * portSigned f 2) (t.rowBytes i) (bad || portPoison f [1]))
      else .go s [writeElem 0 (portValue f 0) (leBytes (elemSize o.fmt) (portValue f 1)) (portPoison f [1])])

/-- The index format of LDI and STI. -/
def indexFmt (o : Op) : Fmt := if immBit o 25 then .i64 else .i32

/-- Element j of an indexed firing: base + Idx[j] × 2^SHIFT. -/
def indexedAddr (o : Op) (f : Firing) (x : Nat) : Int := portValue f 0 + intOf (indexFmt o) x * 2 ^ immBits o 2 0

def execLdi (o : Op) (s : State) : Host.Outcome State Fault Refusal :=
  .next (firePort s o fun s f =>
    match firstError [scalarPort f 0, tilePort s f 1 (indexFmt o)] with
    | some e => issueError e
    | none =>
      let h := handleOf (tokAt f 1).payload
      if !shapeFits o.fmt h.rows h.epr then issueError eBOUNDS
      else if portPoison f [0, 1] then .purge
      else
        let (s, t, bad) := readTile s f.cluster (tokAt f 1).payload
        if bad then .purge
        else .go s ((t.elems.flatten.zip (List.range (t.rows * t.epr))).map fun e =>
          readElem e.2 (indexedAddr o f e.1) (elemSize o.fmt)))

def execSti (o : Op) (s : State) : Host.Outcome State Fault Refusal :=
  .next (firePort s o fun s f =>
    let ih := handleOf (tokAt f 1).payload
    let dh := handleOf (tokAt f 2).payload
    let same := ih.rows == dh.rows && ih.epr == dh.epr
    let both := isTile (tokAt f 1) && isTile (tokAt f 2)
    match firstError [if both && !same then some eBOUNDS else none, scalarPort f 0, tilePort s f 1 (indexFmt o),
                      tilePort s f 2 o.fmt] with
    | some e => issueError e
    | none =>
      if portPoison f [0, 1] then .purge
      else
        let (s, ix, badIx) := readTile s f.cluster (tokAt f 1).payload
        let (s, d, bad) := readTile s f.cluster (tokAt f 2).payload
        if badIx then .purge
        else .go s (((ix.elems.flatten.zip d.elems.flatten).zip (List.range (ix.rows * ix.epr))).map fun e =>
          writeElem e.2 (indexedAddr o f e.1.1) (packElems o.fmt [e.1.2]) (bad || portPoison f [2])))

def execLds (o : Op) (s : State) : Host.Outcome State Fault Refusal :=
  .next (firePort s o fun s f =>
    let (rows, epr) := immShapeHi o
    match firstError [scalarPort f 0, scalarPort f 1] with
    | some e => issueError e
    | none =>
      if portPoison f [0, 1] then .purge
      else .go s ((List.range rows).map fun i =>
        readElem i (portValue f 0 + (i : Int) * portSigned f 1) (rowBytes o.fmt epr)))

def execSts (o : Op) (s : State) : Host.Outcome State Fault Refusal :=
  .next (firePort s o fun s f =>
    let vh := handleOf (tokAt f 2).payload
    let dh := handleOf (tokAt f 3).payload
    let ok := sparseShapes vh dh
    let both := isTile (tokAt f 2) && isTile (tokAt f 3)
    match firstError [if both && !ok then some eBOUNDS else none, scalarPort f 0, scalarPort f 1, tilePort s f 2 o.fmt,
                      tilePort s f 3 .n8] with
    | some e => issueError e
    | none =>
      if portPoison f [0, 1, 3] then .purge
      else
        let (s, v, bad) := readTile s f.cluster (tokAt f 2).payload
        let (s, d, badMd) := readTile s f.cluster (tokAt f 3).payload
        if badMd then .purge
        else match badMeta 4 2 true v.epr d.elems with
          | some e => .error eBOUNDS e
          | none =>
            let dense := expandTile 4 2 true v d
            .go s ((List.range dense.rows).map fun i =>
              writeElem i (portValue f 0 + (i : Int) * portSigned f 1) (dense.rowBytes i) (bad || portPoison f [2])))
where
  /-- The shapes that VCOMPR gives values and metadata with G 4, K 2 and PACK (06 R215). -/
  sparseShapes (vh dh : Handle) : Bool := dh.rows == vh.rows && vh.epr % 4 == 0 && dh.epr == vh.epr / 4

/-- NOP of LDW and STW: no access. -/
def isNop (o : Op) : Bool := immBit o 25

def execPortLdw (o : Op) (s : State) : Host.Outcome State Fault Refusal :=
  .next (firePort s o fun s f =>
    match scalarPort f 0 with
    | some e => issueError e
    | none =>
      if isNop o then .go s []
      else if portPoison f [0] then .purge
      else .go s [readElem 0 (portValue f 0) (elemSize o.fmt)])

def execPortStw (o : Op) (s : State) : Host.Outcome State Fault Refusal :=
  .next (firePort s o fun s f =>
    match firstError [scalarPort f 0, scalarPort f 1] with
    | some e => issueError e
    | none =>
      if isNop o then .go s []
      else if portPoison f [0] then .purge
      else .go s [writeElem 0 (portValue f 0) (leBytes (elemSize o.fmt) (portValue f 1)) (portPoison f [1])])

/-- PREF: chunks of 128 bytes. -/
def execPref (o : Op) (s : State) : Host.Outcome State Fault Refusal :=
  .next (firePort s o fun s f =>
    match scalarPort f 0 with
    | some e => issueError e
    | none =>
      if portPoison f [0] then .purge
      else
        let n := immBits o 17 0 + 1
        .go s ((List.range ((n + 127) / 128)).map fun i =>
          readElem i (portValue f 0 + 128 * (i : Int)) (min 128 (n - 128 * i))))

/-- MSTART carries its base and length to the port in one element. -/
def execMstart (o : Op) (s : State) : Host.Outcome State Fault Refusal :=
  .next (firePort s o fun s f =>
    match firstError [scalarPort f 0, scalarPort f 1] with
    | some e => issueError e
    | none => if portPoison f [0, 1] then .purge else .go s [readElem 0 (portValue f 0) (portValue f 1)])

def execMmode (o : Op) (s : State) : Host.Outcome State Fault Refusal :=
  .next (firePort s o fun s f => match scalarPort f 0 with | some e => issueError e | none => .go s [])

/-! ### Acceptance (R288, R290, R310) -/

def portPlace (p : Nat) : Nat := srcPort p

/-- The destinations of a job's firing. -/
def jobDests (s : State) (j : Job) : List (Nat × Dst) := destinations s j.firing (jobOp j)

def jobError (s : State) (p : Nat) (j : Job) (code : BitVec 8) (elem : Nat) : State :=
  answerError s j.firing j.tag (portPlace p) (jobDests s j) code elem

def jobDone (s : State) (p : Nat) (j : Job) (k : Kind) (v : Nat) (poison : Bool) : State :=
  answer s j.firing j.tag (portPlace p) (outTo (jobDests s j) k (poisonFlag poison) (BitVec.ofNat 64 v)) none

/-- MSTART acts when it is accepted (R310). -/
def startStream (s : State) (p : Nat) (j : Job) : State :=
  match j.elems with
  | e :: _ =>
    if e.size = 0 ∨ (bankWindow : Int) < e.addr + e.size then jobError s p j eADDR_RANGE 0
    else
      let s := modPort s p fun q =>
        { q with ahead := [], range := some (BitVec.ofInt 64 e.addr, BitVec.ofNat 64 e.size), demand := e.addr.toNat,
                 aheadTo := e.addr.toNat }
      jobDone s p j .done 0 false
  | [] => s

def execPortRequestAccept (p : Nat) (s : State) : Host.Outcome State Fault Refusal :=
  let q := getPort s p
  .next (match q.incoming with
    | [] => s
    | j :: rest =>
      if 64 ≤ q.queue.length then s
      else
        let s := setPort s p { q with incoming := rest }
        if !q.en || q.owner.toNat ≠ j.firing.region then jobError s p j eADDR_RANGE 0
        else if jobOpc j = 0x0A then startStream s p j
        else modPort s p fun q =>
          { q with queue := q.queue ++ [{ j with no := q.accepted }], accepted := q.accepted + 1 })

/-! ### Waves (R311, R312) -/

def isWave (j : Job) : Bool := jobOpc j == 6 || jobOpc j == 7
def jobSeq (j : Job) : BitVec 8 := BitVec.ofNat 8 (immBits (jobOp j) 23 16)
def jobPred (j : Job) : BitVec 8 := BitVec.ofNat 8 (immBits (jobOp j) 15 8)
def jobSucc (j : Job) : BitVec 8 := BitVec.ofNat 8 (immBits (jobOp j) 7 0)

def waveOf (q : Port) (j : Job) : Option Wave :=
  q.waves.find? fun w => w.region == j.firing.region && w.tag == j.firing.tag

/-- The wave accesses on a generator that have still to be performed. -/
def wavesUnderWay (q : Port) : List Job :=
  q.gens.filterMap fun e => e.2.filter fun k => isWave k && k.count == 0 && k.fail.isNone

/-- A new wave record would have a place beside those held and those that accesses under way will create (R312). -/
def roomForWave (q : Port) : Bool :=
  decide (q.waves.length + ((wavesUnderWay q).filter fun k => jobPred k == 0).length < 64)

/-- An access may be performed, once no access of its strand is under way. -/
def performable (q : Port) (j : Job) : Bool :=
  !((wavesUnderWay q).any fun k => k.firing.region == j.firing.region && k.firing.tag == j.firing.tag) &&
  match waveOf q j with
  | none => jobPred j == 0 && roomForWave q
  | some w => jobPred j != 0 && (if jobPred j = 0xFF then w.lastSucc == jobSeq j else w.last == jobPred j)

/-- Performing an access advances its wave, and SUCC 0 retires it. A record that a purge removed meanwhile stays away. -/
def advanceWave (q : Port) (j : Job) : Port :=
  let others := q.waves.filter fun w => !(w.region == j.firing.region && w.tag == j.firing.tag)
  { q with waves := if jobSucc j = 0 ∨ (jobPred j ≠ 0 ∧ waveOf q j = none) then others
                    else others ++ [{ region := j.firing.region, tag := j.firing.tag, last := jobSeq j,
                                      lastSucc := jobSucc j }] }

/-! ### Generators (R288, R308) -/

def genJob (q : Port) (g : Nat) : Option Job := Tab.get none q.gens g
def setGen (q : Port) (g : Nat) (j : Option Job) : Port := { q with gens := Tab.set none q.gens g j }
def freeGen (q : Port) : Option Nat := (List.range 8).find? fun g => (genJob q g).isNone

/-- Nothing accepted earlier is still to complete. -/
def quietPort (q : Port) : Bool := q.waiting.isEmpty && (List.range 8).all fun g => (genJob q g).isNone

/-- What may start: its place in the queue, and whether it takes a generator, waits on its wave, or is an MMODE. -/
inductive Start where
  | generator | wave | mode
  deriving DecidableEq, Repr

/-- The oldest accepted firing that may start under the port's mode. An MMODE waits for all before it and holds all behind
it; an access that finds no wave record or waiting slot blocks those behind it; a stopped region's firings stay. -/
def nextStart (s : State) (q : Port) : Nat → List Job → Option (Nat × Start)
  | _, [] => none
  | i, j :: l =>
    if isStopped s j.firing.region then nextStart s q (i + 1) l
    else if jobOpc j = 0x0B then (if i = 0 && quietPort q then some (i, .mode) else none)
    else if q.mode = 2 && isWave j then
      if jobPred j == 0 && (waveOf q j).isNone && !roomForWave q then none
      else if performable q j then (if (freeGen q).isSome then some (i, .generator) else nextStart s q (i + 1) l)
      else if q.waiting.length < 256 then some (i, .wave) else none
    else if (freeGen q).isSome then some (i, .generator) else nextStart s q (i + 1) l

/-- MMODE: the port takes its mode, the streaming range goes, and leaving ordered-update mode discards the waves (R308). A
range that MSTART set on a port not in streaming mode takes effect when MMODE selects streaming (R310;
notes/assumptions/116.md). -/
def setMode (q : Port) (m : Nat) : Port :=
  { q with mode := BitVec.ofNat 2 m, range := if m = 1 ∧ q.mode ≠ 1 then q.range else none,
           waves := if m = 2 then q.waves else [] }

def execGeneratorStart (p : Nat) (s : State) : Host.Outcome State Fault Refusal :=
  let q := getPort s p
  .next (match nextStart s q 0 q.queue with
    | none => s
    | some (i, k) =>
      match q.queue[i]? with
      | none => s
      | some j =>
        let q := { q with queue := removeAt q.queue i }
        match k, freeGen q with
        | .mode, _ => jobDone (setPort s p (setMode q (immBits (jobOp j) 1 0))) p j .done 0 false
        | .wave, _ => setPort s p { q with waiting := q.waiting ++ [j] }
        | .generator, some g => setPort s p (setGen q g (some { j with started := true }))
        | .generator, none => s)

/-- A waiting access whose turn has come takes a free generator. -/
def execWaveAccessPerform (p k : Nat) (s : State) : Host.Outcome State Fault Refusal :=
  let q := getPort s p
  .next (match q.waiting[k]?, freeGen q with
    | some j, some g =>
      if performable q j && !isStopped s j.firing.region then
        setPort s p (setGen { q with waiting := removeAt q.waiting k } g (some { j with started := true }))
      else s
    | _, _ => s)

/-! ### Completion (R288, R306, R307) -/

/-- A tile as the contents of whole lines, wholly poisoned or not at all. -/
def payloadOf (t : Tile) (poison : Bool) : Payload :=
  let pitch := pitchFor t.fmt t.epr * 128
  let bs := (List.range t.rows).flatMap fun i =>
    let b := t.rowBytes i
    b ++ List.replicate (pitch - b.length) 0
  { bytes := bs, bad := if poison then (List.range (bs.length / 8)).map (8 * ·) else [] }

def tileWord (t : Tile) : Word := (newHandle t.fmt t.rows t.epr 0 0 0 0).word

/-- Send a result tile from a unit to some destinations, its data with it. -/
def tileTok (t : Tile) (poison : Bool) : Tok := { Tok.none with kind := .tile, flag := poisonFlag poison, payload := tileWord t }

def answerTile (s : State) (f : Firing) (tag : Tag) (src : Nat) (ds : List (Nat × Dst)) (t : Tile) (poison : Bool) : State :=
  answer s f tag src (outTo ds .tile (poisonFlag poison) (tileWord t)) (some (payloadOf t poison))

/-- The bytes read by a job, by element. -/
def gotBytes (j : Job) (i : Nat) : List Byte :=
  ((j.got.find? fun g => g.1 == i).map fun g => g.2.1).getD []

def gotPoison (j : Job) : Bool := j.got.any fun g => g.2.2

/-- Rows as a load's elements give them. -/
def gotTile (j : Job) (f : Fmt) (rows epr : Nat) : Tile :=
  tileOfRows f epr ((List.range rows).map (gotBytes j))

/-- The tokens of a firing whose elements have all been performed or have failed. -/
def completeJob (s : State) (p : Nat) (j : Job) : State :=
  let o := jobOp j
  let ds := jobDests s j
  let src := portPlace p
  match j.fail with
  | some (i, code) => jobError s p j code i
  | none =>
    let scalar : State := jobDone s p j .scalar (narrow o.fmt (leNat (gotBytes j 0))).toNat (gotPoison j)
    match jobOpc j with
    | 0x00 => if immBit o 25 then
        let (rows, epr) := immShapeHi o
        answerTile s j.firing j.tag src ds (gotTile j o.fmt rows epr) (gotPoison j)
      else scalar
    | 0x02 =>
      let h := handleOf (tokAt j.firing 1).payload
      let vals := (List.range (h.rows * h.epr)).map fun i => leNat (gotBytes j i)
      answerTile s j.firing j.tag src ds
        { fmt := o.fmt, epr := h.epr, elems := (List.range h.rows).map fun i => (vals.drop (i * h.epr)).take h.epr,
          scales := [] } (gotPoison j)
    | 0x04 =>
      let (rows, epr) := immShapeHi o
      let r := compressTile 4 2 true (gotTile j o.fmt rows epr)
      let s := answerTile s j.firing j.tag src (ds.filter fun d => d.1 == 0) r.1 (gotPoison j)
      answerTile s j.firing j.tag src (ds.filter fun d => d.1 == 1) r.2 (gotPoison j)
    | 0x06 => if isNop o then jobDone s p j .done 0 false else scalar
    | 0x07 => jobDone s p j .done 0 false
    | 0x03 => jobDone s p j .done j.count false
    | _ => jobDone s p j .done j.bytes false

/-- Another firing of the same node that was accepted earlier has still to complete (FLG.ORD). -/
def earlierOfNode (q : Port) (j : Job) : Bool :=
  let same (k : Job) : Bool :=
    k.firing.region == j.firing.region && k.firing.cluster == j.firing.cluster && k.firing.slot == j.firing.slot &&
    decide (k.no < j.no)
  q.queue.any same || q.waiting.any same || q.gens.any fun e => match e.2 with | some k => same k | none => false

/-- Complete the firing of a generator whose elements are done, in acceptance order under ORD. -/
def tryComplete (s : State) (p g : Nat) : State :=
  let q := getPort s p
  match genJob q g with
  | none => s
  | some j =>
    if !j.elems.isEmpty || j.held.isSome || ((jobOp j).ord && earlierOfNode q j) then s
    else completeJob (setPort s p (setGen q g none)) p j

/-! ### Elements (R291, R298, R306, R310) -/

/-- What performing one element comes to. -/
inductive Did where
  | read (s : State) (bs : List Byte) (poison : Bool)
  | wrote (s : State)
  | fail (s : State) (code : BitVec 8)
  /-- A missing byte: KIND. -/
  | miss (v : Nat) (kind : Nat)
  /-- A write to host memory before its handshake. -/
  | needs

/-- A granule as the read-ahead buffer holds it. -/
abbrev Ahead := Nat × List Byte × BitVec 16

/-- Read a granule ahead: its bytes and check bits as they stand. -/
def aheadOf (s : State) (u : Nat) : Ahead :=
  (u, Mem.read s.mem u 32, if unitFailed s (kindOf u) u then poisonMark .hbm else Tab.get 0 s.chk u)

/-- The read-ahead buffer holds 64 KiB. -/
def lastGranules (l : List Ahead) : List Ahead := l.drop (l.length - 2048)

/-- A granule's bytes with a single error put right (R314). -/
def aheadBytes (g : Ahead) : List Byte :=
  match unitState .hbm g.2.2 with
  | .single (some i) => g.2.1.modify (i / 8) (· ^^^ BitVec.ofNat 8 (2 ^ (i % 8)))
  | _ => g.2.1

def aheadPoisoned (g : Ahead) : Bool := unitState .hbm g.2.2 == .poisoned

/-- Put a granule in the place of the one buffered for its address. -/
def putAhead (q : Port) (g : Ahead) : Port := { q with ahead := q.ahead.map fun x => if x.1 = g.1 then g else x }

/-- Demand one granule on a streaming port: what was read ahead stands in for memory and is checked now (R63, R310). An
error that is put right in the buffer is put right in memory too, where memory still holds it. -/
def readGranule (s : State) (p u : Nat) : State × List Byte × Bool :=
  match (getPort s p).ahead.find? fun x => x.1 == u with
  | none => readMem s u 32
  | some g =>
    let bs := aheadBytes g
    let hbm := kindOf u == .hbm
    if g.2.2 = 0 then (s, bs, false)
    else if aheadPoisoned g then ((if hbm then countPue s u else s), bs, true)
    else
      let s := if Tab.get 0 s.chk u = g.2.2 then (readUnit s u).1 else if hbm then countPce s u else s
      (modPort s p fun q => putAhead q (u, bs, 0), bs, false)

/-- Read the units of one part of an access through the read-ahead buffer. -/
def readGranules (s : State) (p a n : Nat) : List Nat → State × List Byte × Bool
  | [] => (s, [], false)
  | u :: us =>
    let (s, bs, bad) := readGranule s p u
    let (s, bs', bad') := readGranules s p a n us
    (s, (bs.drop (max a u - u)).take (min (u + 32) (a + n) - max a u) ++ bs', bad || bad')

/-- Read the parts of an access on a streaming port. -/
def readStreamed (s : State) (p : Nat) : List (Nat × Nat) → State × List Byte × Bool
  | [] => (s, [], false)
  | (a, n) :: ps =>
    let (s, bs, bad) := readGranules s p a n (unitsOf a n)
    let (s, bs', bad') := readStreamed s p ps
    (s, bs ++ bs', bad || bad')

def inStream (q : Port) (v n : Nat) : Bool :=
  match q.range with
  | some (b, l) => decide (b.toNat ≤ v) && decide (v + n ≤ b.toNat + l.toNat)
  | none => false

/-- A store on a streaming port replaces the matching bytes read ahead, and marks them as it marks memory (R63, R315). -/
def replaceAhead (q : Port) (a : Nat) (bs : List Byte) (poison : Bool) : Port :=
  { q with ahead := q.ahead.map fun x =>
      if x.1 + 32 ≤ a ∨ a + bs.length ≤ x.1 then x
      else
        let whole := decide (a ≤ x.1) && decide (x.1 + 32 ≤ a + bs.length)
        (x.1, ((aheadBytes x).zip (List.range 32)).map (fun e =>
            if a ≤ x.1 + e.2 ∧ x.1 + e.2 < a + bs.length then bs.getD (x.1 + e.2 - a) e.1 else e.1),
         if poison || (!whole && aheadPoisoned x) then poisonMark .hbm else 0) }

/-- The parts of a store that were performed replace what was read ahead; a part the host refused was not (12 R389). -/
def replaceParts (s : State) (poison : Bool) : Port → List Byte → List (Nat × Nat) → Port
  | q, _, [] => q
  | q, bs, (a, n) :: ps =>
    let refused := isHost a && poison && refusesPoison s
    replaceParts s poison (if refused then q else replaceAhead q a (bs.take n) poison) (bs.drop n) ps

/-- Perform an element of a bank-window address as the bank would (R291). -/
def bankElem (s : State) (e : Elem) (row : Bool) (a : Nat) : Did :=
  if a % (if row then 8 else e.size) ≠ 0 then .fail s eBOUNDS
  else match e.write with
    | none => match loadBank s a e.size with
      | none => .fail s eTYPE_MISMATCH
      | some (s, bs, p) => .read s bs p
    | some bs => match storeBank s a bs e.poison with
      | .error c => .fail s c
      | .ok s => .wrote s

/-- The translator that a firing completes against (R292). -/
def jobXlate (q : Port) (j : Job) : Xlate := { q.xlate with ranges := j.ranges.getD q.xlate.ranges }

/-- Perform one element of a firing on a port (R291, R305). row: the element is a row of a tile. -/
def performElem (s : State) (p : Nat) (x : Xlate) (rid : Nat) (shook row : Bool) (e : Elem) : Did :=
  let q := getPort s p
  let r := getRegion s rid
  match locate s r e.addr e.size with
  | .fail c => .fail s c
  | .bank a => bankElem s e row a
  | .scratch c off =>
    match e.write with
    | none => let (s, bs, bad) := readMem s (spAddr c off) e.size; .read s bs bad
    | some bs =>
      if partPoisoned s (spAddr c off) bs.length then .fail s ePOISON
      else .wrote (writeMem s (spAddr c off) bs e.poison).1
  | .global v =>
    match translate s x q.asid v e.size e.write.isSome with
    | .miss b => .miss b (missKind false e.write.isSome)
    | .prot b => .miss b (missKind true e.write.isSome)
    | .fail => .fail s ePAGE_FAIL
    | .parts ps =>
      match e.write with
      | none =>
        if q.mode = 1 && inStream q v e.size then
          let (s, bs, bad) := readStreamed s p ps
          .read (modPort s p fun q => { q with demand := max q.demand (v + e.size) }) bs bad
        else let (s, bs, bad) := readParts s ps; .read s bs bad
      | some bs =>
        if !shook && ps.any fun x => isHost x.1 then .needs
        else
          let (s, w) := writeParts s bs e.poison ps
          let s := if q.mode = 1 then modPort s p fun q => replaceParts s e.poison q bs ps else s
          match w with
          | .done => .wrote s
          | .poison => .fail s ePOISON
          | .refused => .fail s eHOST_POISON

/-- A miss or a failure of one chunk of PREF is passed over; a chunk that translates counts, and fills the read-ahead
buffer of a streaming port (R307). None while R19 refuses the ticket's colour (R298). -/
def prefElem (s : State) (p : Nat) (g : Nat) (j : Job) (e : Elem) : Option (State × Nat) :=
  let q := getPort s p
  match locate s (getRegion s j.firing.region) e.addr e.size with
  | .global v =>
    match translate s (jobXlate q j) q.asid v e.size false with
    | .parts ps =>
      let fill := ps.flatMap fun x => (unitsOf x.1 x.2).map (aheadOf s)
      let s := if q.mode = 1 && q.range.isSome then
          modPort s p fun q => { q with ahead := lastGranules ((q.ahead.filter fun x => !fill.any fun y => y.1 == x.1) ++ fill) }
        else s
      some (s, e.size)
    | .miss b =>
      let seq := Tab.get 0 q.seqs g + 1
      let t := ticketWord (p / 16) false (p % 16) g seq.toNat 4 q.asid
      if missIsDirect s t then some (s, 0)
      else (raiseMiss s t b).map fun s => (modPort s p fun q => { q with seqs := Tab.set 0 q.seqs g seq }, 0)
    | _ => some (s, 0)
  | _ => some (s, 0)

/-- Record a failing element: the lowest counts. -/
def failElem (j : Job) (i : Nat) (code : BitVec 8) : Job :=
  match j.fail with
  | some (k, _) => if k ≤ i then j else { j with fail := some (i, code) }
  | none => { j with fail := some (i, code) }

/-- The element to perform next: a load's elements in any order, a store's by index (R305). -/
def chooseElem (s : State) (j : Job) : Nat :=
  match j.elems with
  | e :: _ => if e.write.isSome then 0 else freeBelow s j.elems.length
  | [] => 0

/-- A store's handshake, before its first write, or before its first write to the host under SAFE (R305). none: refused,
and the firing ends. -/
def jobShake (s : State) (j : Job) : Option (State × Job) :=
  (handshake s j.firing.region j.firing.tag).map fun s => (s, { j with handshake := true })

def dropJob (s : State) (p g : Nat) : State := modPort s p fun q => setGen q g none

/-- Perform element i of a generator's job. -/
def performAt (s : State) (p g : Nat) (j : Job) (i : Nat) : State :=
  match j.elems[i]? with
  | none => s
  | some e =>
    let rest := j.elems.eraseIdx i
    let put (s : State) (j : Job) : State := tryComplete (modPort s p fun q => setGen q g (some j)) p g
    let next (s : State) (j : Job) (d : Did) : State :=
      match d with
      | .read s bs bad =>
        let s := if isWave j && (getPort s p).mode = 2 then modPort s p fun q => advanceWave q j else s
        put s { j with elems := rest, got := j.got ++ [(e.ix, bs, bad)], count := j.count + 1, bytes := j.bytes + e.size }
      | .wrote s =>
        let s := if isWave j && (getPort s p).mode = 2 then modPort s p fun q => advanceWave q j else s
        put s { j with elems := rest, count := j.count + 1, bytes := j.bytes + e.size }
      | .fail s c => put s (failElem { j with elems := rest } e.ix c)
      | .miss b kind =>
        let q := getPort s p
        let seq := Tab.get 0 q.seqs g + 1
        let t := ticketWord (p / 16) false (p % 16) g seq.toNat kind q.asid
        let direct := missIsDirect s t
        match raiseMiss s t b with
        | none => s
        | some s => modPort s p fun q =>
            setGen { q with seqs := Tab.set 0 q.seqs g seq } g
              (some { j with elems := e :: rest, held := some (BitVec.ofNat 64 b, BitVec.ofNat 4 kind, seq, direct) })
      | .needs => s
    let rid := j.firing.region
    let row := match jobOpc j with | 0 | 1 => immBit (jobOp j) 25 | 4 | 5 => true | _ => false
    if jobOpc j = 8 then
      match prefElem s p g j e with
      | none => s
      | some (s, n) => put s { j with elems := rest, count := j.count + 1, bytes := j.bytes + n }
    else
      let shaken := if e.write.isSome && !immBit (jobOp j) 26 && !j.handshake then jobShake s j else some (s, j)
      match shaken with
      | none => dropJob s p g
      | some (s, j) =>
        let x := jobXlate (getPort s p) j
        match performElem s p x rid j.handshake row e with
        | .needs => (match jobShake s j with
          | none => dropJob s p g
          | some (s, j) => next s j (performElem s p x rid true row e))
        | d => next s j d

/-- One element of a generator's firing, or its completion. A NOP only advances its wave (R311). -/
def execElementPerform (p g : Nat) (s : State) : Host.Outcome State Fault Refusal :=
  let q := getPort s p
  .next (match genJob q g with
    | none => s
    | some j =>
      if j.held.isSome then s
      else if isWave j && q.mode = 2 && isNop (jobOp j) && j.count = 0 then
        tryComplete (setPort s p (setGen (advanceWave q j) g (some { j with count := 1 }))) p g
      else if j.elems.isEmpty then tryComplete s p g
      else performAt s p g j (chooseElem s j))

/-- A streaming port reads ahead one granule within its range, never sending a ticket (R310). -/
def execReadAhead (p : Nat) (s : State) : Host.Outcome State Fault Refusal :=
  let q := getPort s p
  let v := max q.demand q.aheadTo / 32 * 32
  .next (match q.range with
    | none => s
    | some (b, l) =>
      if q.mode ≠ 1 ∨ b.toNat + l.toNat < v + 32 ∨ v < b.toNat ∨ q.demand + 65536 ≤ v then s
      else match translate s q.xlate q.asid v 32 false with
        | .parts [(a, _)] =>
          let kept := q.ahead.filter fun x => x.1 != a
          setPort s p { q with ahead := lastGranules (kept ++ [aheadOf s a]), aheadTo := v + 32 }
        | _ => s)

/-! ### MRESUME (R300) -/

/-- The actions of R300. -/
inductive Resume where
  | retry
  | install (pte : Word)
  | escalate (rights : Bool)
  | fail (code : BitVec 8)
  deriving DecidableEq, Repr

def resumeOf (v : Word) : Option Resume :=
  if v = 0 then some .retry
  else if v.getLsbD 0 then (if v.getLsbD 1 || bits v 15 14 == 3 then some (.fail ePAGE_FAIL) else some (.install v))
  else if v = 0xFFFFFFFFFFFFFFFE then some (.escalate false)
  else if v = 0xFFFFFFFFFFFFFFFC then some (.escalate true)
  else none

/-- The port and generator of a ticket, the firing held under it and its escalation, when the ticket is live. -/
def livePort (s : State) (t : Word) : Option (Nat × Nat × Job) :=
  let p := 16 * ticketDie t + ticketUnit t
  if ticketHawk t then none
  else match genJob (getPort s p) (ticketGen t) with
    | some j => match j.held with
      | some h => if h.2.2.1 = ticketSeq t && !isStopped s j.firing.region then some (p, ticketGen t, j) else none
      | none => none
    | none => none

/-- The stencil queue that holds an element under a ticket of its COPY port, when the ticket is live: cluster, queue. -/
def liveCopy (s : State) (t : Word) : Option (Nat × Nat) :=
  s.clusters.findSome? fun e => (e.2.queues.find? fun q => match q.2.issued with
    | some x => (x.held.map Held.ticket) == some t && !isStopped s x.firing.region
    | none => false).map fun q => (e.1, q.1)

/-- Change the firing a stencil queue has issued. -/
def modIssued (s : State) (c q : Nat) (g : SFiring → SFiring) : State :=
  modCluster s c fun k =>
    let x := Tab.get SQueue.empty k.queues q
    { k with queues := Tab.set SQueue.empty k.queues q { x with issued := x.issued.map g } }

/-- The thread that waits under a Hawk ticket. -/
def liveHawk (s : State) (t : Word) : Option Nat :=
  let th := 8 * ticketDie t + bits t 58 56
  if !ticketHawk t then none
  else match (getThread s th).block with
    | .page _ => if (getThread s th).faultSeq.extractLsb' 0 8 = ticketSeq t then some th else none
    | _ => none

/-- Install an entry for the page that holds a ticket's byte. -/
def installTicket (s : State) (t : Word) (pte : Word) : State :=
  let d := ticketDie t
  let choice := Config.free s.steps
  if ticketHawk t then
    let die := getDie s d
    match Tab.get none die.tickets t.toNat with
    | none => s
    | some v => setDie s d { die with xlate := die.xlate.install (ticketAsid t) v.toNat pte 512 choice }
  else
    let p := 16 * d + ticketUnit t
    match Tab.get none (getPort s p).tickets t.toNat with
    | none => s
    | some v => modPort s p fun q => { q with xlate := q.xlate.install (ticketAsid t) v.toNat pte 4096 choice }

/-- The held byte of a ticket. -/
def ticketByte (s : State) (t : Word) : Nat :=
  let x := if ticketHawk t then (getDie s (ticketDie t)).tickets else (getPort s (16 * ticketDie t + ticketUnit t)).tickets
  ((Tab.get none x t.toNat).map BitVec.toNat).getD 0

/-- Let a live ticket's holder go on: the element or the word is tried again. -/
def retryTicket (s : State) (t : Word) : State :=
  match livePort s t, liveHawk s t, liveCopy s t with
  | some (p, g, j), _, _ => modPort s p fun q => setGen q g (some { j with held := none })
  | none, some th, _ => setThread s th { getThread s th with block := .none }
  | none, none, some (c, q) => modIssued s c q fun x => { x with held := none }
  | none, none, none => s

/-- FAIL: the held element fails with a code; a waiting thread traps HPAGE with DETAIL 4 (R302). -/
def failTicket (s : State) (t : Word) (code : BitVec 8) : State :=
  match livePort s t, liveHawk s t, liveCopy s t with
  | some (p, g, j), _, _ =>
    let ix := (j.elems.head?.map Elem.ix).getD 0
    modPort s p fun q => setGen q g (some (failElem { j with held := none, elems := j.elems.tail } ix code))
  | none, some th, _ => trap s th cHPAGE 4 (BitVec.ofNat 64 (ticketByte s t))
  | none, none, some (c, q) => modIssued s c q fun x => { x with held := none, failNext := some code }
  | none, none, none => s

/-- ESCALATE: PORT_FAULT_MAJOR, and the ticket stays in the matching store as though it carried KEEP. -/
def escalateTicket (s : State) (f : Firing) (t : Word) (rights : Bool) : State :=
  let r := getRegion s f.region
  let kind := (ticketKind t).toNat
  let reason := if rights || kind == 2 || kind == 3 then 2 else 1
  let s := match livePort s t, liveCopy s t with
    | some (p, g, j), _ => modPort s p fun q =>
        setGen q g (some { j with held := j.held.map fun h => (h.1, h.2.1, h.2.2.1, true) })
    | none, some (c, q) => modIssued s c q fun x => { x with held := x.held.map fun h => { h with escalated := true } }
    | none, none => s
  let s := majorFault s t (ticketByte s t) reason (nodeField r f.cluster f.slot) (tagBits f.tag .scalar Flag.none)
  let tok := tokAt f 0
  { s with net := s.net ++ [{ region := f.region, src := f.cluster, dst := f.cluster, data := none,
                              tok := { tok with flag := { tok.flag with keep := true } } }] }

/-- Apply an action to a ticket: the state and the done token's payload. -/
def applyResume (s : State) (f : Firing) (t : Word) (a : Resume) : State × Nat :=
  let live := (livePort s t).isSome || (liveHawk s t).isSome || (liveCopy s t).isSome
  match a, live with
  | .install pte, true => (retryTicket (installTicket s t pte) t, 0)
  | .install pte, false => (installTicket s t pte, 1)
  | _, false => (s, 1)
  | .retry, true => (retryTicket s t, 0)
  | .escalate r, true => (escalateTicket s f t r, 2)
  | .fail c, true => (failTicket s t c, 0)

/-- MRESUME: an error token on port 1 alone is the action FAIL and goes on to the destinations. -/
def execMresume (o : Op) (s : State) : Host.Outcome State Fault Refusal :=
  let f := s.firing
  let t := tokAt f 0
  let a := tokAt f 1
  .next (
    if a.kind == .error && t.kind != .error then
      match tagUnder s f o.xfm with
      | .refused => requeue s f
      | tg =>
        if !isScalar t then
          emitError s f o o.xfm tg (destinations s f o) (errorPayload (getRegion s f.region) f.cluster f.slot 0 eTYPE_MISMATCH)
        else if t.flag.poison then requestPurge s f.region f.tag
        else
          let s := (applyResume s f t.payload (.fail (a.payload.extractLsb' 0 8))).1
          emitError s f o o.xfm tg (destinations s f o) a.payload
    else fire s o fun s f =>
      match firstError [scalarPort f 0, scalarPort f 1] with
      | some e => .error e 0
      | none =>
        if portPoison f [0, 1] then .purge
        else match resumeOf a.payload with
          | none => .error eBOUNDS 0
          | some act =>
            let (s, v) := applyResume s f t.payload act
            .done s (outAll s f o .done Flag.none (BitVec.ofNat 64 v)) 0 0)

end Sys2Proof.Machine
end

