-- ==== Sys2Proof/Machine/Bank.lean ====
section
/-! DEFINITION. The Bank Engine (10 R320 to R348): issue of class-5 firings, acceptance, plain accesses, atomics, combining,
futures, queues, waiting and waking, and bank routines. -/

namespace Sys2Proof.Machine

/-! ### Operands (R327, R329) -/

def reqOp (q : BankReq) : Op := opWord q.firing.word
def reqOpc (q : BankReq) : Nat := bits q.firing.word 124 117

/-- a = p + 8 × OFF. -/
def bankTarget (f : Firing) (o : Op) : Int := portValue f 0 + 8 * (immBits o 33 22 : Nat)

/-- Bytes of a format's element in a bank: a raw scalar has eight (R326). -/
def bankWordSize (f : Fmt) : Nat := match f with | .raw => 8 | _ => fmtBits f / 8

/-- An immediate of w bits as an element: sign-extended and narrowed, or converted exactly for f32 and f64. -/
def bankImm (o : Op) (w : Nat) : Nat :=
  let v : Int := (BitVec.ofNat 64 (immBits o (w - 1) 0) <<< (64 - w)).toInt / 2 ^ (64 - w)
  match fpOf o.fmt with
  | some p => (intToFp p .rne false 0 v).1
  | none => intBits (8 * bankWordSize o.fmt) v

/-- The last operand: port i, or the immediate of w bits with IMMB. -/
def bankOperand (f : Firing) (o : Op) (i w : Nat) : Nat :=
  if immBit o 21 then bankImm o w else portValue f i % 2 ^ (8 * bankWordSize o.fmt)

/-! ### Atomic operations (R327, R331) -/

/-- Op(FN, old, b) in a format, with the flags it raises. -/
def bankOp (fn : Nat) (f : Fmt) (rnd : Rnd) (sat : Bool) (rb old b : Nat) : Nat × Flags :=
  match fpOf f with
  | some p =>
    (match fn with
     | 1 => fpAdd p rnd sat rb (unpack p old) (unpack p b)
     | 5 => fpMinMax p false old b
     | 6 => fpMinMax p true old b
     | 7 => fpMinMaxNum p false old b
     | 8 => fpMinMaxNum p true old b
     | _ => (b, 0))
  | none =>
    let x := intOf f old
    let y := intOf f b
    match fn with
    | 1 => fitInt f sat (x + y)
    | 2 => (old &&& b, 0)
    | 3 => (old ||| b, 0)
    | 4 => (old ^^^ b, 0)
    | 5 => (if x ≤ y then old else b, 0)
    | 6 => (if x ≤ y then b else old, 0)
    | _ => (b, 0)

/-- A plain word's element for a read-modify-write (R329). -/
def plainElem (s : State) (a n : Nat) : Except (BitVec 8) (State × Nat) :=
  if wordMode s a != .plain then .error eTYPE_MISMATCH
  else
    let (s, bs, bad) := readMem s a n
    if bad then .error ePOISON else .ok (s, leNat bs)

def putElem (s : State) (a n v : Nat) : State := (writeMem s a (leBytes n v) false).1

/-! ### Issue (R326, R329) -/

/-- Leading elements that lie in no bank fail; the bank of the first that does. -/
def routeElems (s : State) (r : Region) : List Elem → Option (Nat × BitVec 8) → List Elem × Option (Nat × BitVec 8) × Option Nat
  | [], fail => ([], fail, none)
  | e :: es, fail =>
    let skip (c : BitVec 8) := routeElems s r es (match fail with | none => some (e.ix, c) | some x => some x)
    match locate s r e.addr e.size with
    | .bank a => (e :: es, fail, some (bankOf a))
    | .fail c => skip c
    | _ => skip eADDR_RANGE

/-- Two firings are of one node. -/
def sameNode (f g : Firing) : Bool := f.region == g.region && f.cluster == g.cluster && f.slot == g.slot

/-- A request of the node that issued earlier has still to send its results, at whatever bank (03 R71); under a freeze a
parked waiter holds none back (notes/assumptions/50.md). -/
def earlierOf (s : State) (no : Nat) (f : Firing) : Bool :=
  let req (q : BankReq) : Bool := decide (q.no < no) && sameNode q.firing f
  s.banks.any (fun e => e.2.input.any req || (e.2.combine.any fun c => c.parts.any req) ||
    e.2.late.any fun l => decide (l.no < no) && sameNode l.firing f) ||
  s.nacked.any (fun x => req x.1) ||
  s.waiters.any fun w => decide (w.no < no) && sameNode w.firing f && !isStopped s f.region

/-- Tokens leave a bank, a tile's bytes with it. -/
def bankEmit (s : State) (b : Nat) (f : Firing) (ts : List Tok) (data : Option Payload) : State :=
  ts.foldl (fun s t => sendFrom s f.region (srcBank b) t (dataFor t data)) s

/-- Send a firing's results from a bank, in the order of issue under ORD: requests of one node reach a bank, and are
accepted there, in that order (R320, R326). -/
def bankSend (s : State) (b no : Nat) (f : Firing) (tag : Tag) (outs : List Out) (data : Option Payload) : State :=
  let ts := outToks s f tag outs
  if (opWord f.word).ord && earlierOf s no f then
    let k := getBank s b
    setBank s b { k with late := k.late ++ [{ no := no, firing := f, toks := ts, data := data }] }
  else bankEmit s b f ts data

/-- Results that need wait no longer leave (R326). -/
def flushLateAt (s : State) (b : Nat) : State :=
  (getBank s b).late.foldl (fun s l =>
    if earlierOf s l.no l.firing then s
    else
      let k := getBank s b
      let s := setBank s b { k with late := k.late.filter fun x => x.no != l.no || !sameNode x.firing l.firing }
      bankEmit s b l.firing l.toks l.data) s

def flushLate (s : State) : State :=
  (s.banks.filter fun e => !e.2.late.isEmpty).foldl (fun s e => flushLateAt s e.1) s

def reqDests (s : State) (q : BankReq) : List (Nat × Dst) := destinations s q.firing (reqOp q)

def outWord (ds : List (Nat × Dst)) (k : Kind) (poison : Bool) (v : Nat) : List Out :=
  outTo ds k (poisonFlag poison) (BitVec.ofNat 64 v)

def wordTok (k : Kind) (poison : Bool) (v : Nat) : Tok :=
  { Tok.none with kind := k, flag := poisonFlag poison, payload := BitVec.ofNat 64 v }

/-- A value on DST0 and the route entries, and a second result on DST1 (R332, R340). -/
def outWords (ds : List (Nat × Dst)) (poison : Bool) (v side : Nat) : List Out :=
  twoTo ds (wordTok .scalar poison v) (wordTok .scalar false side)

/-- Send a request's results from its bank. -/
def reqSend (s : State) (q : BankReq) (outs : List Out) (data : Option Payload) : State :=
  bankSend s (q.home.getD 0) q.no q.firing q.tag outs data

def reqErrorOuts (s : State) (q : BankReq) (code : BitVec 8) (elem : Nat) : List Out :=
  outTo (reqDests s q) .error Flag.none
    (errorPayload (getRegion s q.firing.region) q.firing.cluster q.firing.slot elem code)

def reqError (s : State) (q : BankReq) (code : BitVec 8) (elem : Nat) : State := reqSend s q (reqErrorOuts s q code elem) none

def reqDone (s : State) (q : BankReq) (v : Nat) : State := reqSend s q (outWord (reqDests s q) .done false v) none

def reqValue (s : State) (q : BankReq) (v : Nat) (poison : Bool) : State :=
  reqSend s q (outWord (reqDests s q) .scalar poison (narrow (reqOp q).fmt v).toNat) none

/-- Results of a firing that raised flags: recorded and, where they trap, captured (03 R96, 06 R192). -/
def reqFlagged (s : State) (q : BankReq) (outs : List Out) (elem : Nat) : State :=
  let o := reqOp q
  let s := putFlags s q.firing o q.flags
  if flagsTrap s q.firing o q.flags then captureTrap s q.firing (outToks s q.firing q.tag outs) q.flags elem
  else reqSend s q outs none

def reqBytes (q : BankReq) (i : Nat) : List Byte := ((q.got.find? fun g => g.1 == i).map fun g => g.2.1).getD []
def reqPoison (q : BankReq) : Bool := q.got.any fun g => g.2.2

/-- The results of BLD, BST and BUPD once every element has been performed or has failed (R330, R335), with the flags of the
elements performed; of any other operator, the error of its element. -/
def completeReq (s : State) (q : BankReq) : State :=
  let o := reqOp q
  match q.fail with
  | some (i, c) => reqFlagged s q (reqErrorOuts s q c i) (q.trapElem.getD 0)
  | none =>
    match reqOpc q with
    | 0x00 =>
      if immBit o 21 then
        let (rows, epr) := immShapeBld o
        let t := tileOfRows o.fmt epr ((List.range rows).map (reqBytes q))
        reqSend s q (outTo (reqDests s q) .tile (poisonFlag (reqPoison q)) (tileWord t)) (some (payloadOf t (reqPoison q)))
      else reqValue s q (leNat (reqBytes q 0)) (reqPoison q)
    | 0x01 => reqDone s q q.bytes
    | _ => reqFlagged s q (outWord (reqDests s q) .done false q.count) (q.trapElem.getD 0)

/-- A request takes its place in an input queue: ahead of those that its source issued after it (R320, R324). -/
def queueUp (q : BankReq) : List BankReq → List BankReq
  | [] => [q]
  | x :: l => if x.src == q.src && decide (q.no < x.no) then q :: x :: l else x :: queueUp q l

/-- Send a request to the bank of its next element, or complete it when none is left. -/
def submit (s : State) (q : BankReq) : State :=
  match routeElems s (getRegion s q.firing.region) q.elems q.fail with
  | (es, fail, some b) =>
    let k := getBank s b
    setBank s b { k with input := queueUp { q with elems := es, fail := fail, home := some (q.home.getD b) } k.input }
  | (_, fail, none) => completeReq s { q with elems := [], fail := fail }

/-- Issue a class-5 firing: its checks, the irrevocable handshake of R329, and the request to the bank. -/
def fireBank (s : State) (o : Op) (shake : Bool) (body : State → Firing → Issue) : State :=
  fireTagged s o o.xfm (fun f => destinations s f o) fun s f tg =>
    match body s f with
    | .error c e => .error c e
    | .purge => .purge
    | .go s es =>
      let (g, t) := firingUnder f tg
      let q : BankReq := { no := s.steps, home := none, firing := g, tag := t, src := f.cluster, nacks := 0, elems := es,
                            got := [], fail := none, count := 0, bytes := 0, flags := 0, trapElem := none }
      match if shake then handshake s f.region f.tag else some s with
      | none => .later s
      | some s => .later (submit s q)

/-- The checks of an operator that acts on one word: scalar ports, and POISON on the ports that are used. -/
def bankScalars (s : State) (f : Firing) (o : Op) (used : List Nat) : Issue :=
  match firstError ((List.range f.toks.length).map (scalarPort f)) with
  | some e => issueError e
  | none => if portPoison f used then .purge else .go s [readElem 0 (bankTarget f o) (bankWordSize o.fmt)]

def execBld (o : Op) (s : State) : Host.Outcome State Fault Refusal :=
  .next (fireBank s o false fun s f =>
    match scalarPort f 0 with
    | some e => issueError e
    | none =>
      if portPoison f [0] then .purge
      else if immBit o 21 then
        let (rows, epr) := immShapeBld o
        let n := rowBytes o.fmt epr
        .go s ((List.range rows).map fun i => readElem i (bankTarget f o + i * n) n)
      else .go s [readElem 0 (bankTarget f o) (bankWordSize o.fmt)])

def execBst (o : Op) (s : State) : Host.Outcome State Fault Refusal :=
  .next (fireBank s o (!immBit o 20) fun s f =>
    let tile := immBit o 21
    match firstError [scalarPort f 0, if tile then tilePort s f 1 o.fmt else scalarPort f 1] with
    | some e => issueError e
    | none =>
      if portPoison f [0] then .purge
      else if tile then
        let (s, t, bad) := readTile s f.cluster (tokAt f 1).payload
        .go s ((List.range t.rows).map fun i =>
          writeElem i (bankTarget f o + i * (t.rowBytes i).length) (t.rowBytes i) (bad || portPoison f [1]))
      else .go s [writeElem 0 (bankTarget f o) (leBytes (bankWordSize o.fmt) (portValue f 1)) (portPoison f [1])])

def execBankAtom (o : Op) (s : State) : Host.Outcome State Fault Refusal :=
  .next (fireBank s o true fun s f => bankScalars s f o [0, 1])

def execAcas (o : Op) (s : State) : Host.Outcome State Fault Refusal :=
  .next (fireBank s o true fun s f => bankScalars s f o [0, 1, 2])

def execRed (o : Op) (s : State) : Host.Outcome State Fault Refusal :=
  .next (fireBank s o (!immBit o 16) fun s f => bankScalars s f o [0, 1])

def execRflush (o : Op) (s : State) : Host.Outcome State Fault Refusal :=
  .next (fireBank s o false fun s f => bankScalars s f o [0])

def execBupd (o : Op) (s : State) : Host.Outcome State Fault Refusal :=
  .next (fireBank s o (!immBit o 16) fun s f =>
    match firstError [scalarPort f 0, tilePort s f 1 o.fmt] with
    | some e => issueError e
    | none =>
      if portPoison f [0, 1] then .purge
      else
        let (s, t, bad) := readTile s f.cluster (tokAt f 1).payload
        if bad then .purge
        else
          let n := bankWordSize o.fmt
          .go s ((t.elems.flatten.zip (List.range (t.rows * t.epr))).map fun e =>
            writeElem e.2 (bankTarget f o + e.2 * n) (leBytes n e.1) false))

def execFget (o : Op) (s : State) : Host.Outcome State Fault Refusal :=
  .next (fireBank s o false fun s f => bankScalars s f o [0])

def execFput (o : Op) (s : State) : Host.Outcome State Fault Refusal :=
  .next (fireBank s o true fun s f => bankScalars s f o [0])

def execFclr (o : Op) (s : State) : Host.Outcome State Fault Refusal :=
  .next (fireBank s o (!immBit o 20) fun s f => bankScalars s f o [0])

def execQinit (o : Op) (s : State) : Host.Outcome State Fault Refusal :=
  .next (fireBank s o true fun s f => bankScalars s f o [0, 1])

def execQpush (o : Op) (s : State) : Host.Outcome State Fault Refusal :=
  .next (fireBank s o true fun s f => bankScalars s f o [0])

def execQpop (o : Op) (s : State) : Host.Outcome State Fault Refusal :=
  .next (fireBank s o true fun s f => bankScalars s f o [0])

def execWait (o : Op) (s : State) : Host.Outcome State Fault Refusal :=
  .next (fireBank s o false fun s f => bankScalars s f o [0, 1])

def execWake (o : Op) (s : State) : Host.Outcome State Fault Refusal :=
  .next (fireBank s o false fun s f => bankScalars s f o [0, 1])

def execBcall (o : Op) (s : State) : Host.Outcome State Fault Refusal :=
  .next (fireBank s o true fun s f => bankScalars s f o [0, 1, 2])

/-! ### BLD, BST, BUPD: one element (R330, R335) -/

/-- Perform a request's element at its flat address. -/
def bankAccess (s : State) (q : BankReq) (e : Elem) (a : Nat) : State × BankReq :=
  let o := reqOp q
  let bad (c : BitVec 8) : State × BankReq := (s, { q with fail := match q.fail with | none => some (e.ix, c) | some x => some x })
  if reqOpc q = 0x06 then
    if a % e.size ≠ 0 then bad eBOUNDS
    else match plainElem s a e.size with
      | .error c => bad c
      | .ok (s', old) =>
        let rnd := rndOf q.firing o
        let v := bankOp (immBits o 20 17) o.fmt rnd o.sat (rstBits s' q.firing e.ix) old (leNat (e.write.getD []))
        let hit := (v.2 &&& (getRegion s q.firing.region).fpTrap) != 0
        (putElem s' a e.size v.1,
         { q with count := q.count + 1, bytes := q.bytes + e.size, flags := q.flags ||| v.2,
                  trapElem := if q.trapElem.isNone && hit then some e.ix else q.trapElem })
  else match bankElem s e (immBit o 21) a with
    | .read s' bs p => (s', { q with got := q.got ++ [(e.ix, bs, p)], count := q.count + 1, bytes := q.bytes + e.size })
    | .wrote s' => (s', { q with count := q.count + 1, bytes := q.bytes + e.size })
    | .fail _ c => bad c
    | _ => (s, q)

/-! ### ATOM and ACAS (R331, R332) -/

def bankAtomic (s : State) (q : BankReq) (a : Nat) : State :=
  let o := reqOp q
  let f := q.firing
  let n := bankWordSize o.fmt
  match plainElem s a n with
  | .error c => reqError s q c 0
  | .ok (s, old) =>
    if reqOpc q = 0x03 then
      let hit := decide (old = portValue f 1 % 2 ^ fmtBits o.fmt)
      let s := if hit then putElem s a n (portValue f 2) else s
      reqSend s q (outWords (reqDests s q) false (narrow o.fmt old).toNat (if hit then 1 else 0)) none
    else
      let v := bankOp (immBits o 20 17) o.fmt (rndOf f o) o.sat (rstBits s f 0) old (bankOperand f o 1 16)
      reqFlagged (putElem s a n v.1) { q with flags := v.2 }
        (outWord (reqDests s q) .scalar false (narrow o.fmt old).toNat) 0

/-! ### RED and RFLUSH (R333, R334) -/

/-- Apply a combining entry to its word as one ALU operation, then send the contributions' done tokens. -/
def applyEntry (s : State) (e : Combine) : State :=
  let n := bankWordSize e.fmt
  match plainElem s e.addr n with
  | .error c => e.parts.foldl (fun s q => reqError s q c 0) s
  | .ok (s, old) =>
    let s := putElem s e.addr n (bankOp e.fn e.fmt e.rnd false 0 old e.value).1
    e.parts.foldl (fun s q => reqDone s q 0) s

/-- Apply the entries of a bank that satisfy a test, oldest first. -/
def applyWhere (s : State) (b : Nat) (p : Combine → Bool) : State :=
  let k := getBank s b
  let s := setBank s b { k with combine := k.combine.filter fun e => !p e }
  (k.combine.filter p).foldl applyEntry s

def bankRed (s : State) (b : Nat) (q : BankReq) (a : Nat) : State :=
  let o := reqOp q
  let fn := immBits o 20 17
  let v := bankOperand q.firing o 1 16
  match plainElem s a (bankWordSize o.fmt) with
  | .error c => reqError s q c 0
  | .ok (s, _) =>
    let k := getBank s b
    let mine (e : Combine) : Bool := e.addr == a && e.fn == fn && e.fmt == o.fmt && e.rnd == o.rnd
    let fresh : Combine := { addr := a, fn := fn, fmt := o.fmt, rnd := o.rnd, value := v, parts := [q], opened := s.htime }
    if k.combine.any mine then
      let join (e : Combine) : Combine :=
        if mine e then { e with value := (bankOp fn o.fmt o.rnd false 0 e.value v).1, parts := e.parts ++ [q] } else e
      applyWhere (setBank s b { k with combine := k.combine.map join }) b fun e => decide (16 ≤ e.parts.length)
    else if k.combine.length < 16 then setBank s b { k with combine := k.combine ++ [fresh] }
    else applyEntry s fresh

/-- A word of an operator that neither reads nor writes it reports its error all the same (R329). -/
def soundWord (s : State) (a : Nat) : Bool := !(readMem s (a / 8 * 8) 8).2.2

def bankRflush (s : State) (b : Nat) (q : BankReq) (a : Nat) : State :=
  let n := (getBank s b).combine.length
  if soundWord s a then reqDone (applyWhere s b fun _ => true) q n else reqError s q ePOISON 0

/-- An entry is applied when it is full or 64 cycles have passed since it opened. -/
def combineDue (s : State) (e : Combine) : Bool := decide (16 ≤ e.parts.length) || decide (e.opened + 64 ≤ s.htime)

def execCombiningEntryApply (b k : Nat) (s : State) : Host.Outcome State Fault Refusal :=
  .next (match (getBank s b).combine[k]? with
    | none => s
    | some e => if combineDue s e then applyWhere s b fun x => x == e else s)

/-- A freeze applies every entry that holds a contribution of the region. -/
def flushCombining (s : State) (rid : Nat) : State :=
  (s.banks.filter fun e => !e.2.combine.isEmpty).foldl (fun s e =>
    applyWhere s e.1 fun c => c.parts.any fun q => q.firing.region == rid) s

/-! ### Parking (R320, R321, R344) -/

def waitersAt (s : State) (b : Nat) : List Waiter := s.waiters.filter fun w => bankOf w.word == b

/-- Words of a bank that hold wait-table entries. -/
def waitWords (s : State) (b : Nat) : List Nat := ((waitersAt s b).filter fun w => w.kind == .wait).map Waiter.word

def distinct : List Nat → List Nat
  | [] => []
  | a :: l => a :: (distinct l).filter (· != a)

/-- A waiter-pool entry of the bank that no waiter uses; which one is left open. -/
def freeEntry (s : State) (b : Nat) : Option (BitVec 8) :=
  let used := (waitersAt s b).map fun w => w.entry.toNat
  let free := (List.range 256).filter fun i => !used.contains i
  (free[freeBelow s (max 1 free.length)]?).map (BitVec.ofNat 8)

/-- Refuse a request that would park: it comes back after its backoff (R396). -/
def nackReq (s : State) (b : Nat) (q : BankReq) : State :=
  let n := q.nacks + 1
  { s with nacked := s.nacked ++ [({ q with nacks := n }, b, s.htime + 64 * 2 ^ min n 6)] }

/-- Park a request on a word, or refuse it when the pool, or for a new word the wait table, is full. -/
def park (s : State) (b : Nat) (q : BankReq) (a : Nat) (kind : WKind) (operand : Word) : State :=
  let o := reqOp q
  let word := a / 8 * 8
  let words := distinct (waitWords s b)
  match freeEntry s b with
  | none => nackReq s b q
  | some e =>
    if kind = .wait ∧ !words.contains word ∧ 64 ≤ words.length then nackReq s b q
    else
      let err := match kind with | .wait => immBit o 18 | .reader => false | _ => immBit o 21
      let w : Waiter := { word := word, sub := a % 8, no := q.no, entry := e, kind := kind, firing := q.firing, tag := q.tag,
                          operand := operand, lim := if kind = .reader then 31 else immBits o 17 13, err := err,
                          ext := kind == .wait && immBit o 19, eq := kind == .wait && immBit o 20, waited := 0, raised := false }
      { s with waiters := s.waiters ++ [w] }

/-- Remove a waiter. -/
def unpark (s : State) (w : Waiter) : State := { s with waiters := s.waiters.filter fun x => !(x.word == w.word && x.entry == w.entry) }

/-- The first waiter of a kind on a word whose region runs (R341, R345). -/
def firstWaiter (s : State) (a : Nat) (kind : WKind) : Option Waiter :=
  (waitersOf s a).find? fun w => w.kind == kind && !isStopped s w.firing.region

/-- Send a waiter its value. -/
def serveValue (s : State) (w : Waiter) (v : Nat) (poison : Bool) : State :=
  let f := w.firing
  bankSend (unpark s w) (bankOf w.word) w.no f w.tag
    (outWord (destinations s f (opWord f.word)) .scalar poison (narrow (opWord f.word).fmt v).toNat) none

def serveDone (s : State) (w : Waiter) (v : Nat) : State :=
  let f := w.firing
  bankSend (unpark s w) (bankOf w.word) w.no f w.tag (outWord (destinations s f (opWord f.word)) .done false v) none

/-! ### Futures (R336) -/

def bankWhole (s : State) (a : Nat) : State × Nat × Bool :=
  let (s, bs, bad) := readMem s (a / 8 * 8) 8
  (s, leNat bs, bad)

def putWhole (s : State) (a v : Nat) (poison : Bool) : State := (writeMem s (a / 8 * 8) (leBytes 8 v) poison).1

def bankFget (s : State) (b : Nat) (q : BankReq) (a : Nat) : State :=
  match wordMode s a with
  | .future true => let (s, v, bad) := bankWhole s a; reqValue s q v bad
  | .future false => park s b q a .reader 0
  | _ => reqError s q eTYPE_MISMATCH 0

/-- Send a future's value to its readers in order; readers of stopped regions keep their places. -/
def serveReaders (s : State) (a v : Nat) (poison : Bool) : State × Nat :=
  let rs := (waitersOf s a).filter fun w => w.kind == .reader && !isStopped s w.firing.region
  (rs.foldl (fun s w => serveValue s w v poison) s, rs.length)

/-- FPUT on a full word: FUTURE_REWRITE, raised toward the owner with TRAP (R336, R347). -/
def futureRewrite (s : State) (q : BankReq) (old new : Nat) : State :=
  let o := reqOp q
  let f := q.firing
  let s := if immBit o 21 then
      raiseCause s f.region aFUTURE_REWRITE f.cluster f.slot (tagBits f.tag .scalar Flag.none)
        (leBytes 8 (bankTarget f o).toNat ++ leBytes 8 old ++ leBytes 8 new)
    else s
  reqError s q eFUTURE_REWRITE 0

def bankFput (s : State) (q : BankReq) (a : Nat) : State :=
  let f := q.firing
  let v := (narrow (reqOp q).fmt (portValue f 1)).toNat
  match wordMode s a with
  | .future full =>
    let (s, old, bad) := bankWhole s a
    if bad then reqError s q ePOISON 0
    else if full then futureRewrite s q old v
    else
      let s := setWordMode (putWhole s a v (portPoison f [1])) a (.future true)
      let (s, n) := serveReaders s a v (portPoison f [1])
      reqDone s q n
  | _ => reqError s q eTYPE_MISMATCH 0

/-! ### Queue headers (R321, R337) -/

structure QHead where
  cap : Nat
  head : Nat
  count : Nat
  deriving DecidableEq, Repr

def qheadOf (v : Nat) : QHead := { cap := v / 2 ^ 52 % 4096, head := v / 2 ^ 40 % 4096, count := v / 2 ^ 28 % 4096 }
def QHead.word (h : QHead) : Nat := h.cap * 2 ^ 52 + h.head * 2 ^ 40 + h.count * 2 ^ 28

/-- The flat address of slot i of the queue with header at a: the next words of the same bank. -/
def slotAddr (a i : Nat) : Nat := bankWordAddr (bankOf a) (wordIndex a + 1 + i)

def clearQueue (s : State) (a cap : Nat) : State :=
  (List.range cap).foldl (fun s i => setWordMode s (slotAddr a i) .plain) (setWordMode (putWhole s a 0 false) a .plain)

def bankFclr (s : State) (q : BankReq) (a : Nat) : State :=
  let plain := immBit (reqOp q) 21
  let (s, v, bad) := bankWhole s a
  let parked := !(listedAt s a).isEmpty
  if bad then reqError s q ePOISON 0
  else match wordMode s a, plain with
    | .future true, false | .plain, false => reqDone (setWordMode (putWhole s a 0 false) a (.future false)) q 0
    | .future false, false => reqDone s q 0
    | .header, false | .slot, _ => reqError s q eTYPE_MISMATCH 0
    | .future true, true => reqDone (setWordMode s a .plain) q 0
    | .future false, true => if parked then reqError s q eBOUNDS 0 else reqDone (setWordMode (putWhole s a 0 false) a .plain) q 0
    | .plain, true => reqDone s q 0
    | .header, true => if parked then reqError s q eBOUNDS 0 else reqDone (clearQueue s a (qheadOf v).cap) q 0

def bankQinit (s : State) (q : BankReq) (a : Nat) : State :=
  let n := portValue q.firing 1
  let w := wordIndex a
  let words := a / 8 * 8 :: (List.range n).map (slotAddr a)
  let future (u : Nat) : Bool := match wordMode s u with | .future _ => true | _ => false
  if n < 1 ∨ 4095 < n ∨ 65535 < w + n then reqError s q eBOUNDS 0
  else if words.any future || (wordMode s a == .header && !(listedAt s a).isEmpty) then reqError s q eBOUNDS 0
  else if (bankWhole s a).2.2 then reqError s q ePOISON 0
  else
    let s := (List.range n).foldl (fun s i => setWordMode s (slotAddr a i) .slot) s
    reqDone (setWordMode (putWhole s a (QHead.word { cap := n, head := 0, count := 0 }) false) a .header) q 0

/-! ### QPUSH and QPOP (R338) -/

/-- Put a value at the tail of a queue. -/
def qAppend (s : State) (a : Nat) (h : QHead) (v : Nat) (poison : Bool) : State :=
  putWhole (putWhole s (slotAddr a ((h.head + h.count) % max 1 h.cap)) v poison) a { h with count := h.count + 1 }.word false

/-- Take the oldest item of a queue. -/
def qTake (s : State) (a : Nat) (h : QHead) : State × Nat × Bool :=
  let (s, v, bad) := bankWhole s (slotAddr a h.head)
  (putWhole s a { h with head := (h.head + 1) % max 1 h.cap, count := h.count - 1 }.word false, v, bad)

def pushValue (f : Firing) : Nat := (narrow (opWord f.word).fmt (portValue f 1)).toNat

/-- A slot has become free: the oldest waiting pusher's value goes to the tail, and it gets its done token. -/
def admitPusher (s : State) (a : Nat) : State :=
  let (s, v, _) := bankWhole s a
  let h := qheadOf v
  match firstWaiter s a .pusher with
  | none => s
  | some w => if h.count < h.cap then
      serveDone (qAppend s a h w.operand.toNat (portPoison w.firing [1])) w (h.count + 1)
    else s

def bankQpush (s : State) (b : Nat) (q : BankReq) (a : Nat) : State :=
  let (s, w, bad) := bankWhole s a
  let h := qheadOf w
  let v := pushValue q.firing
  let poison := portPoison q.firing [1]
  if wordMode s a ≠ .header then reqError s q eTYPE_MISMATCH 0
  else if bad then reqError s q ePOISON 0
  else match firstWaiter s a .popper with
    | some p => reqDone (serveValue s p v poison) q h.count
    | none =>
      if h.count < h.cap then reqDone (qAppend s a h v poison) q (h.count + 1)
      else park s b q a .pusher (BitVec.ofNat 64 v)

def bankQpop (s : State) (b : Nat) (q : BankReq) (a : Nat) : State :=
  let (s, w, bad) := bankWhole s a
  let h := qheadOf w
  if wordMode s a ≠ .header then reqError s q eTYPE_MISMATCH 0
  else if bad then reqError s q ePOISON 0
  else if 0 < h.count then
    let (s, v, p) := qTake s a h
    reqValue (admitPusher s a) q v p
  else park s b q a .popper 0

/-! ### WAIT and WAKE (R340, R341) -/

/-- The element a waiter or WAIT compares, and whether its word is poisoned. -/
def waitValue (s : State) (a : Nat) (f : Fmt) : State × Nat × Bool :=
  let (s, bs, bad) := readMem s a (bankWordSize f)
  (s, leNat bs, bad)

/-- WAIT's condition over the width of FMT. -/
def waitHolds (f : Fmt) (eq : Bool) (v operand : Nat) : Bool :=
  (v == operand % 2 ^ (8 * bankWordSize f)) == eq

/-- The results of a WAIT: the value on DST0 and the route entries, the reason on DST1. -/
def waitOuts (s : State) (f : Firing) (v : Nat) (poison : Bool) (reason : Nat) : List Out :=
  outWords (destinations s f (opWord f.word)) poison (narrow (opWord f.word).fmt v).toNat reason

/-- Return a parked WAIT. -/
def returnWait (s : State) (w : Waiter) (reason : Nat) : State :=
  let f := w.firing
  let (s, v, bad) := waitValue s (w.word + w.sub) (opWord f.word).fmt
  bankSend (unpark s w) (bankOf w.word) w.no f w.tag (waitOuts s f v bad reason) none

def bankWait (s : State) (b : Nat) (q : BankReq) (a : Nat) : State :=
  let o := reqOp q
  let operand := bankOperand q.firing o 1 13
  if wordMode s a ≠ .plain then reqError s q eTYPE_MISMATCH 0
  else
    let (s, v, bad) := waitValue s a o.fmt
    if waitHolds o.fmt (immBit o 20) v operand then
      reqSend s q (waitOuts s q.firing v bad 0) none
    else park s b q a .wait (BitVec.ofNat 64 operand)

def bankWake (s : State) (q : BankReq) (a : Nat) : State :=
  let o := reqOp q
  let n := bankOperand q.firing o 1 16 % 2 ^ 64
  let ws := (waitersOf s a).filter fun w => w.kind == .wait && !isStopped s w.firing.region
  let ws := if n = 0 then ws else ws.take n
  if soundWord s a then reqDone (ws.foldl (fun s w => returnWait s w 1) s) q ws.length else reqError s q ePOISON 0

/-! ### BCALL (R342, R343) -/

/-- Correct some words of a bank, as reading them does (R323). -/
def correctWords (s : State) (l : List Nat) : State := l.foldl (fun s a => (bankWhole s a).1) s

/-- Read a routine's sixteen words, each with the error that running it yields. -/
def readRoutine (s : State) (rt : Nat) : List (Word × BitVec 8) :=
  (List.range 16).map fun i =>
    let a := rt + 8 * i
    let (_, v, bad) := bankWhole s a
    (BitVec.ofNat 64 v, if !readableWord s a then eTYPE_MISMATCH else if bad then ePOISON else 0)

/-- Fetch a routine into a bank's cache of four, unless it is there. -/
def fetchRoutine (s : State) (b rt : Nat) : State :=
  let k := getBank s b
  if k.routines.any fun e => e.1 == rt then s
  else
    let l := k.routines ++ [(rt, readRoutine s rt)]
    let s := setBank s b { k with routines := l.drop (l.length - 4) }
    correctWords s (((List.range 16).map fun i => rt + 8 * i).filter (readableWord s))

/-- The state of a running routine: its registers, the words it has stored, and the block words it has read. -/
structure Micro where
  g : Vector Word 4
  stored : List (Nat × Word)
  read : List Nat
  deriving DecidableEq, Repr

/-- Block word w as the running routine sees it. -/
def microLoad (s : State) (block : Nat) (m : Micro) (w : Nat) : Except (BitVec 8) Word :=
  if wordMode s (block + 8 * w) ≠ .plain then .error eTYPE_MISMATCH
  else
    let (_, v, bad) := bankWhole s (block + 8 * w)
    if bad then .error ePOISON
    else match m.stored.find? fun e => e.1 == w with
      | some e => .ok e.2
      | none => .ok (BitVec.ofNat 64 v)

/-- A plain word that the routine names is read: it is corrected once the routine has run. -/
def Micro.touch (s : State) (block w : Nat) (m : Micro) : Micro :=
  if wordMode s (block + 8 * w) = .plain then { m with read := w :: m.read } else m

/-- What one micro-op comes to: the next state with the micro-ops to skip, or the routine's end. -/
inductive MicroStep where
  | go (m : Micro) (skip : Nat)
  | done (m : Micro) (v : Word)
  | error (m : Micro) (code : BitVec 8)

def microOp (s : State) (block : Nat) (m : Micro) (u : Word) : MicroStep :=
  let d := bits u 58 57
  let ga := m.g.toList.getD (bits u 56 55) 0
  let gb := m.g.toList.getD (bits u 54 53) 0
  let w := bits u 52 48
  let imm : Word := (u.extractLsb' 0 32).signExtend 64
  let put (m : Micro) (v : Word) : MicroStep := .go { m with g := m.g.setIfInBounds d v } 0
  let load (w : Nat) : MicroStep :=
    let m := m.touch s block w
    match microLoad s block m w with | .ok v => put m v | .error c => .error m c
  let store (w : Nat) : MicroStep :=
    let m := m.touch s block w
    match microLoad s block m w with
    | .ok _ => .go { m with stored := (w, ga) :: m.stored.filter fun e => e.1 != w } 0
    | .error c => .error m c
  if bits u 47 32 ≠ 0 then .error m eTYPE_MISMATCH
  else match bits u 63 59 with
    | 0 => .done m ga
    | 1 => load w
    | 2 => load (gb.toNat % 32)
    | 3 => store w
    | 4 => store (gb.toNat % 32)
    | 5 => put m (ga + gb)
    | 6 => put m (ga + imm)
    | 7 => put m (ga - gb)
    | 8 => put m (ga &&& gb)
    | 9 => put m (ga ||| gb)
    | 10 => put m (ga ^^^ gb)
    | 11 => put m (if ga.slt gb then 1 else 0)
    | 12 => put m (if ga.ult gb then 1 else 0)
    | 13 => .go m (if ga = 0 then bits u 3 0 else 0)
    | 14 => .go m (if ga ≠ 0 then bits u 3 0 else 0)
    | 15 => put m imm
    | 16 => put m (ga <<< (gb.toNat % 64))
    | _ => .error m eTYPE_MISMATCH

/-- Run a routine from micro-op pc, with what it comes to; fuel counts the micro-ops that may still run. -/
def runMicro (s : State) (block : Nat) (code : List (Word × BitVec 8)) : Nat → Nat → Micro → Micro × Except (BitVec 8) Word
  | 0, _, m => (m, .error eTYPE_MISMATCH)
  | n + 1, pc, m =>
    match code[pc]? with
    | none => (m, .error eTYPE_MISMATCH)
    | some (u, c) =>
      if c ≠ 0 then (m, .error c)
      else match microOp s block m u with
        | .go m k => runMicro s block code n (pc + 1 + k) m
        | .done m v => (m, .ok v)
        | .error m c => (m, .error c)

/-- Where a BCALL's routine lies: a flat address on the target's die. -/
def routineAddr (s : State) (q : BankReq) (a : Nat) : Except (BitVec 8) Nat :=
  match locate s (getRegion s q.firing.region) (portValue q.firing 1) 128 with
  | .bank rt =>
    if rt % 128 ≠ 0 then .error eBOUNDS
    else if bankOf rt / 128 ≠ bankOf a / 128 then .error eADDR_RANGE else .ok rt
  | .fail c => .error c
  | _ => .error eADDR_RANGE

def bankBcall (s : State) (b : Nat) (q : BankReq) (a : Nat) : State :=
  match routineAddr s q a with
  | .error c => reqError s q c 0
  | .ok rt =>
    let s := fetchRoutine s b rt
    let code := (((getBank s b).routines.find? fun e => e.1 == rt).map Prod.snd).getD []
    let block := a / 256 * 256
    let w := a / 8 % 32
    let m : Micro := { g := #v[(tokAt q.firing 2).payload, 0, BitVec.ofNat 64 w, 0], stored := [], read := [] }
    match microLoad s block m w with
    | .error c => reqError s q c 0
    | .ok v =>
      let m : Micro := { m with g := #v[(tokAt q.firing 2).payload, v, BitVec.ofNat 64 w, 0], read := [w] }
      let x := runMicro s block code 16 0 m
      let s := correctWords s (x.1.read.map fun w => block + 8 * w)
      match x.2 with
      | .error c => reqError s q c 0
      | .ok v => reqValue (x.1.stored.foldl (fun s e => putWhole s (block + 8 * e.1) e.2.toNat false) s) q v.toNat false

/-- The routine of a BCALL at bank b that lies in another bank. -/
def remoteRoutine (s : State) (b : Nat) (q : BankReq) : Option Nat :=
  if reqOpc q ≠ 0x12 then none
  else match q.elems with
    | [] => none
    | e :: _ => match locate s (getRegion s q.firing.region) e.addr e.size with
      | .bank a => (match routineAddr s q a with
        | .ok rt => if a % bankWordSize (reqOp q).fmt ≠ 0 ∨ bankOf rt = b then none else some rt
        | .error _ => none)
      | _ => none

def routineCached (s : State) (b rt : Nat) : Bool := (getBank s b).routines.any fun e => e.1 == rt

/-- The routines that bank b fetches from other banks now: those of waiting BCALLs, unless one that waits has its own in the
cache already. -/
def routinesWanted (s : State) (b : Nat) : List Nat :=
  let l := (getBank s b).input.filterMap (remoteRoutine s b)
  if l.any (routineCached s b) then [] else l

/-- The NACKs that the fetch of a routine has had, and the tick of its next try. -/
def fetchState (s : State) (b rt : Nat) : Nat × Nat :=
  match (getBank s b).fetch with
  | some (a, n, t) => if a = rt then (n, t) else (0, 0)
  | none => (0, 0)

/-- A bank fetches the routine of a BCALL that waits there from another bank: with a forward slot free, or AGED from its
fourth NACK on, it comes in before the BCALL is accepted; otherwise the fetch is tried again (01 R29; 12 R396). -/
def execRoutineFetch (b : Nat) (addr : Word) (s : State) : Host.Outcome State Fault Refusal :=
  let rt := addr.toNat
  let x := fetchState s b rt
  .next (if !(routinesWanted s b).contains rt ∨ s.htime < x.2 then s
    else if 4 ≤ x.1 ∨ Config.forwardFree s.steps then
      let s := fetchRoutine s b rt
      setBank s b { getBank s b with fetch := none }
    else setBank s b { getBank s b with fetch := some (rt, x.1 + 1, s.htime + 64 * 2 ^ min (x.1 + 1) 6) })

/-! ### Acceptance (R324) -/

/-- Perform an accepted request that acts on one word. -/
def bankPerform (s : State) (b : Nat) (q : BankReq) (a : Nat) : State :=
  if a % bankWordSize (reqOp q).fmt ≠ 0 then reqError s q eBOUNDS 0
  else match reqOpc q with
    | 0x02 | 0x03 => bankAtomic s q a
    | 0x04 => bankRed s b q a
    | 0x05 => bankRflush s b q a
    | 0x08 => bankFget s b q a
    | 0x09 => bankFput s q a
    | 0x0A => bankFclr s q a
    | 0x0C => bankQinit s q a
    | 0x0D => bankQpush s b q a
    | 0x0E => bankQpop s b q a
    | 0x10 => bankWait s b q a
    | 0x11 => bankWake s q a
    | _ => bankBcall s b q a

/-- A request that its source issued earlier has elements in bank b still to come: they arrived before it. -/
def behindRows (s : State) (b : Nat) (q : BankReq) : Bool :=
  s.banks.any fun e => e.2.input.any fun p => p.src == q.src && decide (p.no < q.no) && (p.elems.drop 1).any fun x =>
    match locate s (getRegion s p.firing.region) x.addr x.size with
    | .bank a => bankOf a == b
    | _ => false

/-- Bank b can accept the request now: nothing of its source comes before it, and its routine, if it runs one, is there. -/
def acceptable (s : State) (b : Nat) (q : BankReq) : Bool :=
  !behindRows s b q && ((remoteRoutine s b q).map (routineCached s b)).getD true

/-- The place in the input of the request that is next: the oldest of the next source, round robin after the last one
served, among the 32 places of the queue. -/
def nextRequest (s : State) (b : Nat) : Option Nat :=
  let k := getBank s b
  let q := k.input.take 32
  let first (c : Nat) : Option Nat := q.findIdx? fun r => r.src == c
  let ready (c : Nat) : Bool := (((first c).bind fun i => q[i]?).map (acceptable s b)).getD false
  let srcs := (q.map BankReq.src).filter ready
  let later := srcs.filter fun c => decide (k.lastSrc < c)
  ((if later.isEmpty then srcs else later).min?).bind first

/-- Accept one request: this fixes its place in the words' serial order. -/
def execBankRequestAccept (b : Nat) (s : State) : Host.Outcome State Fault Refusal :=
  let k := getBank s b
  .next (match nextRequest s b with
    | none => s
    | some i =>
      match k.input[i]? with
      | none => s
      | some q =>
        let s := setBank s b { k with input := removeAt k.input i, lastSrc := q.src }
        match q.elems with
        | [] => completeReq s q
        | e :: rest =>
          match locate s (getRegion s q.firing.region) e.addr e.size with
          | .bank a =>
            (match reqOpc q with
             | 0x00 | 0x01 | 0x06 => let (s, q) := bankAccess s q e a; submit s { q with elems := rest }
             | _ => bankPerform s b q a)
          | .fail c => submit s { q with elems := rest, fail := match q.fail with | none => some (e.ix, c) | some x => some x }
          | _ => submit s { q with elems := rest, fail := match q.fail with | none => some (e.ix, eADDR_RANGE) | some x => some x })

/-! ### Limits, thaw and backoff (R339, R344, R345, R347) -/

def waitLimit (w : Waiter) : Nat := if w.lim = 0 then 0 else 2 ^ w.lim

def waiterDue (s : State) (w : Waiter) : Bool :=
  w.lim != 31 && !w.raised && decide (waitLimit w ≤ w.waited) && !isStopped s w.firing.region

def waiterKind (w : Waiter) : Nat := match w.kind with | .reader => 0 | .wait => 1 | .pusher => 2 | .popper => 3

/-- A bank-window address of a flat address, for a region. -/
def windowAddr (r : Region) (a : Nat) : Nat :=
  let d := (a - bankBase) / 2 ^ 26
  let i := ((List.range 8).find? fun i => regionDie r i == some d).getD 0
  bankWindow + i * 2 ^ 26 + (a - bankBase) % 2 ^ 26

def queueWait (s : State) (w : Waiter) : State :=
  let f := w.firing
  let h := if w.kind = .wait then { cap := 0, head := 0, count := 0 } else qheadOf (bankWhole s w.word).2.1
  raiseCause s f.region aQUEUE_WAIT f.cluster f.slot (tagBits f.tag .scalar Flag.none)
    (leBytes 8 (windowAddr (getRegion s f.region) (w.word + w.sub)) ++ leBytes 2 h.head ++
     leBytes 2 ((h.head + h.count) % max 1 h.cap) ++ leBytes 2 h.count ++ leBytes 2 (waiterKind w) ++ leBytes 8 (waitLimit w))

def execWaiterLimitExpiry (k : Nat) (s : State) : Host.Outcome State Fault Refusal :=
  .next (match s.waiters[k]? with
    | none => s
    | some w =>
      if !waiterDue s w then s
      else if w.err then
        let f := w.firing
        let p := errorPayload (getRegion s f.region) f.cluster f.slot 0 eQUEUE_TIMEOUT
        bankSend (unpark s w) (bankOf w.word) w.no f w.tag (outTo (destinations s f (opWord f.word)) .error Flag.none p) none
      else queueWait { s with waiters := s.waiters.set k { w with raised := true } } w)

/-- A popper takes an item that stands ready, and room for a pusher follows. -/
def recheckPopper (s : State) (w : Waiter) : State :=
  let (s, v, _) := bankWhole s w.word
  let h := qheadOf v
  if 0 < h.count then
    let (s, x, p) := qTake s w.word h
    admitPusher (serveValue s w x p) w.word
  else s

/-- A pusher that can proceed does: its value goes to a popper that waits, or into the queue. -/
def recheckPusher (s : State) (a : Nat) : State :=
  match firstWaiter s a .pusher, firstWaiter s a .popper with
  | some w, some p =>
    let n := (qheadOf (bankWhole s a).2.1).count
    serveDone (serveValue s p w.operand.toNat (portPoison w.firing [1])) w n
  | _, _ => admitPusher s a

/-- Recheck a parked waiter of a thawed region (R345). -/
def recheck (s : State) (w : Waiter) : State :=
  if !s.waiters.contains w then s
  else match w.kind with
    | .reader => if wordMode s w.word = .future true then
        (let (s, v, bad) := bankWhole s w.word; serveValue s w v bad) else s
    | .wait =>
      let o := opWord w.firing.word
      let (s, v, _) := waitValue s (w.word + w.sub) o.fmt
      if waitHolds o.fmt w.eq v w.operand.toNat then returnWait s w 2 else s
    | .pusher => recheckPusher s w.word
    | .popper => recheckPopper s w

def bankThaw (s : State) (rid : Nat) : State :=
  (s.waiters.filter fun w => w.firing.region == rid).foldl recheck s

/-- A refused request comes back after its backoff (R396), unless its region is stopped. -/
def retryBank (s : State) (k : Nat) : State :=
  match s.nacked[k]? with
  | none => s
  | some (q, _, t) =>
    if s.htime < t ∨ isStopped s q.firing.region then s
    else submit { s with nacked := removeAt s.nacked k } q

/-- At a freeze a region's refused requests are matched firings again. -/
def returnNacked (s : State) (rid : Nat) : State :=
  let mine := s.nacked.filter fun x => x.1.firing.region == rid
  mine.foldl (fun s x => requeue s x.1.firing) { s with nacked := s.nacked.filter fun x => x.1.firing.region != rid }

/-! ### PFENCE (02 R62, 05 R166) -/

/-- Discard the buffered copies of a reader path: a port's read-ahead, or a bank's routines, on the dies of the scope. -/
def discardBuffers (s : State) (reader : Nat) (here : Nat → Bool) : State :=
  match reader with
  | 2 => { s with ports := (s.ports.map fun e =>
      if here (e.1 / 16) then (e.1, { e.2 with ahead := [], aheadTo := e.2.demand }) else e).filter fun e => e.2 != Port.reset }
  | 3 => { s with banks := (s.banks.map fun e =>
      if here (e.1 / 128) then (e.1, { e.2 with routines := [] }) else e).filter fun e => e.2 != Bank.reset }
  | _ => s

/-- PFENCE: every write that is hb-before it has been performed when its done token was sent (02 R56, R57), so it
discards its reader path's copies and passes its token on. -/
def execPfence (o : Op) (s : State) : Host.Outcome State Fault Refusal :=
  .next (fire s o fun s f =>
    let d := f.cluster / 512
    let here (x : Nat) : Bool := decide (3 ≤ immBits o 2 0) || x == d
    .done (discardBuffers s (immBits o 8 6) here) (passTo (destinations s f o) (tokAt f 0)) 0 0)

end Sys2Proof.Machine
end

