-- ==== Sys2Proof/Machine/Stencil.lean ====
section
/-! DEFINITION. The Stencil Copy Engine (08 R251 to R286): descriptors and their checks, acceptance, copies element by
element, stream and ring tiles, marks, chains, and the operators that act on a slot or a queue. -/

namespace Sys2Proof.Machine

/-! ### Descriptors (R258 to R260) -/

structure Level where
  n : Nat
  sstr : Int
  dstr : Int
  deriving DecidableEq, Repr

structure Stencil where
  skind : Nat
  dkind : Nat
  size : Nat
  levels : List Level
  marklvl : Nat
  retain : Bool
  safe : Bool
  rdepth : Nat
  sbase : Int
  dbase : Int
  spstr : Int
  dpstr : Int
  pmax : Nat
  deriving DecidableEq, Repr

def natAt (d : List Byte) (o n : Nat) : Nat := leNat ((d.drop o).take n)
def intAt (d : List Byte) (o n : Nat) : Int :=
  let v : Int := natAt d o n
  if v < 2 ^ (8 * n - 1) then v else v - 2 ^ (8 * n)

/-- Level l of a descriptor. -/
def levelOf (d : List Byte) (l : Nat) : Level :=
  { n := natAt d (48 + 10 * l) 2 + 1, sstr := intAt d (50 + 10 * l) 4, dstr := intAt d (54 + 10 * l) 4 }

/-- The stencil that a descriptor's 128 bytes give. An address base is unsigned. -/
def stencilOf (d : List Byte) : Stencil :=
  { skind := natAt d 0 1, dkind := natAt d 1 1, size := 2 ^ natAt d 2 1, levels := (List.range (natAt d 3 1)).map (levelOf d),
    marklvl := natAt d 4 1, retain := natAt d 5 1 % 2 == 1, safe := natAt d 5 1 / 2 % 2 == 1, rdepth := natAt d 6 2,
    sbase := natAt d 8 8, dbase := natAt d 16 8, spstr := intAt d 24 8, dpstr := intAt d 32 8, pmax := natAt d 40 4 }

def Stencil.isTiles (x : Stencil) : Bool := x.dkind == 2 || x.dkind == 3
def Stencil.isRing (x : Stencil) : Bool := x.dkind == 3

/-- Elements of one firing. -/
def Stencil.count (x : Stencil) : Nat := x.levels.foldl (fun c l => c * l.n) 1
def Stencil.n0 (x : Stencil) : Nat := match x.levels with | l :: _ => l.n | [] => 1
def Stencil.n1 (x : Stencil) : Nat := match x.levels with | _ :: l :: _ => l.n | _ => 1
/-- Elements of a tile step (R262). -/
def Stencil.tileSize (x : Stencil) : Nat := x.n0 * x.n1
def Stencil.pitch (x : Stencil) : Nat := (x.n0 * x.size + 127) / 128

/-- The sum of the level offsets of element e. -/
def levelSum (str : Level → Int) : List Level → Nat → Int
  | [], _ => 0
  | l :: ls, e => (e % l.n : Nat) * str l + levelSum str ls (e / l.n)

/-- src and dst of element e under parameter p (R259). -/
def Stencil.src (x : Stencil) (p e : Nat) : Int := x.sbase + p * x.spstr + levelSum Level.sstr x.levels e
def Stencil.dst (x : Stencil) (p e : Nat) : Int := x.dbase + p * x.dpstr + levelSum Level.dstr x.levels e

def sumInt (l : List Int) : Int := l.foldl (· + ·) 0

/-- The lowest and highest byte of a side for parameters 0 to pmax (R260 step 5). -/
def extent (base pstr : Int) (pmax size : Nat) (strs : List (Nat × Int)) : Int × Int :=
  (base + min 0 (pmax * pstr) + sumInt (strs.map fun e => min 0 (((e.1 - 1 : Nat) : Int) * e.2)),
   base + max 0 (pmax * pstr) + sumInt (strs.map fun e => max 0 (((e.1 - 1 : Nat) : Int) * e.2)) + size - 1)

def Stencil.strides (x : Stencil) (src : Bool) : List (Nat × Int) :=
  x.levels.map fun l => (l.n, if src then l.sstr else l.dstr)

/-- Check 1 of R260: the fields' limits, and zero where R258 says so. -/
def fieldsOk (d : List Byte) (x : Stencil) : Bool :=
  decide (x.skind ≤ 1) && decide (x.dkind ≤ 3) && decide (natAt d 2 1 ≤ 7) && decide (1 ≤ natAt d 3 1) &&
  decide (natAt d 3 1 ≤ 8) && (x.marklvl == 0 || decide (x.marklvl < x.levels.length)) &&
  (!x.isTiles || x.marklvl != 1) && natAt d 5 1 / 4 == 0 && (!x.retain || x.isRing) &&
  (if x.isRing then decide (1 ≤ x.rdepth) && decide (x.rdepth ≤ 16) else x.rdepth == 0) && natAt d 44 4 == 0 &&
  natAt d (48 + 10 * natAt d 3 1) (80 - 10 * natAt d 3 1) == 0

/-- Check 2: multiples of the element size, and zero destinations for a stream or ring. -/
def alignOk (x : Stencil) : Bool :=
  let even (v : Int) : Bool := v % x.size == 0
  even x.sbase && even x.spstr && x.levels.all (fun l => even l.sstr) &&
  (if x.isTiles then (x.isRing || x.dbase == 0) && x.dpstr == 0 && x.levels.all fun l => l.dstr == 0
   else even x.dbase && even x.dpstr && x.levels.all fun l => even l.dstr)

/-- Check 4: a stream or ring tile that R183 allows. -/
def tileShapeOk (x : Stencil) : Bool :=
  !x.isTiles || (decide (x.n0 * x.size ≤ 1024) && decide (x.n1 ≤ 128) && decide (x.pitch * x.n1 ≤ 256))

/-- Check 5 for a side. -/
def rangeOk (tile : Bool) (e : Int × Int) : Bool :=
  decide (0 ≤ e.1) && decide (e.2 ≤ if tile then 32767 else 2 ^ 64 - 1)

/-- R260. -/
def descriptorOk (d : List Byte) : Bool :=
  let x := stencilOf d
  fieldsOk d x && alignOk x && decide (x.count ≤ 2 ^ 32) && tileShapeOk x &&
  rangeOk (x.skind == 1) (extent x.sbase x.spstr x.pmax x.size (x.strides true)) &&
  (x.isTiles || rangeOk (x.dkind == 1) (extent x.dbase x.dpstr x.pmax x.size (x.strides false)))

/-! ### Slots and queues -/

def getSten (s : State) (c i : Nat) : Sten := Tab.get Sten.empty (getCluster s c).sten i
def setSten (s : State) (c i : Nat) (x : Sten) : State :=
  modCluster s c fun k => { k with sten := Tab.set Sten.empty k.sten i x }
def getSQueue (s : State) (c q : Nat) : SQueue := Tab.get SQueue.empty (getCluster s c).queues q
def setSQueue (s : State) (c q : Nat) (x : SQueue) : State :=
  modCluster s c fun k => { k with queues := Tab.set SQueue.empty k.queues q x }

/-- The armed stencil of a slot, numbered 8 × queue + slot. -/
def armed (s : State) (c i : Nat) : Option Stencil := (getSten s c i).desc.map stencilOf

def sOp (x : SFiring) : Op := opWord x.firing.word
def sOpc (x : SFiring) : Nat := bits x.firing.word 124 117

/-- The queue a class-3 word names. -/
def queueOf (opc : Nat) (o : Op) : Nat := if opc = 0 ∨ opc = 6 then immBits o 31 30 else immBits o 4 3

/-- The slot a class-3 word names, numbered 8 × queue + slot. -/
def slotOf (o : Op) : Nat := 8 * immBits o 4 3 + immBits o 2 0

/-! ### Tags of what a firing sends (R262, R266) -/

/-- Marks and final tokens of an SFIRE that sends tiles, and every mark, carry the firing tag under XFM new; a mark under
XFM free goes to the parent and leaves the colour live. -/
def markXfm (x : Xfm) : Xfm := match x with | .new => .keep | .free => .exit | y => y

/-- Emit tokens of a firing under an XFM; none while the colour they need is refused. -/
def stencilEmit (s : State) (f : Firing) (x : Xfm) (outs : List Out) : Option State :=
  match tagUnder s f x with
  | .refused => none
  | tg =>
    let s1 := match tg with | .tag s' _ => s' | _ => s
    some (emit s1 f { opWord f.word with fe := false } x tg outs 0 0)

/-! ### Acceptance (R256) -/

def newSFiring (k : Cluster) (f : Firing) (slot : Nat) : SFiring :=
  { no := k.accepted, firing := f, slot := slot, next := 0, marks := 0, done := 0, bytes := 0, tiles := 0, fail := none,
    cancelled := false, shaken := false, error := none, held := none, failNext := none, tile := none, bad := false,
    tileFail := none, marked := [], filled := [], begun := false, tiled := false, wrote := [] }

/-- The port on which a class-3 word carries a tile that it writes or empties, where its word alone says so. -/
def writtenPort (w : Word128) : Option Nat :=
  match wordOpc w with
  | 0x00 | 0x06 => if immBits (rawOp w) 36 35 = 1 then some 1 else none
  | 0x05 => some 0
  | _ => none

/-- A destination's handle as the node finds it when it fires: R87 step 1, and RES pinned (R255). -/
def handleBad (s : State) (c : Nat) (t : Tok) : Bool :=
  isTile t && (!handleOk s c (handleOf t.payload) || (handleOf t.payload).res != 1)

def stenErrorWord (s : State) (f : Firing) (code : BitVec 8) (elem : Nat) : Word :=
  errorPayload (getRegion s f.region) f.cluster f.slot elem code

/-- The error that a firing carries into its queue. -/
def fireError (s : State) (f : Firing) : Option Word :=
  (writtenPort f.word).bind fun p => if handleBad s f.cluster (tokAt f p) then some (stenErrorWord s f eBOUNDS 0) else none

/-- Accept the current firing into the pending list of the queue its word names; while that list is full the firing
stays matched. -/
def acceptStencil (s : State) (o : Op) : State :=
  let f := s.firing
  let q := queueOf (bits f.word 124 117) o
  let x := getSQueue s f.cluster q
  if 16 ≤ x.pending.length then requeue s f
  else
    let k := getCluster s f.cluster
    let y := { newSFiring k f (slotOf o) with error := fireError s f }
    setSQueue (setCluster s f.cluster { k with accepted := k.accepted + 1 }) f.cluster q { x with pending := x.pending ++ [y] }

def execScopy (o : Op) (s : State) : Host.Outcome State Fault Refusal := .next (acceptStencil s o)
def execSarm (o : Op) (s : State) : Host.Outcome State Fault Refusal := .next (acceptStencil s o)
def execSfire (o : Op) (s : State) : Host.Outcome State Fault Refusal := .next (acceptStencil s o)
def execSchain (o : Op) (s : State) : Host.Outcome State Fault Refusal := .next (acceptStencil s o)
def execSdisarm (o : Op) (s : State) : Host.Outcome State Fault Refusal := .next (acceptStencil s o)
def execSempty (o : Op) (s : State) : Host.Outcome State Fault Refusal := .next (acceptStencil s o)
def execSfill (o : Op) (s : State) : Host.Outcome State Fault Refusal := .next (acceptStencil s o)

/-- Count an accepted firing that enters no queue. -/
def acceptNow (s : State) (c : Nat) : State := modCluster s c fun k => { k with accepted := k.accepted + 1 }

/-- A trigger or parameter port (R269). -/
def trigger (f : Firing) (k : Act) : Act :=
  match scalarPort f 0 with
  | some e => .error e 0
  | none => if portPoison f [0] then .purge else k

/-- SGEN (R277). -/
def execSgen (o : Op) (s : State) : Host.Outcome State Fault Refusal :=
  .next (fire (acceptNow s s.firing.cluster) o fun s f =>
    trigger f (match armed s f.cluster (slotOf o) with
      | none => .error eTYPE_MISMATCH 0
      | some x =>
        let dst := immBit o 8
        let p := portValue f 0
        let rows := x.count / x.n0
        if dst && x.isTiles then .error eTYPE_MISMATCH 0
        else if x.pmax < p ∨ 128 < x.n0 ∨ 4096 < x.count ∨ 128 < rows then .error eBOUNDS 0
        else
          let v (i j : Nat) : Nat :=
            let e := i * x.n0 + j
            ((if dst then x.dst p e else x.src p e) % 2 ^ 64).toNat
          tileResult s f o (tileFrom .n64 rows x.n0 v) [] false))

/-- Positions of the incomplete firings of some queues. -/
def openFirings (k : Cluster) (q : Nat → Bool) : List Nat :=
  k.queues.flatMap fun e => if q e.1 then e.2.pending.map SFiring.no ++ (e.2.issued.map SFiring.no).toList else []

/-- SORDER (R278). -/
def execSorder (o : Op) (s : State) : Host.Outcome State Fault Refusal :=
  .next (fire s o fun s f =>
    trigger f (
      let k := getCluster s f.cluster
      let note : SNote := { no := k.accepted, onto := o.imm.extractLsb' 4 4,
                            noted := openFirings k fun q => immBit o q, region := f.region, slot := f.slot, tag := f.tag }
      let k := { k with accepted := k.accepted + 1, notes := if note.noted.isEmpty then k.notes else k.notes ++ [note] }
      .done (setCluster s f.cluster k) (passTo (destinations s f o) (tokAt f 0)) 0 0))

/-- The firings an SCANCEL acts on: copies of the queue, those of the named slot unless ALL is set. -/
def cancels (o : Op) (x : SFiring) : Bool :=
  match sOpc x with
  | 0x00 | 0x06 => immBit o 5
  | 0x02 => immBit o 5 || slotOf (sOp x) == slotOf o
  | _ => false

/-- The stencil that the firing's own word names sends tiles. -/
def tilesNow (s : State) (x : SFiring) : Bool :=
  sOpc x == 0x02 && ((armed s x.firing.cluster (slotOf (sOp x))).map Stencil.isTiles).getD false

/-- A firing cancelled before it issued. -/
def cancelled (s : State) (x : SFiring) : SFiring := { x with cancelled := true, tiled := tilesNow s x }

/-- SCANCEL (R279): pending firings leave, an issued one stops, and the input token follows when all have sent theirs. -/
def execScancel (o : Op) (s : State) : Host.Outcome State Fault Refusal :=
  .next (fire s o fun s f =>
    trigger f (
      let q := immBits o 4 3
      let k := getCluster s f.cluster
      let x := Tab.get SQueue.empty k.queues q
      let hit := x.pending.filter (cancels o)
      let stop (y : SFiring) : SFiring := if cancels o y then { y with cancelled := true } else y
      let left := hit.map SFiring.no ++ ((x.issued.filter (cancels o)).map SFiring.no).toList
      let x := { x with pending := x.pending.filter (fun y => !cancels o y), issued := x.issued.map stop }
      let k := dropNoted { k with queues := Tab.set SQueue.empty k.queues q x, accepted := k.accepted + 1,
                                  finishing := k.finishing ++ hit.map fun y => (q, cancelled s y) } (hit.map SFiring.no)
      if left.isEmpty then .done (setCluster s f.cluster k) (passTo (destinations s f o) (tokAt f 0)) 0 0
      else .later (setCluster s f.cluster { k with cancels := k.cancels ++ [{ firing := f, left := left }] })))

/-! ### Where elements lie (R270, R272, R276) -/

/-- One side of an element: an exact address, a byte of some cluster's lines, or a value that fills. -/
inductive Side where
  | addr (a : Int)
  | sp (c off : Nat)
  | fill (bs : List Byte)
  deriving DecidableEq, Repr

/-- Byte o of the lines of a tile token. -/
def tileSide (c : Nat) (w : Word) (o : Nat) : Side :=
  let h := handleOf w
  .sp (tileCluster c h) (128 * h.base + o)

def rowOffset (w : Word) (j : Nat) : Nat := j * (handleOf w).pitch * 128
def rowLength (w : Word) : Nat := rowBytes (handleOf w).fmt (handleOf w).epr

/-- The tile ports of an SFIRE: its source, then its destination. -/
def sfireDestPort (x : Stencil) : Nat := if x.skind = 1 then 2 else 1

/-- The bytes of an SFILL row or chunk of n bytes. -/
def fillBytes (f : Fmt) (v n : Nat) : List Byte :=
  let e := match f with | .raw => leBytes 1 v | _ => leBytes (fmtBits f / 8) v
  (List.range n).map fun i => e.getD (i % e.length) 0

/-- How many elements the stage of a firing has. -/
def elemCount (s : State) (x : SFiring) : Nat :=
  let f := x.firing
  let o := sOp x
  match sOpc x with
  | 0x00 => (match immBits o 36 35 with
    | 0 => (immBits o 28 0 + 128) / 128
    | 1 => (handleOf (tokAt f 1).payload).rows
    | _ => (handleOf (tokAt f 0).payload).rows)
  | 0x06 => if immBits o 36 35 = 0 then (immBits o 28 0 + 128) / 128 else (handleOf (tokAt f 1).payload).rows
  | 0x01 => 1
  | 0x02 => ((armed s f.cluster x.slot).map Stencil.count).getD 0
  | _ => 0

/-- Element e of a firing: its source, its destination and its size. -/
def elemSides (s : State) (x : SFiring) (e : Nat) : Side × Side × Nat :=
  let f := x.firing
  let o := sOp x
  let c := f.cluster
  let w0 := (tokAt f 0).payload
  let w1 := (tokAt f 1).payload
  let chunk : Nat := min 128 (immBits o 28 0 + 1 - 128 * e)
  match sOpc x with
  | 0x00 => (match immBits o 36 35 with
    | 0 => (.addr (portValue f 0 + 128 * e), .addr (portValue f 1 + 128 * e), chunk)
    | 1 => (.addr (portValue f 0 + e * immBits o 28 0), tileSide c w1 (rowOffset w1 e), rowLength w1)
    | _ => (tileSide c w0 (rowOffset w0 e), .addr (portValue f 1 + e * immBits o 28 0), rowLength w0))
  | 0x06 =>
    let v := portValue f 0
    if immBits o 36 35 = 0 then (.fill (fillBytes o.fmt v chunk), .addr (portValue f 1 + 128 * e), chunk)
    else (.fill (fillBytes o.fmt v (rowLength w1)), tileSide c w1 (rowOffset w1 e), rowLength w1)
  | _ =>
    match armed s c x.slot with
    | none => (.fill [], .fill [], 0)
    | some t =>
      let p := portValue f 0
      let src := if t.skind = 1 then tileSide c w1 (t.src p e).toNat else .addr (t.src p e)
      let dst := match t.dkind with
        | 0 => .addr (t.dst p e)
        | 1 => tileSide c (tokAt f (sfireDestPort t)).payload (t.dst p e).toNat
        | _ => tileSide c ((x.tile.map Prod.fst).getD 0) (e % t.tileSize / t.n0 * t.pitch * 128 + e % t.n0 * t.size)
      (src, dst, t.size)

/-! ### One element (R259, R269, R280) -/

/-- The port that translates SC and LK accesses issued on a die for a region (09 R296). -/
def copyPort (s : State) (rid d : Nat) : Option Nat :=
  ((List.range 16).map (16 * d + ·)).find? fun p => let q := getPort s p; q.en && q.copy && q.owner.toNat == rid

/-- Where the bytes of a side lie: flat parts, an error, or a miss at a COPY port. -/
inductive Parts where
  | parts (ps : List (Nat × Nat)) (window : Option (Nat × Nat))
  | fail (code : BitVec 8)
  | miss (v port kind : Nat)
  deriving DecidableEq, Repr

def sideParts (s : State) (rid d : Nat) (x : Side) (n : Nat) (write : Bool) : Parts :=
  match x with
  | .fill _ => .parts [] none
  | .sp c o => .parts [(spAddr c o, n)] none
  | .addr a =>
    match locate s (getRegion s rid) a n with
    | .fail c => .fail c
    | .scratch c o => .parts [(spAddr c o, n)] (some (c, o))
    | .bank b =>
      if (unitsOf b n).all fun u => if write then wordMode s u == .plain else readableWord s u then .parts [(b, n)] none
      else .fail eTYPE_MISMATCH
    | .global v =>
      match copyPort s rid d with
      | none => .fail ePAGE_FAIL
      | some p =>
        match translate s (getPort s p).xlate (getPort s p).asid v n write with
        | .parts ps => .parts ps none
        | .miss b => .miss b p (missKind false write)
        | .prot b => .miss b p (missKind true write)
        | .fail => .fail ePAGE_FAIL

/-- Split n bytes from a at the boundaries of 32-byte granules. -/
def granuleChunks (a n : Nat) : List (Nat × Nat) :=
  (List.range ((a + n + 31) / 32 - a / 32)).map fun i =>
    let lo := max a ((a / 32 + i) * 32)
    (lo, min (a + n) ((a / 32 + i + 1) * 32) - lo)

/-- Bytes with the poison of the granule each was read from. -/
def readChunks (s : State) : List (Nat × Nat) → State × List (Byte × Bool)
  | [] => (s, [])
  | (a, n) :: l =>
    let (s, bs, bad) := if kindOf a = .bank then (loadBank s a n).getD (s, [], false) else readMem s a n
    let (s, t) := readChunks s l
    (s, bs.map (fun b => (b, bad)) ++ t)

def readSide (s : State) (x : Side) (ps : List (Nat × Nat)) : State × List (Byte × Bool) :=
  match x with
  | .fill bs => (s, bs.map fun b => (b, false))
  | _ => readChunks s (ps.flatMap fun p => granuleChunks p.1 p.2)

/-- The bytes of a granule that a chunk covers, as a mask. -/
def chunkMask (a n : Nat) : Nat := (2 ^ n - 1) * 2 ^ (a % 32)

/-- What other queues' firings have written. -/
def othersWrote (s : State) (c no : Nat) : List (Nat × Nat × Nat) :=
  s.clusters.flatMap fun e => e.2.queues.flatMap fun y => match y.2.issued with
    | some z => if e.1 = c ∧ z.no = no then [] else z.wrote
    | none => []

/-- The bytes of granule g that unordered firings have written which came to the granule after this one: they stay, so that
the granule ends with one firing's data (R281). -/
def laterBytes (others : List (Nat × Nat × Nat)) (wrote : List (Nat × Nat × Nat)) (g : Nat) : Nat :=
  match wrote.find? fun e => e.1 == g with
  | none => 0
  | some (_, t, _) => (others.filter fun e => e.1 == g && decide (t < e.2.1)).foldl (fun m e => m ||| e.2.2) 0

/-- A firing notes its writes of parts of granules, and of granules that others have written in part. -/
def noteWrite (others : List (Nat × Nat × Nat)) (now : Nat) (wrote : List (Nat × Nat × Nat)) (e : Nat × Nat) :
    List (Nat × Nat × Nat) :=
  let g := e.1 / 32 * 32
  if wrote.any fun x => x.1 == g then wrote.map fun x => if x.1 = g then (g, x.2.1, x.2.2 ||| chunkMask e.1 e.2) else x
  else if e.2 < 32 || others.any fun x => x.1 == g then wrote ++ [(g, now, chunkMask e.1 e.2)]
  else wrote

/-- Write bytes granule by granule, each with the poison of its bytes, but those that kept says stay. -/
def writeChunks (kept : Nat → Nat) (s : State) (data : List (Byte × Bool)) : List (Nat × Nat) → State
  | [] => s
  | (a, n) :: l =>
    let m := kept (a / 32 * 32)
    let stays (i : Nat) : Bool := m.testBit (a % 32 + i)
    let here := ((data.take n).zip (List.range n)).map fun e => if stays e.2 then (Mem.byte s.mem (a + e.2), false) else e.1
    let s := if (List.range n).all stays then s else (writeParts s (here.map Prod.fst) (here.any Prod.snd) [(a, n)]).1
    writeChunks kept s (data.drop n) l

/-- The code with which a write fails: a poisoned 8-byte word written in part, or poison toward the host (10 R323,
12 R389). -/
def writeBlocked (s : State) (data : List (Byte × Bool)) (ps : List (Nat × Nat)) : Option (BitVec 8) :=
  if ps.any fun p => unitOf (kindOf p.1) == 8 && partPoisoned s p.1 p.2 then some ePOISON
  else if data.any Prod.snd && refusesPoison s && ps.any fun p => isHost p.1 then some eHOST_POISON
  else none

/-- What copying one element comes to. -/
inductive Copied where
  | done (s : State) (poison : Bool) (window : Option (Nat × Nat)) (chunks : List (Nat × Nat))
  | fail (s : State) (code : BitVec 8)
  | miss (v port kind : Nat)
  /-- The irrevocable handshake comes first (R269). -/
  | needs

/-- A write that needs the handshake: to the bank window or the global window. -/
def needsShake (x : Side) (w : Option (Nat × Nat)) : Bool := match x with | .addr _ => w.isNone | _ => false

def copyElem (s : State) (f : Firing) (shook : Bool) (sides : Side × Side × Nat) (poisoned : Bool) (kept : Nat → Nat) :
    Copied :=
  let d := f.cluster / 512
  let (a, b, n) := sides
  match sideParts s f.region d a n false with
  | .fail c => .fail s c
  | .miss v p k => .miss v p k
  | .parts ps _ =>
    match sideParts s f.region d b n true with
    | .fail c => .fail s c
    | .miss v p k => .miss v p k
    | .parts qs w =>
      if !shook && needsShake b w then .needs
      else
        let (s, data) := readSide s a ps
        let data := if poisoned then data.map fun e => (e.1, true) else data
        match writeBlocked s data qs with
        | some c => .fail (if c = eHOST_POISON then countRefused s 1 else s) c
        | none =>
          let chunks := qs.flatMap fun q => granuleChunks q.1 q.2
          .done (writeChunks kept s data chunks) (data.any Prod.snd) w chunks

/-! ### Granule marks (R254) -/

/-- The granules that n bytes at offset o of a cluster's scratchpad touch, by line. -/
def touched (c o n : Nat) : List (Nat × BitVec 4) :=
  (granuleChunks o n).map fun e => (c * 2 ^ 14 + e.1 / 128, BitVec.ofNat 4 (2 ^ (e.1 % 128 / 32)))

def markTouched (s : State) (l : List (Nat × BitVec 4)) : State :=
  l.foldl (fun s e => markGranules s (e.1 / 2 ^ 14) (e.1 % 2 ^ 14) e.2) s

/-- Mark every granule of the lines of row j of a tile. -/
def markRow (s : State) (c : Nat) (w : Word) (j : Nat) : State :=
  let h := handleOf w
  (List.range h.pitch).foldl (fun s i => markGranules s (tileCluster c h) (h.base + j * h.pitch + i) 0xF) s

/-- Note n written bytes at offset o of a tile. -/
def fillMask (t : Tab Nat) (o n : Nat) : Tab Nat :=
  (List.range n).foldl (fun t i => Tab.set 0 t ((o + i) / 128) (Tab.get 0 t ((o + i) / 128) ||| 2 ^ ((o + i) % 128))) t

/-- Every byte of row j's elements and scales has been written. -/
def rowFilled (t : Tab Nat) (w : Word) (j : Nat) : Bool :=
  (List.range (rowLength w)).all fun i =>
    let o := rowOffset w j + i
    (Tab.get 0 t (o / 128)).testBit (o % 128)

/-- Note the bytes at offset o that an element has written of a tile, and mark the row they complete. -/
def fillRow (s : State) (x : SFiring) (w : Word) (o n : Nat) : State × SFiring :=
  let m := fillMask x.filled o n
  let j := o / ((handleOf w).pitch * 128)
  (if rowFilled m w j && decide (j < (handleOf w).rows) then markRow s x.firing.cluster w j else s, { x with filled := m })

/-- Byte of element e's place in the tile of its tile step (R262). -/
def tileOffset (t : Stencil) (e : Nat) : Nat := e % t.tileSize / t.n0 * t.pitch * 128 + e % t.n0 * t.size

/-- After element e of a tile, stream or ring destination: mark the rows it completes. -/
def markTile (s : State) (x : SFiring) (e : Nat) : State × SFiring :=
  let f := x.firing
  match sOpc x with
  | 0x00 | 0x06 => if immBits (sOp x) 36 35 = 1 then (markRow s f.cluster (tokAt f 1).payload e, x) else (s, x)
  | 0x02 =>
    match armed s f.cluster x.slot with
    | none => (s, x)
    | some t =>
      match t.dkind with
      | 0 => (s, x)
      | 1 => fillRow s x (tokAt f (sfireDestPort t)).payload (t.dst (portValue f 0) e).toNat t.size
      | _ => fillRow s x ((x.tile.map Prod.fst).getD 0) (tileOffset t e) t.size
  | _ => (s, x)

/-! ### Issue: the checks of R255, R261, R269 -/

/-- A destination tile at its issue: every line's generation is the handle's (R255). -/
def staleDest (s : State) (c : Nat) (t : Tok) : Option (BitVec 8) :=
  let h := handleOf t.payload
  if !isTile t then some eTYPE_MISMATCH
  else if (List.range h.lines).any fun i => (getLine s c (h.base + i)).gen.toNat != h.gen then some eREPLAY_STALE else none

/-- The destination of an SFIRE: R87 step 1 and RES pinned, then the generation (R261). -/
def destError (s : State) (c : Nat) (t : Tok) : Option (BitVec 8) :=
  if handleBad s c t then some eBOUNDS else staleDest s c t

def sourceError (s : State) (f : Firing) (i : Nat) (fmt : Option Fmt) : Option (BitVec 8) :=
  let t := tokAt f i
  if !isTile t then some eTYPE_MISMATCH else checkTile s f.cluster t.payload (fmt.map fun g => [g])

/-- A tile side's offsets pass the end of its lines. -/
def sideOver (w : Word) (base pstr : Int) (p size : Nat) (strs : List (Nat × Int)) : Bool :=
  decide ((handleOf w).lines * 128 ≤ ((extent (base + p * pstr) 0 0 size strs).2).toNat)

/-- The lines of ring slot k of a stencil. -/
def ringLines (t : Stencil) (k : Nat) : Nat := t.dbase.toNat + k * t.pitch * t.n1

/-- Condition 5 of R261. -/
def ringBad (s : State) (f : Firing) (t : Stencil) : Bool :=
  let k := getCluster s f.cluster
  t.isRing && (!k.pinned.any (fun r => r.holds t.dbase.toNat (t.rdepth * t.pitch * t.n1)) ||
    (t.retain && ((opWord f.word).xfm != .new || decide (t.rdepth < (getCtx (getRegion s f.region) f.tag.ctx.toNat).window))))

/-- Conditions 1 to 5 of R261. -/
def sfireError (s : State) (x : SFiring) : Option (BitVec 8) :=
  let f := x.firing
  let o := sOp x
  match armed s f.cluster x.slot with
  | none => some eTYPE_MISMATCH
  | some t =>
    let p := portValue f 0
    let src := if t.skind = 1 then sourceError s f 1 (if o.fmt = .raw then none else some o.fmt) else none
    let dst := if t.dkind = 1 then destError s f.cluster (tokAt f (sfireDestPort t)) else none
    let beyond := (t.skind == 1 && sideOver (tokAt f 1).payload t.sbase t.spstr p t.size (t.strides true)) ||
                (t.dkind == 1 && sideOver (tokAt f (sfireDestPort t)).payload t.dbase t.dpstr p t.size (t.strides false))
    if f.toks.length ≠ sfireDestPort t + (if t.dkind = 1 then 1 else 0) then some eTYPE_MISMATCH
    else if t.pmax < p then some eBOUNDS
    else match firstError [src, dst] with
      | some c => some c
      | none =>
        if beyond then some eBOUNDS
        else if t.isTiles && t.size != (if o.fmt = .raw then 1 else fmtBits o.fmt / 8) then some eTYPE_MISMATCH
        else if ringBad s f t then some eBOUNDS else none

/-- The scalar ports of a queued firing. -/
def scalarPorts (x : SFiring) : List Nat :=
  match sOpc x with
  | 0x00 => (match immBits (sOp x) 36 35 with | 0 => [0, 1] | 1 => [0] | _ => [1])
  | 0x05 => []
  | 0x06 => if immBits (sOp x) 36 35 = 0 then [0, 1] else [0]
  | _ => [0]

/-- The error a queued firing issues with. -/
def issueErrorOf (s : State) (x : SFiring) : Option (BitVec 8) :=
  let f := x.firing
  let o := sOp x
  match firstError ((scalarPorts x).map (scalarPort f)) with
  | some c => some c
  | none =>
    match sOpc x with
    | 0x00 => (match immBits o 36 35 with
      | 0 => none
      | 1 => staleDest s f.cluster (tokAt f 1)
      | _ => sourceError s f 0 none)
    | 0x02 => sfireError s x
    | 0x05 => staleDest s f.cluster (tokAt f 0)
    | 0x06 =>
      if immBits o 36 35 = 1 then
        (match staleDest s f.cluster (tokAt f 1) with
         | some c => some c
         | none => if (handleOf (tokAt f 1).payload).fmt = o.fmt then none else some eTYPE_MISMATCH)
      else
        let n := fmtBits o.fmt / 8
        if (immBits o 28 0 + 1) % n ≠ 0 ∨ portValue f 1 % n ≠ 0 then some eBOUNDS else none
    | _ => none

/-! ### Completion (R266, R269, R279) -/

/-- The destinations of a firing's last token. -/
def lastDests (s : State) (x : SFiring) : List (Nat × Dst) :=
  let ds := destinations s x.firing (sOp x)
  if x.tiled && x.error.isNone then ds.filter fun d => d.1 == 1 else ds

/-- The payload of a done token: bytes or elements performed, or tiles sent; after a cancel with bit 63. -/
def donePayload (x : SFiring) : Nat :=
  let n := if x.tiled then x.tiles else x.done
  if x.cancelled then 2 ^ 63 + n % 2 ^ 32
  else match sOpc x with | 0x00 | 0x06 => x.bytes | _ => n

def lastOuts (s : State) (x : SFiring) : List Out :=
  let ds := lastDests s x
  match x.error, x.cancelled, x.fail with
  | some w, false, _ => outTo ds .error Flag.none w
  | none, false, some (e, c) => outTo ds .error Flag.none (stenErrorWord s x.firing c e)
  | _, _, _ => outWord ds .done false (donePayload x)

/-- Send a firing's last token; none while its colour is refused. -/
def finishFiring (s : State) (x : SFiring) : Option State :=
  let xf := if x.tiled && (sOp x).xfm == .new && x.error.isNone then .keep else (sOp x).xfm
  stencilEmit s x.firing xf (lastOuts s x)

/-- A firing has sent its last token: no SCANCEL waits for it. -/
def noteSent (s : State) (c no : Nat) : State :=
  modCluster s c fun k => { k with cancels := k.cancels.map fun e => { e with left := e.left.filter (· != no) } }

/-- The input tokens of SCANCELs that have nothing left to wait for. -/
def finishCancels (s : State) (c : Nat) : State :=
  let k := getCluster s c
  k.cancels.foldl (fun s e =>
    if !e.left.isEmpty then s
    else
      let f := e.firing
      match stencilEmit s f (opWord f.word).xfm (passTo (destinations s f (opWord f.word)) (tokAt f 0)) with
      | none => s
      | some s => modCluster s c fun k => { k with cancels := k.cancels.filter fun x => x != e }) s

/-- Send the last tokens of firings that have left queue q, those of one node in order. -/
def sendLast (c : Nat) : List SFiring → List (BitVec 11) → State → State
  | [], _, s => s
  | x :: l, waits, s =>
    if waits.contains x.firing.slot then sendLast c l waits s
    else match finishFiring s x with
      | none => sendLast c l (x.firing.slot :: waits) s
      | some s =>
        let s := modCluster s c fun k => { k with finishing := k.finishing.filter fun e => e.2.no != x.no }
        sendLast c l waits (finishCancels (noteSent s c x.no) c)

def finishQueue (s : State) (c q : Nat) : State :=
  sendLast c (((getCluster s c).finishing.filter fun e => e.1 == q).map Prod.snd) [] s

/-- Complete the firing that a queue has issued: its granules are marked, the queue goes on to the next, and its last token
follows once the colour it needs is there (R254, R256). -/
def completeFiring (s : State) (c q : Nat) (x : SFiring) : State :=
  let s := setSQueue (markTouched s x.marked) c q { getSQueue s c q with issued := none }
  finishQueue (modCluster s c fun k =>
    dropNoted { k with finishing := k.finishing ++ [(q, { x with marked := [], tile := none, filled := [], wrote := [] })] }
      [x.no]) c q

/-! ### Operators performed in queue order (R271, R273 to R275) -/

/-- SARM: read at the parts that translation gives, check and arm. -/
def performSarm (s : State) (x : SFiring) (ps : List (Nat × Nat)) : Except (BitVec 8) State :=
  let f := x.firing
  let a := portValue f 0
  let (s, bs) := readSide s (.addr a) ps
  let d := bs.map Prod.fst
  if a % 128 ≠ 0 then .error eBOUNDS
  else if bs.any Prod.snd then .error ePOISON
  else if !descriptorOk d then .error eBOUNDS
  else .ok (setSten s f.cluster x.slot { desc := some d, link := none, cursor := 0 })

/-- The slots that links reach from a slot. -/
def chainFrom (s : State) (c : Nat) : Nat → Nat → List Nat
  | 0, _ => []
  | n + 1, i => i :: (match (getSten s c i).link with | some j => chainFrom s c n j | none => [])

/-- The longest run of links that ends at a slot. -/
def chainTo (s : State) (c : Nat) : Nat → Nat → Nat
  | 0, _ => 0
  | n + 1, i =>
    1 + (((List.range 32).filter fun j => (getSten s c j).link == some i).map fun j => chainTo s c n j).foldl max 0

/-- SCHAIN: link or unlink. -/
def performSchain (s : State) (x : SFiring) : Except (BitVec 8) State :=
  let o := sOp x
  let c := x.firing.cluster
  let src := 8 * immBits o 4 3 + immBits o 2 0
  let dst := 8 * immBits o 4 3 + immBits o 7 5
  if immBit o 8 then .ok (setSten s c src { getSten s c src with link := none })
  else match armed s c src, armed s c dst with
    | some _, some t =>
      let after := chainFrom s c 32 dst
      if t.skind ≠ 0 ∨ t.dkind ≠ 0 ∨ after.contains src ∨ 8 < chainTo s c 32 src + after.length then .error eBOUNDS
      else .ok (setSten s c src { getSten s c src with link := some dst })
    | _, _ => .error eBOUNDS

/-- SDISARM: unarm, and clear every link from or to the slot. -/
def performSdisarm (s : State) (x : SFiring) : State :=
  let i := x.slot
  modCluster s x.firing.cluster fun k =>
    { k with sten := ((k.sten.filter fun e => e.1 != i).map fun e =>
        if e.2.link = some i then (e.1, { e.2 with link := none }) else e).filter fun e => e.2 != Sten.empty }

/-- Empty the lines of a run and advance each generation (02 R47). -/
def emptyLines (s : State) (c first n : Nat) : State :=
  (List.range n).foldl (fun s i =>
    setLine s c (first + i) { full := false, gen := (getLine s c (first + i)).gen + 1, written := 0 }) s

/-- SEMPTY: the state, and the handle under the next generation. -/
def performSempty (s : State) (x : SFiring) : State × Word :=
  let h := handleOf (tokAt x.firing 0).payload
  (emptyLines s x.firing.cluster h.base h.lines, { h with gen := (h.gen + 1) % 16 }.word)

/-! ### Issue (R256, R278) -/

/-- An SORDER note holds this firing back. -/
def orderedBack (k : Cluster) (q : Nat) (x : SFiring) : Bool :=
  k.notes.any fun n => n.onto.getLsbD q && decide (n.no < x.no) && !n.noted.isEmpty

/-- The lines of a source tile as its firing's issue finds them (01 R27; notes/assumptions/120.md). -/
def sourceLines (s : State) (x : SFiring) : LinesAre :=
  let f := x.firing
  let port : Option Nat := match sOpc x with
    | 0x00 => if immBits (sOp x) 36 35 = 2 then some 0 else none
    | 0x02 => if ((armed s f.cluster x.slot).map Stencil.skind).getD 0 = 1 then some 1 else none
    | _ => none
  match port with
  | none => .ready
  | some p =>
    let t := tokAt f p
    if isTile t && handleOk s f.cluster (handleOf t.payload) then linesAre s f.cluster (handleOf t.payload) else .ready

/-- Hold an element at a page fault of a COPY port: a ticket under the queue's number as its generator. None while R19
refuses the ticket's colour. -/
def holdElem (s : State) (x : SFiring) (q v p kind : Nat) : Option (State × SFiring) :=
  let port := getPort s p
  let seq := Tab.get 0 port.seqs q + 1
  let t := ticketWord (p / 16) false (p % 16) q seq.toNat kind port.asid
  let direct := missIsDirect s t
  (raiseMiss s t v).map fun s => (modPort s p fun y => { y with seqs := Tab.set 0 y.seqs q seq },
    { x with held := some { addr := BitVec.ofNat 64 v, ticket := t, escalated := direct }, begun := true })

/-- SARM's one element, its descriptor: read, or held at a page fault like any element (R269, R271). -/
def sarmStep (s : State) (c q : Nat) (x : SFiring) : State :=
  let f := x.firing
  let done (s : State) (x : SFiring) : State := completeFiring s c q { x with next := 1, begun := false, failNext := none }
  let bad (code : BitVec 8) : State := done s { x with error := some (stenErrorWord s f code 0) }
  match x.failNext with
  | some code => bad code
  | none =>
    match sideParts s f.region (f.cluster / 512) (.addr (portValue f 0)) 128 false with
    | .fail code => bad code
    | .parts ps _ => (match performSarm s x ps with | .ok s => done s x | .error code => bad code)
    | .miss v p k =>
      if portValue f 0 % 128 ≠ 0 then bad eBOUNDS
      else match holdElem s x q v p k with
        | none => s
        | some (s, x) => modIssued s c q fun _ => x

/-- Issue a pending firing: an error firing, an operator of the queue, or a copy whose elements follow. -/
def issueFiring (s : State) (c q : Nat) (x : SFiring) : State :=
  let f := x.firing
  let x := { x with tiled := tilesNow s x }
  let put (s : State) (x : SFiring) : State := setSQueue s c q { getSQueue s c q with issued := some x }
  let done (s : State) (x : SFiring) : State := completeFiring (put s x) c q x
  let bad (code : BitVec 8) : State := done s { x with error := some (stenErrorWord s f code 0) }
  match f.toks.find? fun t => t.kind == .error with
  | some t => done s { x with error := some t.payload }
  | none =>
    if portPoison f (scalarPorts x) then
      modCluster (requestPurge s f.region f.tag) c fun k => dropNoted k [x.no]
    else if x.error.isSome then done s x
    else match issueErrorOf s x with
      | some code => bad code
      | none =>
        if f.stale || sourceLines s x == .stale then bad eREPLAY_STALE
        else match sOpc x with
          | 0x01 => sarmStep (put s x) c q x
          | 0x03 => (match performSchain s x with | .ok s => done s x | .error code => bad code)
          | 0x04 => done (performSdisarm s x) x
          | 0x05 =>
            let (s, w) := performSempty s x
            done s { x with done := w.toNat }
          | _ => put s x

/-! ### Elements, marks and chains -/

/-- The levels below which every index of element e is at its last value: the closing level of a mark. -/
def closingLevel (ls : List Level) (e : Nat) : Nat :=
  match ls with
  | [] => 0
  | l :: t => if e % l.n = l.n - 1 then 1 + closingLevel t (e / l.n) else 0

/-- A mark follows element e: it ends a run of levels 0 to MARKLVL − 1 and not the firing (R265). -/
def markAt (t : Stencil) (e : Nat) : Option Nat :=
  let l := closingLevel t.levels e
  if t.marklvl ≠ 0 ∧ t.marklvl ≤ l ∧ l < t.levels.length then some l else none

/-- Send the mark that element e calls for; none while its colour is refused. -/
def sendMark (s : State) (x : SFiring) (e : Nat) : Option (State × SFiring) :=
  match if sOpc x = 0x02 then armed s x.firing.cluster x.slot else none with
  | none => some (s, x)
  | some t =>
    match markAt t e with
    | none => some (s, x)
    | some l =>
      let f := x.firing
      let ds := (destinations s f (sOp x)).filter fun d => d.1 == 1
      (stencilEmit (markTouched s x.marked) f (markXfm (sOp x).xfm) (outWord ds .done false (x.marks * 2 ^ 32 + l))).map
        fun s => (s, { x with marks := x.marks + 1, marked := [] })

/-- Tile operands that carry POISON mark what is copied from them (R269). -/
def sourcePoisoned (s : State) (x : SFiring) : Bool :=
  match sOpc x with
  | 0x00 => immBits (sOp x) 36 35 == 2 && portPoison x.firing [0]
  | 0x02 => ((armed s x.firing.cluster x.slot).map fun t => t.skind == 1).getD false && portPoison x.firing [1]
  | _ => false

def firingSafe (s : State) (x : SFiring) : Bool :=
  match sOpc x with
  | 0x02 => ((armed s x.firing.cluster x.slot).map Stencil.safe).getD false
  | _ => immBit (sOp x) 29

/-- What performing an element comes to. -/
inductive Stepped where
  | next (s : State) (x : SFiring)
  /-- Held by a page fault. -/
  | held (s : State) (x : SFiring)
  /-- The home cluster refuses the irrevocable effect: the firing ends. -/
  | gone (s : State)

def failAt (x : SFiring) (e : Nat) (c : BitVec 8) : SFiring :=
  { x with next := x.next + 1, begun := false, fail := (match x.fail with | none => some (e, c) | some y => some y),
           tileFail := (match x.tileFail with | none => some (e, c) | some y => some y) }

/-- Perform element x.next. -/
def performNext (s : State) (q : Nat) (x : SFiring) : Stepped :=
  let f := x.firing
  let e := x.next
  match x.failNext with
  | some c => .next s { failAt x e c with failNext := none }
  | none =>
    let sides := elemSides s x e
    let others := othersWrote s f.cluster x.no
    let copy (s : State) (shook : Bool) : Copied :=
      copyElem s f shook sides (sourcePoisoned s x) (laterBytes others x.wrote)
    let did (s : State) (d : Copied) (x : SFiring) : Stepped :=
      match d with
      | .done s bad w chunks =>
        let x := { x with next := e + 1, begun := false, done := x.done + 1, bytes := x.bytes + sides.2.2, bad := x.bad || bad,
                          wrote := chunks.foldl (noteWrite others s.steps) x.wrote,
                          marked := (match w with | some p => x.marked ++ touched p.1 p.2 sides.2.2 | none => x.marked) }
        let (s, x) := markTile s x e
        .next s x
      | .fail s c => .next s (failAt x e c)
      | .miss v p k => (match holdElem s x q v p k with | none => .next s x | some (s, x) => .held s x)
      | .needs => .gone s
    match copy s (x.shaken || firingSafe s x) with
    | .needs =>
      (match handshake s f.region f.tag with
       | none => .gone s
       | some s => did s (copy s true) { x with shaken := true })
    | d => did s d x

/-- The chain's next stencil, when the firing has issued the last element of one (R273). -/
def chainNext (s : State) (x : SFiring) : Option (Except Unit Nat) :=
  if sOpc x ≠ 0x02 ∨ x.cancelled then none
  else match (getSten s x.firing.cluster x.slot).link with
    | none => none
    | some j =>
      match armed s x.firing.cluster j with
      | some t => if t.skind ≠ 0 ∨ t.dkind ≠ 0 ∨ t.pmax < portValue x.firing 0 then some (.error ()) else some (.ok j)
      | none => some (.error ())

/-- Go on with the chain, or complete. -/
def afterLast (s : State) (c q : Nat) (x : SFiring) : State :=
  match chainNext s x with
  | none => completeFiring s c q x
  | some (.ok j) => modIssued s c q fun _ => { x with slot := j, next := 0, filled := [] }
  | some (.error ()) =>
    let x := { x with fail := match x.fail with | none => some (0, eBOUNDS) | some y => some y }
    completeFiring s c q x

/-- Put a firing back after a step, or drop it. -/
def putStep (s : State) (c q : Nat) (r : Stepped) : State :=
  match r with
  | .next s x => modIssued s c q fun _ => x
  | .held s x => modIssued s c q fun _ => x
  | .gone _ =>
    let no := (((getSQueue s c q).issued).map SFiring.no).getD 0
    modCluster (noteSent (setSQueue s c q { getSQueue s c q with issued := none }) c no) c fun k => dropNoted k [no]

/-- The firing's current stencil sends tiles: its steps are the tile-step events. -/
def inTiles (s : State) (x : SFiring) : Bool :=
  sOpc x == 0x02 && ((armed s x.firing.cluster x.slot).map Stencil.isTiles).getD false

/-- A queue moves on: firings that have left it send their last tokens, and it issues its next pending firing, or performs
the next element of the one it has issued, sends its marks, follows its chain and completes it. A cancelled firing still
performs an element that a page fault held (R279). -/
def execStencilQueueIssue (c q : Nat) (s : State) : Host.Outcome State Fault Refusal :=
  let s := finishCancels (finishQueue s c q) c
  let y := getSQueue s c q
  .next (match y.issued with
    | none =>
      (match y.pending with
       | [] => s
       | x :: rest =>
         if isStopped s x.firing.region || orderedBack (getCluster s c) q x || sourceLines s x == .waiting then s
         else issueFiring (setSQueue s c q { y with pending := rest }) c q x)
    | some x =>
      let last := elemCount s x
      if x.held.isSome then s
      else if x.error.isSome || (x.cancelled && !x.begun) then completeFiring s c q x
      else if sOpc x = 1 then sarmStep s c q x
      else if x.cancelled then putStep s c q (performNext s q x)
      else if x.tile.isSome || (inTiles s x && decide (x.next < last)) then s
      else if last ≤ x.next then afterLast s c q x
      else match performNext s q x with
        | .next s' x' =>
          if x'.next = x.next then putStep s c q (.next s' x')
          else (match sendMark s' x' x.next with
            | none => s
            | some (s, x) => putStep s c q (.next s x))
        | r => putStep s c q r)

/-! ### Tile steps (R262 to R264) -/

/-- Perform elements up to position stop; a fault or a refusal ends the run. -/
def performUpTo (q stop : Nat) : Nat → State → SFiring → Stepped
  | 0, s, x => .next s x
  | n + 1, s, x =>
    if stop ≤ x.next then .next s x
    else match performNext s q x with
      | .next s' x' => if x'.next = x.next then .next s' x' else performUpTo q stop n s' x'
      | r => r

/-- The lines of a ring tile that is not sent are left empty (R269). -/
def leaveEmpty (s : State) (c : Nat) (h : Handle) : State :=
  (List.range h.lines).foldl (fun s i => setLine s c (h.base + i) { getLine s c (h.base + i) with full := false, written := 0 }) s

/-- Send the tile of a finished tile step, or the error in its place; none while its colour is refused. -/
def sendTile (s : State) (x : SFiring) (t : Stencil) : Option (State × SFiring) :=
  let f := x.firing
  let o := sOp x
  let w := (x.tile.map Prod.fst).getD 0
  let h := handleOf w
  let ds := destinations s f o
  let lastOne := decide (t.count ≤ x.next)
  let clear (x : SFiring) : SFiring := { x with tile := none, bad := false, tileFail := none, filled := [] }
  match x.tileFail with
  | some (e, c) =>
    (stencilEmit (leaveEmpty s f.cluster h) f (markXfmTile o.xfm) (outTo (ds.filter fun d => d.1 == 0) .error Flag.none (stenErrorWord s f c e))).map
      fun s => (s, clear x)
  | none =>
    (stencilEmit s f (markXfmTile o.xfm)
      (outTo (ds.filter fun d => d.1 != 1) .tile { poisonFlag x.bad with last := lastOne } w)).map
      fun s => (s, { clear x with tiles := x.tiles + 1 })
where
  /-- A tile leaves the colour live under XFM free. -/
  markXfmTile (x : Xfm) : Xfm := match x with | .free => .exit | y => y

/-- A tile step: take the lines when none are taken, copy the tile's elements, then send its token and its mark. -/
def tileStep (s : State) (c q : Nat) (take : State → SFiring → Stencil → Option (State × Word)) (ring : Bool) : State :=
  match (getSQueue s c q).issued with
  | none => s
  | some x =>
    match if sOpc x = 0x02 then armed s c x.slot else none with
    | none => s
    | some t =>
      if !t.isTiles || t.isRing != ring || x.held.isSome || x.cancelled || x.error.isSome || (x.tile.isNone && decide (t.count ≤ x.next)) then s
      else
        let start : Option (State × SFiring) := match x.tile with
          | some _ => some (s, x)
          | none => (take s x t).map fun r => (r.1, { x with tile := some (r.2, x.next + t.tileSize), filled := [] })
        match start with
        | none => s
        | some (s, x) =>
          let stop := (x.tile.map Prod.snd).getD 0
          match performUpTo q stop t.tileSize s x with
          | .next s x =>
            if x.next < stop then modIssued s c q fun _ => x
            else (match sendTile s x t with
              | none => modIssued s c q fun _ => x
              | some (s', x') =>
                (match sendMark s' x' (x'.next - 1) with
                 | none => modIssued s c q fun _ => x
                 | some (s, x) => modIssued s c q fun _ => x))
          | r => putStep s c q r

/-- The handle of a tile step's tile over given lines. -/
def stepHandle (x : SFiring) (t : Stencil) (base gen res : Nat) : Word :=
  (newHandle (sOp x).fmt t.n1 t.n0 base gen res (x.firing.cluster % 512)).word

/-- A stream step takes lines of the pool (R262). -/
def takeStream (s : State) (x : SFiring) (t : Stencil) : Option (State × Word) :=
  let f := x.firing
  (allocLines s f.region f.cluster f.tag (t.pitch * t.n1)).map fun r => (r.1, stepHandle x t r.2.1 r.2.2.toNat 0)

/-- Give the lines of a ring slot one new generation, empty. -/
def refresh (s : State) (c base n : Nat) : State × Nat :=
  let k := getCluster s c
  let g := newGen k base n
  (setCluster s c (freshLines k base n g), g.toNat)

def stepCursor (s : State) (c i : Nat) : State := setSten s c i { getSten s c i with cursor := (getSten s c i).cursor + 1 }

/-- A ring step without RETAIN waits until every line of the slot is empty (R263). -/
def takeRing (s : State) (x : SFiring) (t : Stencil) : Option (State × Word) :=
  let c := x.firing.cluster
  let n := t.pitch * t.n1
  let base := ringLines t ((getSten s c x.slot).cursor.toNat % max 1 t.rdepth)
  let ls := (List.range n).map fun i => getLine s c (base + i)
  if ls.any Line.full then none
  else
    let g0 := (getLine s c base).gen
    let (s, g) := if ls.all fun l => l.gen == g0 then (s, g0.toNat) else refresh s c base n
    some (stepCursor s c x.slot, stepHandle x t base g 1)

/-- The carried tiles that the spawn records of a region name: cluster and lines. A handle's OWNER lies on the die of the
node that created the colour (R152). -/
def spawnTiles (s : State) (r : Region) : List (Nat × Nat × Nat) :=
  r.ctxs.flatMap fun e =>
    (e.2.live.map Colour.line ++ e.2.waiting.map Waiting.line).flatMap fun l =>
      let a := spawnAddr s r e.1 l
      let node := dstOf (peek s a 4)
      let die := (r.dies.getD node.die.toNat none).getD (((homeOf s r e.1).getD 0) / 512)
      ((carriedOf s a).filter fun y => isTile y.1).map fun y =>
        let h := handleOf y.1.payload
        (clusterKey die h.owner, h.base, h.lines)

/-- A retained ring step waits until no spawn record names a line of the slot, then empties it (R264). -/
def takeRetained (s : State) (x : SFiring) (t : Stencil) : Option (State × Word) :=
  let c := x.firing.cluster
  let n := t.pitch * t.n1
  let base := ringLines t ((getSten s c x.slot).cursor.toNat % max 1 t.rdepth)
  if (spawnTiles s (getRegion s x.firing.region)).any fun e =>
      e.1 == c && decide (e.2.1 < base + n) && decide (base < e.2.1 + e.2.2) then none
  else
    let (s, g) := refresh s c base n
    some (stepCursor s c x.slot, stepHandle x t base g 1)

def execStreamTileStep (c q : Nat) (s : State) : Host.Outcome State Fault Refusal :=
  .next (tileStep s c q takeStream false)

def execRingTileStep (c q : Nat) (s : State) : Host.Outcome State Fault Refusal :=
  .next (tileStep s c q (fun s x t => if t.retain then none else takeRing s x t) true)

def execRetainedRingStep (c q : Nat) (s : State) : Host.Outcome State Fault Refusal :=
  .next (tileStep s c q (fun s x t => if t.retain then takeRetained s x t else none) true)

end Sys2Proof.Machine
end

