-- ==== Sys2Proof/Machine/Image.lean ====
section
/-! DEFINITION. Graph images: their layout, the checks of the loader, and what a load writes (03 R103 to R105; 01 R15, R18,
R35, R40, R42; 05 R151, R152, R162, R167; 08 R253; 09 R290). -/

namespace Sys2Proof.Machine

/-! ### Reading and writing bytes as a thread does (04 R112, R113, R120) -/

/-- The bytes of some chunks at a thread's addresses, each with the poison of the granule it was read from. -/
def fetchChunks (th : Nat) (w : Word) : List (Nat × Nat) → State → Hawk (List (Byte × Bool))
  | [], s => .ok s []
  | (a, n) :: rest, s =>
    (hawkLoc s th (word a) n false w).andThen fun s l =>
      let got : Option (State × List Byte × Bool) := match l with
        | .mem p => some (readMem s p n)
        | .bank p _ => loadBank s p n
        | _ => none
      match got with
      | none => .trap cHPAGE 3 (word a)
      | some (s, bs, bad) => (fetchChunks th w rest s).andThen fun s t => .ok s (bs.map (fun b => (b, bad)) ++ t)

def fetchBytes (s : State) (th : Nat) (a : Word) (n : Nat) (w : Word) : Hawk (List (Byte × Bool)) :=
  fetchChunks th w (granuleChunks a.toNat n) s

/-- Bytes none of which may read as poisoned. -/
def soundBytes (s : State) (a : Word) (bs : List (Byte × Bool)) : Hawk (List Byte) :=
  match bs.findIdx? Prod.snd with
  | some i => .trap cPOISON 0 (a + word i)
  | none => .ok s (bs.map Prod.fst)

/-- Write chunks at a thread's addresses: whether a poisoned granule was refused by the host (12 R389). -/
def putChunks (th : Nat) (w : Word) (data : List (Byte × Bool)) : List (Nat × Nat) → State → Hawk Bool
  | [], s => .ok s false
  | (a, n) :: rest, s =>
    let bs := (data.take n).map Prod.fst
    let bad := (data.take n).any Prod.snd
    (hawkLoc s th (word a) n true w).andThen fun s l =>
      let put : Hawk Bool := match l with
        | .mem p =>
          let r := writeParts s bs bad [(p, n)]
          if r.2 = .poison then .trap cPOISON 0 (word a) else .ok r.1 (r.2 == .refused)
        | .bank p _ => match storeBank s p bs bad with
          | .error c => if c = ePOISON then .trap cPOISON 0 (word a) else .trap cHPAGE 3 (word a)
          | .ok s => .ok s false
        | _ => .trap cHPAGE 3 (word a)
      put.andThen fun s x => (putChunks th w (data.drop n) rest s).andThen fun s y => .ok s (x || y)

def storeBytes (s : State) (th : Nat) (a : Word) (data : List (Byte × Bool)) (w : Word) : Hawk Bool :=
  putChunks th w data (granuleChunks a.toNat data.length) s

/-! ### CRC-32 (IEEE 802.3) -/

def crc32Byte (c : BitVec 32) (b : Byte) : BitVec 32 :=
  (List.range 8).foldl (fun c _ => if c.getLsbD 0 then (c >>> 1) ^^^ 0xEDB88320 else c >>> 1) (c ^^^ b.zeroExtend 32)

def crc32 (bs : List Byte) : BitVec 32 := ~~~(bs.foldl crc32Byte 0xFFFFFFFF)

/-! ### Relative clusters (03 R76) -/

def originOf (r : Region) : Nat := if r.whole then 0 else 16 * r.row0 + r.col0

/-- What is added to a relative cluster field, and to an absolute one to make it relative. -/
def toAbsolute (r : Region) : BitVec 9 := BitVec.ofNat 9 (originOf r)
def toRelative (r : Region) : BitVec 9 := 0 - toAbsolute r

def moveDst (o : BitVec 9) (d : Dst) : Dst := { d with cluster := d.cluster + o }

/-- Move the CLUSTER fields of an operator word's destinations. -/
def moveWord (o : BitVec 9) (w : Word128) : Word128 :=
  w.extractLsb' 64 64 ++ (moveDst o (Dst.ofWord (w.extractLsb' 32 32))).word ++ (moveDst o (Dst.ofWord (w.extractLsb' 0 32))).word

/-- Replace n bits of a word. -/
def setField (w : Word128) (lo n v : Nat) : Word128 :=
  (w &&& ~~~(BitVec.ofNat 128 ((2 ^ n - 1) * 2 ^ lo))) ||| BitVec.ofNat 128 (v % 2 ^ n * 2 ^ lo)

/-- Move the CLUSTER fields of a route word's entries in use. -/
def moveRoute (o : BitVec 9) (n : Nat) (w : Word128) : Word128 :=
  (List.range n).foldl (fun w i => setField w (21 * i + 10) 9 (w.extractLsb' (21 * i + 10) 9 + o).toNat) w

/-! ### Sections (R103, R104) -/

structure Sect where
  type : Nat
  data : List Byte
  count : Nat
  deriving DecidableEq, Repr

/-- The entries of a section table: type, offset, size and count. -/
def sectTable (bs : List Byte) (n : Nat) : List (Nat × Nat × Nat × Nat) :=
  (List.range n).map fun i =>
    (natAt bs (16 * i) 4, natAt bs (16 * i + 4) 4, natAt bs (16 * i + 8) 4, natAt bs (16 * i + 12) 4)

/-- Bytes of an image or sheet whose header takes hdr bytes: to the end of its last section. -/
def extentOf (hdr : Nat) (tab : List (Nat × Nat × Nat × Nat)) : Nat :=
  tab.foldl (fun m e => max m (e.2.1 + e.2.2.1)) (hdr + 16 * tab.length)

/-- Cut the sections out of the bytes, offset 0 the start of the header. -/
def sectsOf (bs : List Byte) (tab : List (Nat × Nat × Nat × Nat)) : List Sect :=
  tab.map fun e => { type := e.1, data := (bs.drop e.2.1).take e.2.2.1, count := e.2.2.2 }

def sectsOfType (l : List Sect) (t : Nat) : List Sect := l.filter fun x => x.type == t

/-- The records of a section, size bytes each. -/
def recsOf (size : Nat) (x : Sect) : List (List Byte) := (List.range x.count).map fun i => (x.data.drop (size * i)).take size
def allRecs (l : List Sect) (t size : Nat) : List (List Byte) := (sectsOfType l t).flatMap (recsOf size)

structure OpRec where
  die : Nat
  ctx : Nat
  cl : Nat
  slot : Nat
  kind : Nat
  word : Word128
  deriving DecidableEq, Repr

structure CtxRec where
  ctx : Nat
  die : Nat
  cl : Nat
  window : Nat
  maxtile : Nat
  deriving DecidableEq, Repr

structure ScrRec where
  die : Nat
  cl : Nat
  first : Nat
  len : Nat
  kind : Nat
  ctx : Nat
  deriving DecidableEq, Repr

structure DataRec where
  die : Nat
  cl : Nat
  first : Nat
  bytes : List Byte
  deriving DecidableEq, Repr

/-- A RATES record: its place, the tokens declared and the depth of the buffer (R104). -/
structure RateRec where
  die : Nat
  cl : Nat
  tokens : Nat
  depth : Nat
  deriving DecidableEq, Repr

structure Image where
  flags : Nat
  shape : Nat × Nat × Nat × Nat
  nsink : Nat
  ops : List OpRec
  ctxs : List CtxRec
  scratch : List ScrRec
  scratchBytes : List Byte
  entries : List Tok
  rates : List RateRec
  rateBytes : List Byte
  data : List DataRec
  hawk : List (Word × List Byte)
  deriving DecidableEq, Repr

def opRecOf (b : List Byte) : OpRec :=
  { die := natAt b 0 1, ctx := natAt b 1 1, cl := natAt b 2 2, slot := natAt b 4 2, kind := natAt b 6 2,
    word := BitVec.ofNat 128 (natAt b 8 16) }
def ctxRecOf (b : List Byte) : CtxRec :=
  { ctx := natAt b 0 1, die := natAt b 1 1, cl := natAt b 2 2, window := natAt b 4 2, maxtile := natAt b 6 2 }
def scrRecOf (b : List Byte) : ScrRec :=
  { die := natAt b 0 1, cl := natAt b 2 2, first := natAt b 4 2, len := natAt b 6 2, kind := natAt b 8 2,
    ctx := natAt b 10 2 }
def tokRecOf (b : List Byte) : Tok := tokOf (word (natAt b 0 8)) (word (natAt b 8 8))

/-- The records of a DATA section; none where the bytes end first. -/
def dataRecs : Nat → List Byte → Option (List DataRec)
  | 0, _ => some []
  | n + 1, b =>
    let k := natAt b 6 2
    if b.length < 8 + k then none
    else (dataRecs n (b.drop (8 + (k + 7) / 8 * 8))).map fun l =>
      { die := natAt b 0 1, cl := natAt b 2 2, first := natAt b 4 2, bytes := (b.drop 8).take k } :: l

/-- Bytes of one record of a section type of a graph image. -/
def imageRec (t : Nat) : Nat :=
  match t with | 1 => 24 | 2 => 8 | 3 => 12 | 4 => 16 | 5 => 12 | _ => 0

/-- A section that the loader takes (LOAD_BADIMG otherwise). -/
def sectOk (x : Sect) : Bool :=
  if 2 ^ 31 ≤ x.type then true
  else decide (1 ≤ x.type) && decide (x.type ≤ 8) && decide (x.count * imageRec x.type ≤ x.data.length) &&
    (x.type != 6 || (dataRecs x.count x.data).isSome) && (x.type != 7 || decide (8 ≤ x.data.length))

def imageOf (hdr : List Byte) (l : List Sect) : Image :=
  { flags := natAt hdr 6 2, shape := (natAt hdr 8 1, natAt hdr 9 1, natAt hdr 10 1, natAt hdr 11 1), nsink := natAt hdr 16 4,
    ops := (allRecs l 1 24).map opRecOf, ctxs := (allRecs l 2 8).map ctxRecOf, scratch := (allRecs l 3 12).map scrRecOf,
    scratchBytes := (sectsOfType l 3).flatMap fun x => x.data.take (12 * x.count), entries := (allRecs l 4 16).map tokRecOf,
    rates := (allRecs l 5 12).map fun b => { die := natAt b 0 1, cl := natAt b 2 2, tokens := natAt b 8 2, depth := natAt b 10 2 },
    rateBytes := (sectsOfType l 5).flatMap fun x => x.data,
    data := (sectsOfType l 6).flatMap fun x => (dataRecs x.count x.data).getD [],
    hawk := (sectsOfType l 7).map fun x => (word (natAt x.data 0 8), x.data.drop 8) }

/-- The image that some bytes hold, or LOAD_BADIMG. -/
def parseImage (bs : List Byte) : Option Image :=
  let n := natAt bs 14 2
  let tab := sectTable (bs.drop 64) n
  let l := sectsOf bs tab
  if natAt bs 0 4 ≠ 0x4947584B ∨ natAt bs 4 2 ≠ 1 ∨ crc32 (bs.drop 64) ≠ BitVec.ofNat 32 (natAt bs 20 4) then none
  else if !(tab.all fun e => decide (e.2.1 + e.2.2.1 ≤ bs.length)) || !(l.all sectOk) then none
  else some (imageOf bs l)

/-! ### The checks of the loader (R105) -/

def loadBadimg : Nat := 1
def loadShape : Nat := 2
def loadBadop : Nat := 3
def loadPlace : Nat := 4
def loadWindow : Nat := 5
def loadPool : Nat := 6
def loadRate : Nat := 7

/-- A region die index and relative cluster name a cluster of the region (R15, R36, R39). A die of another package answers
for its own clusters (01 R32). -/
def placeOk (s : State) (r : Region) (i rel : Nat) : Bool :=
  match r.absolute rel with
  | none => false
  | some c => (regionCluster s r i c).isSome || ((r.dies.getD i none).isNone && (Tab.get 0 r.span i : Word).getLsbD 63)

def shapeOk (r : Region) (m : Image) : Bool :=
  if r.whole then m.shape == (1, 0, 0, (r.dies.filter Option.isSome).length + (r.span.filter fun e => bits e.2 15 4 != ownPackage).length)
  else m.shape == (0, r.rows, r.cols, 1)

def recAt (ops : List OpRec) (die cl slot : Nat) : Option OpRec :=
  ops.find? fun x => x.die == die && x.cl == cl && x.slot == slot

def isOpRec (x : OpRec) : Bool := x.kind % 4 == 0
def recRwi (x : OpRec) : Nat := wordRwi x.word

/-- Route-word entries that the record before a slot gives it. -/
def routeRwi (ops : List OpRec) (x : OpRec) : Nat :=
  if x.slot = 0 then 0
  else match recAt ops x.die x.cl (x.slot - 1) with
    | some p => if isOpRec p then recRwi p else 0
    | none => 0

/-- The destinations of an operator record: DST0, DST1 and the route-word entries in use. -/
def recDests (ops : List OpRec) (x : OpRec) : List Dst :=
  let o := rawOp x.word
  (if o.dst0.valid then [o.dst0] else []) ++ (if o.dst1.valid then [o.dst1] else []) ++
  match recAt ops x.die x.cl (x.slot + 1) with
  | some w => (List.range (recRwi x)).map (routeDst w.word (BitVec.ofNat 3 x.die))
  | none => []

/-- A destination names a cluster of the region, no route word, and a port of the operator that stands there. -/
def destOk (s : State) (r : Region) (ops : List OpRec) (d : Dst) : Bool :=
  placeOk s r d.die.toNat d.cluster.toNat &&
  match recAt ops d.die.toNat d.cluster.toNat d.slot.toNat with
  | none => true
  | some y => isOpRec y && decide (d.port.toNat < wordPorts y.word)

/-- An OPS record (R15, R74, R77). -/
def opRecOk (s : State) (r : Region) (ops : List OpRec) (x : OpRec) : Bool :=
  let n := routeRwi ops x
  decide (x.slot < 2048) && x.kind % 32768 == (if n = 0 then 0 else 1) && recAt ops x.die x.cl x.slot == some x &&
  (if n = 0 then
     isOpWord x.word &&
     (recRwi x == 0 || (decide (x.slot < 2047) && (recAt ops x.die x.cl (x.slot + 1)).isSome)) &&
     (recDests ops x).all (destOk s r ops)
   else routeWordOk x.word n)

/-- An ENTRIES token (R105). -/
def entryOk (ops : List OpRec) (t : Tok) : Bool :=
  t.dst.valid && t.dst.rwi == 0 && kindCode t.kind < 6 &&
  match recAt ops t.dst.die.toNat t.dst.cluster.toNat t.dst.slot.toNat with
  | none => false
  | some y => isOpRec y && decide (t.dst.port.toNat < wordPorts y.word)

/-- A class-4 node, other than MRESUME, names a port that the region owns (09 R290). -/
def portOwned (s : State) (rid : Nat) (r : Region) (w : Word128) : Bool :=
  if wordEcl w ≠ 4 ∨ wordOpc w = 9 then true
  else match r.dies.getD (bits w 97 95) none with
    | none => (Tab.get 0 r.span (bits w 97 95) : Word).getLsbD 63
    | some d => (getPort s (16 * d + bits w 94 91)).en && (getPort s (16 * d + bits w 94 91)).owner.toNat == rid

def isCtxEnter (w : Word128) : Bool := wordEcl w == 0 && wordOpc w == 0x10
def isCtxNext (w : Word128) : Bool := wordEcl w == 0 && wordOpc w == 0x11
def isCtxExit (w : Word128) : Bool := wordEcl w == 0 && wordOpc w == 0x12

/-- A node that belongs to the context its OPS record names: CTX.NEXT, CTX.EXIT, and XFM next, new and free (R18). -/
def needsCtx (w : Word128) : Bool := isCtxNext w || isCtxExit w || [1, 3, 4].contains (bits w 106 104)

/-- A node stands in the home cluster of the context it belongs to; CTX.NEXT needs a window above 1 (R18). -/
def ctxOk (m : Image) (x : OpRec) : Bool :=
  let ctx := if isCtxEnter x.word then some (bits x.word 87 80)
    else if !needsCtx x.word then none
    else if 32768 ≤ x.kind then some x.ctx else some 256
  match ctx with
  | none => true
  | some c => match m.ctxs.find? fun k => k.ctx == c with
    | none => false
    | some k => k.die == x.die && k.cl == x.cl && (!isCtxNext x.word || k.window != 1)

/-- Every CTX.NEXT of a context carries the same CARRY (05 R162). -/
def carryOk (ops : List OpRec) : Bool :=
  let ns := ops.filter fun x => isCtxNext x.word
  ns.all fun x => ns.all fun y => x.ctx != y.ctx || bits x.word 85 80 == bits y.word 85 80

/-- Windows from 1 to 1,024, each context once, and at most 1,024 frames a home cluster (R18, 05 R152). -/
def windowsOk (m : Image) : Bool :=
  m.ctxs.all fun k => decide (1 ≤ k.window) && decide (k.window ≤ 1024) && (m.ctxs.filter fun j => j.ctx == k.ctx).length == 1 &&
    decide (sumBy CtxRec.window (m.ctxs.filter fun j => j.die == k.die && j.cl == k.cl) ≤ 1024)

def sameCluster (a b : ScrRec) : Bool := a.die == b.die && a.cl == b.cl

def meet (a b : ScrRec) : Bool := decide (a.first < b.first + b.len) && decide (b.first < a.first + a.len)

/-- SCRATCH records other than reservation runs overlap none of the same cluster, and name one pool (R105, 08 R251). -/
def scratchOk (l : List ScrRec) : Bool :=
  let areas := l.filter fun x => x.kind != 2
  l.all (fun x => decide (x.kind ≤ 2) && decide (x.first + x.len ≤ 16384)) &&
  (List.range areas.length).all fun i => (areas.drop (i + 1)).all fun y =>
    match areas[i]? with
    | none => true
    | some x => !sameCluster x y || (!meet x y && !(x.kind == 0 && y.kind == 0))

/-- A cluster keeps a reservation for a context: its home, or a run is declared there (01 R42, 05 R151). -/
def reserves (scratch : List ScrRec) (die cl : Nat) (k : CtxRec) : Bool :=
  decide (0 < k.maxtile) &&
  ((k.die == die && k.cl == cl) || scratch.any fun x => x.kind == 2 && x.die == die && x.cl == cl && x.ctx == k.ctx)

/-- The reservation runs of a cluster, from the top of its pool downward in ascending context order, each as long as its
context's largest tile; a home cluster keeps its contexts' runs whether or not the image names them (05 R151;
notes/assumptions/79.md). -/
def runsOf (scratch : List ScrRec) (ctxs : List CtxRec) (die cl : Nat) : List ScrRec :=
  let top := match scratch.find? fun y => y.kind == 0 && y.die == die && y.cl == cl with
    | some pool => pool.first + pool.len
    | none => 0
  let ks := ctxs.filter (reserves scratch die cl)
  ks.map fun k =>
    { die := die, cl := cl, first := top - sumBy CtxRec.maxtile (ks.filter fun j => decide (j.ctx ≤ k.ctx)), len := k.maxtile,
      kind := 2, ctx := k.ctx }

/-- The reservations of a cluster fit in its pool (01 R42). -/
def reservesFit (m : Image) (die cl : Nat) : Bool :=
  let pool := sumBy ScrRec.len (m.scratch.filter fun y => y.kind == 0 && y.die == die && y.cl == cl)
  decide (sumBy CtxRec.maxtile (m.ctxs.filter (reserves m.scratch die cl)) ≤ pool)

/-- A declared reservation run stands in its place, once (05 R151). -/
def runOk (m : Image) (x : ScrRec) : Bool :=
  x.kind != 2 ||
  ((if x.len = 0 then m.ctxs.any fun k => k.ctx == x.ctx && k.maxtile == 0
    else (runsOf m.scratch m.ctxs x.die x.cl).contains x) &&
   (m.scratch.filter fun y => y.kind == 2 && sameCluster x y && y.ctx == x.ctx).length == 1)

/-- The reservations of every cluster that keeps one (01 R42). -/
def reservationsOk (m : Image) : Bool :=
  m.scratch.all (fun x => runOk m x && reservesFit m x.die x.cl) && m.ctxs.all fun k => reservesFit m k.die k.cl

/-- Every declared token rate fits its declared buffer depth (01 R40; notes/assumptions/11.md). -/
def ratesOk (m : Image) : Bool :=
  m.rates.all (fun x => decide (x.tokens ≤ x.depth)) && Config.ratesBalance m.rateBytes

/-- Every cluster that the image places something in is one of the region's (R105, R290). -/
def placesOk (s : State) (rid : Nat) (r : Region) (m : Image) : Bool :=
  (m.ops.all fun x => placeOk s r x.die x.cl && (!isOpRec x || portOwned s rid r x.word)) &&
  (m.ctxs.all fun x => placeOk s r x.die x.cl) && (m.scratch.all fun x => placeOk s r x.die x.cl) &&
  (m.data.all fun x => placeOk s r x.die x.cl) && (m.rates.all fun x => placeOk s r x.die x.cl) &&
  m.entries.all fun t => placeOk s r t.dst.die.toNat t.dst.cluster.toNat

/-- The further conditions on a successor image (05 R167). -/
def splicePool (r : Region) (m : Image) : Bool := m.scratchBytes == r.scratch && m.data.isEmpty

/-- The first refusal code that applies, 0 for none; splice: the image is a successor (R105, 05 R167). -/
def imageRefusal (s : State) (rid : Nat) (m : Image) (splice : Bool) : Nat :=
  let r := getRegion s rid
  let ops := m.ops.filter isOpRec
  if !shapeOk r m then loadShape
  else if !(m.ops.all (opRecOk s r m.ops)) || !(m.entries.all (entryOk m.ops)) then loadBadop
  else if !placesOk s rid r m then loadPlace
  else if !windowsOk m || !(ops.all (ctxOk m)) || !carryOk ops ||
      !(m.entries.all fun t => m.ctxs.any fun k => k.ctx == t.tag.ctx.toNat) ||
      (splice && m.ctxs.any fun k => !(getCtx r k.ctx).live.isEmpty || !(getCtx r k.ctx).waiting.isEmpty) then loadWindow
  else if !scratchOk m.scratch || !reservationsOk m ||
      !(m.data.all fun x => decide (128 * x.first + x.bytes.length ≤ 2 ^ 21)) || (splice && !splicePool r m) then loadPool
  else if m.flags % 2 == 1 && !ratesOk m then loadRate
  else 0

/-! ### What a load writes -/

/-- The cluster that a record's die index and relative cluster name, where it lies on this package. -/
def recCluster (s : State) (r : Region) (i rel : Nat) : Option Nat :=
  (r.absolute rel).bind fun c => regionCluster s r i c

/-- The contents of an operator slot from its OPS record, at the region's origin. -/
def recConfig (r : Region) (ops : List OpRec) (x : OpRec) : Config :=
  if isOpRec x then
    { word := moveWord (toAbsolute r) x.word, rw := false,
      ctx := if 32768 ≤ x.kind ∧ needsCtx x.word then some (BitVec.ofNat 8 x.ctx) else none }
  else { word := moveRoute (toAbsolute r) (routeRwi ops x) x.word, rw := true, ctx := none }

/-- A context as a load declares it; a successor image may name one that is no longer live, which goes on from its
pointer and generation (05 R167). -/
def newCtx (r : Region) (k : CtxRec) : Ctx :=
  { getCtx r k.ctx with declared := true, die := k.die, home := (r.absolute k.cl).getD 0, window := k.window, maxtile := k.maxtile }

def declareCtxs (r : Region) (l : List CtxRec) : Region := l.foldl (fun r k => setCtx r k.ctx (newCtx r k)) r

/-- The spawn area of a cluster: of its pinned areas the last that has as many lines as the windows homed there (05 R152,
08 R252; notes/assumptions/15.md). -/
def spawnRun (pinned : List Run) (lines : Nat) : Option Run :=
  match (pinned.filter fun p => p.len == lines).getLast? with
  | some p => some p
  | none => pinned.getLast?

/-- Frames of the contexts homed in a cluster of the region. -/
def framesHomed (s : State) (r : Region) (c : Nat) : Nat :=
  sumBy (fun e : Nat × Ctx => if e.2.declared && homeOf s r e.1 == some c then e.2.window else 0) r.ctxs

/-- The pool and pinned split of a cluster (R104, 05 R151). -/
def splitScratch (l : List ScrRec) (frames : Nat) (k : Cluster) : Cluster :=
  let run (x : ScrRec) : Run := { first := x.first, len := x.len, ctx := if x.kind = 2 then some (BitVec.ofNat 8 x.ctx) else none }
  let of (n : Nat) : List Run := (l.filter fun x => x.kind == n).map run
  let pinned := of 1
  { k with pool := (of 0).head?, pinned := pinned, reserved := of 2, spawn := if frames = 0 then none else spawnRun pinned frames }

/-- Every byte zero, every line empty, and the generation of pinned lines 0 (08 R253); every accumulator +0, and no weight
bound (07 R222). -/
def clearLines (s : State) (c : Nat) : State :=
  let a := spAddr c 0
  let s := { s with mem := Tab.clear s.mem a (2 ^ 21), chk := Tab.clear s.chk a (2 ^ 21) }
  let wipe (k : Cluster) (e : Nat × Line) : Nat × Line :=
    (e.1, if linesPinned k.pinned e.1 1 then Line.empty else { e.2 with full := false, written := 0 })
  modCluster s c fun k =>
    { k with lines := (k.lines.map (wipe k)).filter (fun e => e.2 != Line.empty), acc := [], accBad := [], w0 := .unbound,
             w1 := .unbound }

/-- A DATA record: a filling write (08 R253, R254). -/
def loadData (s : State) (r : Region) (x : DataRec) : State :=
  match recCluster s r x.die x.cl with
  | none => s
  | some c =>
    let s := (writeMem s (spAddr c (128 * x.first)) x.bytes false).1
    markTouched s (touched c (128 * x.first) x.bytes.length)

/-- The other clusters of a cluster's quad. -/
def quadPeers (c : Nat) : List Nat :=
  ((List.range 320).filter fun cl => quadOf cl == quadOf (c % 512) && cl != c % 512).map fun cl => c / 512 * 512 + cl

/-- Every cluster of the region receives the pinned-area map of each of its quad peers (07 R240). -/
def sendPeerMaps (s : State) (rid : Nat) : State :=
  (regionClusters s (getRegion s rid)).foldl (fun s c =>
    modCluster s c fun k =>
      { k with peers := (quadPeers c).foldl (fun t p => Tab.set [] t p (getCluster s p).pinned) [] }) s

/-- The contexts of a region as CONTEXTS records. -/
def ctxRecsOf (r : Region) : List CtxRec :=
  (r.ctxs.filter fun e => e.2.declared).map fun e =>
    { ctx := e.1, die := e.2.die, cl := r.relative e.2.home, window := e.2.window, maxtile := e.2.maxtile }

/-- Set the split of every cluster of the region, its reservations and the maps of its quad. -/
def splitRegion (s : State) (rid : Nat) (l : List ScrRec) : State :=
  let r := getRegion s rid
  let s := (regionClusters s r).foldl (fun s c =>
    let mine := l.filter fun x => x.kind != 2 && recCluster s r x.die x.cl == some c
    let runs := runsOf l (ctxRecsOf r) (r.dieIx (c / 512)) (r.relative (c % 512))
    modCluster s c (splitScratch (mine ++ runs) (framesHomed s r c))) s
  sendPeerMaps s rid

/-- The word of a member die on another package leaves as a configuration packet (01 R32). -/
def sendConfig (s : State) (rid : Nat) (ops : List OpRec) (x : OpRec) : State :=
  let r := getRegion s rid
  if Tab.get 0 r.span x.die = 0 then s
  else send s (.config rid x.die ((r.absolute x.cl).getD 0) x.slot (recConfig r ops x).word)

/-- Write an accepted image onto the region, for the thread that loads it (04 R120, R121, R129). -/
def loadImage (s : State) (rid th : Nat) (m : Image) : State :=
  let s := modRegion s rid fun r =>
    { declareCtxs r m.ctxs with state := .loaded, hsinks := BitVec.ofNat 32 m.nsink, owner := th, scratch := m.scratchBytes,
                                wdStart := s.htime }
  let s := splitRegion s rid m.scratch
  let r := getRegion s rid
  let s := (regionClusters s r).foldl clearLines s
  let s := m.ops.foldl (fun s x => match recCluster s r x.die x.cl with
    | none => sendConfig s rid m.ops x
    | some c => installConfig s c (BitVec.ofNat 11 x.slot) (recConfig r m.ops x)) s
  m.data.foldl (fun s x => loadData s r x) s

/-! ### Injection (04 R120; 01 R19, R22; 05 R152) -/

/-- Send a token as the Hawk of a thread's die sends it. -/
def hawkSend (s : State) (rid th : Nat) (t : Tok) : State := sendFrom s rid (srcHawk (th / 8)) t none

/-- INJ.new: a fresh colour without a parent, in the context that the header names, whose spawn record carries the token.
None while the home cluster refuses. t has its cluster absolute. -/
def injectNew (s : State) (rid th : Nat) (t : Tok) : Option (State × Tok) :=
  match allocColour s rid t.tag.ctx.toNat none 0 zeroFrame (getThread s th).rmode with
  | none => none
  | some (s, tag) =>
    let t := { t with tag := tag }
    let r := getRegion s rid
    let s := match liveColour r tag with
      | none => s
      | some c => carry s (spawnAddr s r tag.ctx.toNat c.line) t (destField r t.dst)
    some (hawkSend s rid th t, t)

/-- Inject entries in order while their colours are granted: what is left. -/
def injectEntries (rid th : Nat) : List Tok → State → State × List Tok
  | [], s => (s, [])
  | t :: ts, s =>
    match injectNew s rid th t with
    | none => (s, t :: ts)
    | some (s, _) => injectEntries rid th ts s

/-- An ENTRIES record as the token to inject: its cluster made absolute. -/
def entryToken (r : Region) (t : Tok) : Tok := { t with dst := moveDst (toAbsolute r) t.dst }

end Sys2Proof.Machine
end

