-- ==== Sys2Proof/Machine/Crypto.lean ====
section
/-! DEFINITION. SHA-384, and ECDSA over the 384-bit Brainpool curve brainpoolP384r1 of RFC 5639 (00 R12; 13 R417, R418):
the spec names both and they are taken from their own standards (notes/assumptions/9.md). -/

namespace Sys2Proof.Machine

/-- The value of bytes that stand most significant first, and a value as n such bytes. -/
def beNat (bs : List Byte) : Nat := leNat bs.reverse
def beBytes (n v : Nat) : List Byte := (leBytes n v).reverse

/-! ### SHA-384 -/

def isPrime (n : Nat) : Bool := decide (2 ≤ n) && ((List.range n).drop 2).all fun d => n % d != 0

def smallPrimes : List Nat := (List.range 410).filter isPrime

/-- The k-th root of x, rounded down, below 2^72. -/
def rootOf (k x : Nat) : Nat := (List.range 72).foldr (fun i r => if (r + 2 ^ i) ^ k ≤ x then r + 2 ^ i else r) 0

/-- The round constants: the first 64 bits of the fractions of the cube roots of the first 80 primes. -/
def shaConstants : List Word := (smallPrimes.take 80).map fun p => BitVec.ofNat 64 (rootOf 3 (p * 2 ^ 192))

/-- The eight working words. -/
structure Sha where
  a : Word
  b : Word
  c : Word
  d : Word
  e : Word
  f : Word
  g : Word
  h : Word
  deriving DecidableEq, Repr

def Sha.words (x : Sha) : List Word := [x.a, x.b, x.c, x.d, x.e, x.f, x.g, x.h]

def Sha.of (l : List Word) : Sha :=
  { a := l.getD 0 0, b := l.getD 1 0, c := l.getD 2 0, d := l.getD 3 0, e := l.getD 4 0, f := l.getD 5 0, g := l.getD 6 0,
    h := l.getD 7 0 }

/-- The initial words: the first 64 bits of the fractions of the square roots of the ninth to sixteenth primes. -/
def Sha.start : Sha := Sha.of (((smallPrimes.take 16).drop 8).map fun p => BitVec.ofNat 64 (rootOf 2 (p * 2 ^ 128)))

/-- The schedule of a block's 16 words, newest first, after n more words. -/
def shaSchedule : Nat → List Word → List Word
  | 0, w => w
  | n + 1, w =>
    let s0 (x : Word) : Word := x.rotateRight 1 ^^^ x.rotateRight 8 ^^^ x >>> 7
    let s1 (x : Word) : Word := x.rotateRight 19 ^^^ x.rotateRight 61 ^^^ x >>> 6
    shaSchedule n ((s1 (w.getD 1 0) + w.getD 6 0 + s0 (w.getD 14 0) + w.getD 15 0) :: w)

/-- One round with its constant plus schedule word. -/
def Sha.round (x : Sha) (kw : Word) : Sha :=
  let ch := (x.e &&& x.f) ^^^ (~~~x.e &&& x.g)
  let maj := (x.a &&& x.b) ^^^ (x.a &&& x.c) ^^^ (x.b &&& x.c)
  let t1 := x.h + (x.e.rotateRight 14 ^^^ x.e.rotateRight 18 ^^^ x.e.rotateRight 41) + ch + kw
  let t2 := (x.a.rotateRight 28 ^^^ x.a.rotateRight 34 ^^^ x.a.rotateRight 39) + maj
  { a := t1 + t2, b := x.a, c := x.b, d := x.c, e := x.d + t1, f := x.e, g := x.f, h := x.g }

/-- Take in a block of 128 bytes. -/
def Sha.block (x : Sha) (bs : List Byte) : Sha :=
  let w := (List.range 16).map fun i => BitVec.ofNat 64 (beNat ((bs.drop (8 * i)).take 8))
  let ks := (shaSchedule 64 w.reverse).reverse.zip shaConstants
  Sha.of ((x.words.zip (ks.foldl (fun y e => y.round (e.1 + e.2)) x).words).map fun e => e.1 + e.2)

/-- The message with its padding and length. -/
def shaPad (bs : List Byte) : List Byte :=
  let n := bs.length
  bs ++ [0x80] ++ List.replicate ((239 - n % 128) % 128) 0 ++ beBytes 16 (8 * n)

def sha384 (bs : List Byte) : List Byte :=
  let m := shaPad bs
  let x := (List.range (m.length / 128)).foldl (fun x i => Sha.block x ((m.drop (128 * i)).take 128)) Sha.start
  (x.words.take 6).flatMap fun w => beBytes 8 w.toNat

/-! ### brainpoolP384r1 -/

def curveP : Nat := 0x8CB91E82A3386D280F5D6F7E50E641DF152F7109ED5456B412B1DA197FB71123ACD3A729901D1A71874700133107EC53
def curveA : Nat := 0x7BC382C63D8C150C3C72080ACE05AFA0C2BEA28E4FB22787139165EFBA91F90F8AA5814A503AD4EB04A8C7DD22CE2826
def curveB : Nat := 0x04A8C7DD22CE28268B39B55416F0447C2FB77DE107DCD2A62E880EA53EEB62D57CB4390295DBC9943AB78696FA504C11
def curveX : Nat := 0x1D1C64F068CF45FFA2A63A81B7C13F6B8847A3E77EF14FE3DB7FCAFE0CBD10E8E826E03436D646AAEF87B2E247D4AF1E
def curveY : Nat := 0x8ABE1D7520F9C2A45CB1EB8E95CFD55262B70B29FEEC5864E19C054FF99129280E4646217791811142820341263C5315
def curveQ : Nat := 0x8CB91E82A3386D280F5D6F7E50E641DF152F7109ED5456B31F166E6CAC0425A7CF3AB6AF6B7FC3103B883202E9046565

/-- b to the e modulo m, for e below 2^384. -/
def powMod (m b e : Nat) : Nat :=
  (List.range 384).foldr (fun i r => let t := r * r % m; if e.testBit i then t * b % m else t) 1

/-- The inverse modulo a prime. -/
def invMod (m x : Nat) : Nat := powMod m (x % m) (m - 2)

def subMod (x y : Nat) : Nat := (x + curveP - y % curveP) % curveP

/-- A point of the curve; none stands for the point at infinity. -/
abbrev Point := Option (Nat × Nat)

def curveBase : Point := some (curveX, curveY)

def onCurve (x y : Nat) : Bool :=
  decide (x < curveP) && decide (y < curveP) && y * y % curveP == (x * x * x + curveA * x + curveB) % curveP

def addPoints (u v : Point) : Point :=
  match u, v with
  | none, v => v
  | u, none => u
  | some (x, y), some (x', y') =>
    if x = x' ∧ (y + y') % curveP = 0 then none
    else
      let l := if x = x' then (3 * x * x + curveA) * invMod curveP (2 * y) % curveP
        else subMod y' y * invMod curveP (subMod x' x) % curveP
      let z := subMod (subMod (l * l) x) x'
      some (z, subMod (l * subMod x z) y)

/-- k times a point, for k below 2^384. -/
def mulPoint (k : Nat) (u : Point) : Point :=
  (List.range 384).foldr (fun i r => let t := addPoints r r; if k.testBit i then addPoints t u else t) none

/-! ### ECDSA -/

/-- r and s sign a hash under a public key: 97 bytes, 0x04 and the coordinates most significant byte first. -/
def ecdsaVerifies (key hash r s : List Byte) : Bool :=
  let x := beNat ((key.drop 1).take 48)
  let y := beNat (key.drop 49)
  let r := beNat r
  let s := beNat s
  if key.length ≠ 97 ∨ key.headD 0 ≠ 4 ∨ !onCurve x y ∨ r = 0 ∨ s = 0 ∨ curveQ ≤ r ∨ curveQ ≤ s then false
  else
    let w := invMod curveQ s
    match addPoints (mulPoint (beNat hash * w % curveQ) curveBase) (mulPoint (r * w % curveQ) (some (x, y))) with
    | none => false
    | some z => z.1 % curveQ == r

/-- The signature of a hash under a private key with a nonce; none where the nonce gives none. -/
def signWith (key nonce : Nat) (hash : List Byte) : Option (List Byte) :=
  match mulPoint nonce curveBase with
  | none => none
  | some z =>
    let r := z.1 % curveQ
    let s := invMod curveQ nonce * (beNat hash + r * key) % curveQ
    if r = 0 ∨ s = 0 then none else some (beBytes 48 r ++ beBytes 48 s)

/-- Sign a hash with the device identity key, with nonces that the Service Engine draws. -/
def ecdsaSign (hash : List Byte) : List Byte :=
  ((List.range 8).findSome? fun i => signWith Config.deviceKey (1 + Config.signNonce hash i % (curveQ - 1)) hash).getD
    (List.replicate 96 0)

end Sys2Proof.Machine
end

