-- ==== Sys2Proof/Machine/Plumb.lean ====
section
/-! DEFINITION. The Plumb Engine (11 R349 to R373): signals and ticks, crews, barriers and broadcasts, deadline
reductions with their corrections, tile reductions, and PTIME. -/

namespace Sys2Proof.Machine

/-! ### Paths and signals (R349, R350) -/

/-- Ticks from an endpoint to a crew's root, and from the root back. -/
def scopeLat (pkg : Bool) : Nat := if pkg then 48 else 24
def Crew.lat (c : Crew) : Nat := scopeLat c.pkg

/-- The entry ticks of a cluster's firings that are on their way: signals to a root, PQUIETs, and PSIGs (R350). -/
def entered (s : State) (c : Nat) : List Nat :=
  (s.plumb.ups.filter fun u => u.firing.cluster == c && u.firing != Firing.none).map Up.entry ++
  (s.plumb.quiets.filter fun x => x.1.cluster == c).map Prod.snd ++
  s.regions.flatMap fun e => e.2.signals.filterMap fun g => match g.2 with
    | .marker f => if f.cluster = c then some (g.1 - signalDelay e.2) else none
    | _ => none

/-- The tick in which a firing of a cluster enters Plumb: the first after now in which fewer than 16 have entered. -/
def entryTick (s : State) (c : Nat) : Nat :=
  let e := entered s c
  ((List.range (e.length + 1)).map (s.htime + 1 + ·)).find? (fun t => e.count t < 16) |>.getD (s.htime + 1)

def modPlumb (s : State) (f : Plumb → Plumb) : State := { s with plumb := f s.plumb }
def modCrew (s : State) (c : Nat) (f : Crew → Crew) : State := setCrew s c (f (getCrew s c))

/-- Signals held at a root: the package root's, or a die root's (R355). -/
def heldAt (s : State) (pkg : Bool) (die : Nat) : Nat :=
  (s.plumb.ups.filter fun u => u.held && (let c := getCrew s u.crew; c.pkg == pkg && (c.pkg || c.die == die))).length

/-- The root of a crew has no room for another held signal: a firing waits at its endpoint (R355). -/
def rootFull (s : State) (n : Nat) : Bool := let c := getCrew s n; decide (4096 ≤ heldAt s c.pkg c.die)

/-- The number that stands for no crew in a signal of CREW.NEW. -/
def noCrew : Nat := 256

/-- A firing enters Plumb with what it asks of its root. -/
def enter (s : State) (f : Firing) (crew : Nat) (pkg : Bool) (ask : Ask) (data : Option Payload) : State :=
  let e := entryTick s f.cluster
  modPlumb s fun p =>
    { p with ups := p.ups ++ [{ crew := crew, at_ := e + scopeLat pkg, entry := e, firing := f, ask := ask, held := false,
                                data := data, gone := false }] }

def land (s : State) (t : Nat) (d : Down) : State := modPlumb s fun p => { p with downs := p.downs ++ [{ at_ := t, what := d }] }

/-- A landing for the rounds of a crew. -/
def Down.ofCrew (n : Nat) : Down → Bool
  | .notice m _ | .packet m .. | .result m .. => m == n
  | _ => false

/-- The root answers a signal's firing, if no purge has removed it (R382). -/
def reply (s : State) (u : Up) (t : Nat) (d : Down) : State := if u.gone then s else land s t d

/-! ### Handles (R353) -/

def crewHandle (n : Nat) (c : Crew) : Word :=
  BitVec.ofNat 64 ((if c.pkg then 2 ^ 16 else 0) + c.gen.toNat * 256 + n)

/-- The crew that a handle names for a firing, where it is valid. -/
def crewOf (s : State) (f : Firing) (h : Word) : Option Nat :=
  let n := bits h 7 0
  let c := getCrew s n
  if c.used && h == crewHandle n c && c.region == f.region && (c.pkg || c.die == f.cluster / 512) then some n
  else none

/-- The crew of port 0's handle. -/
def crewPort (s : State) (f : Firing) : Option Nat := crewOf s f (tokAt f 0).payload

/-! ### Emission (R361) -/

/-- Emit a class-6 firing's tokens now, under its tag with XFM applied. -/
def plumbEmit (s : State) (f : Firing) (outs : List Out) (raised : Flags) : State :=
  let o := opWord f.word
  match tagUnder s f o.xfm with
  | .refused => s
  | tg => emit s f o o.xfm tg outs raised 0

def plumbError (s : State) (f : Firing) (code : BitVec 8) : State :=
  plumbEmit s f (outTo (destinations s f (opWord f.word)) .error Flag.none
    (errorPayload (getRegion s f.region) f.cluster f.slot 0 code)) 0

/-- A token on DST0 and the route entries, and another on DST1. -/
def twoOuts (s : State) (f : Firing) (t0 t1 : Tok) : List Out := twoTo (destinations s f (opWord f.word)) t0 t1

/-- A plain result token: kind and payload. -/
def valueTok (k : Kind) (v : Nat) : Tok := { Tok.none with kind := k, payload := BitVec.ofNat 64 v }

/-- The same answer on every destination, when the root's signal reaches the cluster. -/
def answerAt (s : State) (t : Nat) (f : Firing) (tok : Tok) : State := land s t (.emit f tok tok)

def replyAll (s : State) (u : Up) (t : Nat) (tok : Tok) : State := reply s u t (.emit u.firing tok tok)

/-! ### Crews and their rounds -/

def Crew.all (c : Crew) : List Round := c.open_.toList ++ c.rounds

def Crew.round (c : Crew) (n : Nat) : Option Round := c.all.find? fun r => r.no == n

/-- Change the round of a number, open or not. -/
def Crew.modRound (c : Crew) (n : Nat) (f : Round → Round) : Crew :=
  { c with open_ := c.open_.map fun r => if r.no = n then f r else r,
           rounds := c.rounds.map fun r => if r.no = n then f r else r }

def Round.isReduction (r : Round) : Bool := r.kind == .reduction || r.kind == .tileReduction

/-- Reduction rounds that have not retired. -/
def Crew.unretired (c : Crew) : List Round := c.all.filter fun r => r.isReduction && !r.retired

/-- The round has released: its tokens have gone, or its deadline has passed (R355). -/
def Round.released (r : Round) : Bool := r.retired || r.evaluated

/-- Every member of the set has arrived or left. -/
def Round.covered (r : Round) : Bool := r.set.all fun m => r.arrived.contains m || r.gone.contains m

/-- Some arrival that RESTORE put back has not been issued again. -/
def Round.awaits (r : Round) : Bool := r.waits.any fun w => w.firing == Firing.none

def memberOf (c : Crew) (t : Tag) : Option Member := c.members.find? fun m => m.tag == t

def freshRound (c : Crew) (k : RoundKind) (latest : Nat) : Round :=
  { kind := k, no := c.nextRound, set := c.members.map Member.index, arrived := [], gone := [], waits := [], latest := latest,
    releaseAt := none, sent := none, op := 0, fmt := .raw, rnd := .rne, sat := false, rows := 0, epr := 0, cluster := 0,
    width := 0, deadline := 0, evaluated := false, leaves := [], result := { member := 0, value := 0, poison := false },
    flags := 0, packets := [], finalAt := none, retired := false }

def Crew.openRound (c : Crew) (r : Round) : Crew := { c with open_ := some r, nextRound := (c.nextRound + 1) % 4096 }

/-- Firings that wait for a crew elsewhere than in a round: held signals, puts, and PCORRs. -/
def discardWaiting (s : State) (n t : Nat) : State :=
  let p := s.plumb
  let ups := p.ups.filter fun u => u.crew == n && u.held
  let puts := p.puts.filter fun x => x.2.1 == n
  let corrs := p.pcorrs.filter fun f => bits (tokAt f 0).payload 61 54 == n
  let s := { s with plumb := { p with ups := p.ups.filter (fun u => !(u.crew == n && u.held)),
                                      puts := p.puts.filter (fun x => x.2.1 != n),
                                      pcorrs := p.pcorrs.filter fun f => bits (tokAt f 0).payload 61 54 != n } }
  ((ups.filter Up.waits).map Up.firing ++ puts.map Prod.fst ++ corrs).foldl (fun s f => land s t (.error f eBOUNDS)) s

/-- Forget what has ended: rounds that have given everything they owe, their notices, and the indices they kept from use.
A round that has released stands while a replayed member still owes it its arrival (R356, notes/assumptions/123.md). A crew
being freed is free once its rounds have released. -/
def tidyCrew (s : State) (n : Nat) : State :=
  let c := getCrew s n
  let owes (no : Nat) : Bool := c.members.any fun m => m.owed.contains no
  let rounds := c.rounds.filter fun r => !(r.retired && r.waits.isEmpty && !owes r.no)
  let all := c.open_.toList ++ rounds
  let stands (p : Round → Bool) (no : Nat) : Bool := all.any fun r => r.no == no && p r
  let c := { c with
    rounds := rounds,
    members := c.members.map fun (m : Member) => { m with owed := m.owed.filter (stands fun _ => true) },
    kept := (c.kept.map fun k => (k.1, k.2.filter (stands fun r => !r.released))).filter fun k => !k.2.isEmpty,
    noticed := c.noticed.filter (stands fun r => r.isReduction && !r.retired) }
  if c.freeing && c.open_.isNone && c.rounds.isEmpty then
    modPlumb (discardWaiting (setCrew s n { Crew.reset with gen := c.gen + 1 }) n (s.htime + c.lat)) fun p =>
      { p with logs := p.logs.filter (fun l => l.crew != n), downs := p.downs.filter fun d => !d.what.ofCrew n }
  else setCrew s n c

/-- An open barrier or broadcast that every member has met, and the sender of a broadcast, goes on its way to release
(R362, R363). -/
def decide_ (s : State) (n : Nat) : State :=
  let c := getCrew s n
  match c.open_ with
  | none => s
  | some r =>
    if r.isReduction || !r.covered || (r.kind == .broadcast && r.sent.isNone) then s
    else setCrew s n { c with open_ := none, rounds := c.rounds ++ [{ r with releaseAt := some (r.latest + 2 * c.lat) }] }

/-! ### The root's actions (R351, R354 to R357, R362, R363, R365, R366) -/

/-- Every operation of the crew may open (R354). -/
def Crew.quorate (c : Crew) : Bool := decide (c.quorum ≤ c.joins)

/-- w: the smallest power of two at or above the highest index of the set plus one (R365). -/
def treeWidth (set : List Nat) : Nat :=
  let n := set.foldl max 0 + 1
  if n ≤ 1 then 1 else 2 ^ bitLen (n - 1)

/-- Leaves in use at a crew's root. -/
def leavesUsed (s : State) (c : Crew) : Nat :=
  sumBy (fun e : Nat × Crew => if e.2.pkg = c.pkg ∧ (c.pkg ∨ e.2.die = c.die) then
    sumBy Round.width (e.2.unretired) else 0) s.plumb.crews

def leafStore (c : Crew) : Nat := if c.pkg then 524288 else 131072

/-- An arrival or contribution of a member index. -/
def Ask.isOf (ix : Nat) : Ask → Bool
  | .arrive m | .put m _ => m == ix
  | _ => false

/-- A member leaves (01 R25): rounds count it as gone, and barriers as arrived when its departure reaches the root. Its
index stays out of use until every round that stands unreleased now has released. -/
def dropMember (s : State) (n ix : Nat) : State :=
  let t := s.htime
  let s := modPlumb s fun p => { p with ups := p.ups.filter fun u => !(u.gone && u.crew == n && u.ask.isOf ix) }
  modCrew s n fun c =>
    let out (r : Round) : Round :=
      if r.set.contains ix ∧ !r.gone.contains ix ∧ !r.retired then
        { r with gone := r.gone ++ [ix], latest := if r.arrived.contains ix then r.latest else max r.latest (t - c.lat),
                 finalAt := if r.isReduction ∧ r.evaluated ∧ r.finalAt.isNone ∧ ({ r with gone := r.gone ++ [ix] } : Round).covered
                            then some (t + 1) else r.finalAt }
      else r
    { c with members := c.members.filter (fun m => m.index != ix), open_ := c.open_.map out, rounds := c.rounds.map out,
             kept := c.kept ++ [(ix, (c.all.filter fun r => !r.released).map Round.no)] }

/-- The lowest index that no member holds and that no unreleased round keeps for a departed member (01 R25). -/
def lowestIndex (c : Crew) : Option Nat :=
  let waits (no : Nat) : Bool := c.all.any fun r => r.no == no && !r.released
  let kept := ((c.kept.filter fun k => k.2.any waits).map Prod.fst) ++ c.members.map Member.index
  ((List.range (kept.length + 1)).find? fun i => !kept.contains i).bind fun i => if i < 65536 then some i else none

/-- Membership records that the home cluster of a context keeps. -/
def recordsAt (s : State) (rid : Nat) (ctx : BitVec 8) : Nat :=
  let r := getRegion s rid
  let h := homeOf s r ctx.toNat
  sumBy (fun e : Nat × Crew =>
    if e.2.region = rid then (e.2.members.filter fun m => homeOf s r m.tag.ctx.toNat == h).length else 0) s.plumb.crews

/-- CREW.NEW at its root. -/
def takeNew (s : State) (u : Up) (pkg : Bool) (q : Nat) : State :=
  let t := s.htime + scopeLat pkg
  match (List.range 256).find? fun n => !(getCrew s n).used with
  | none => reply s u t (.error u.firing eBOUNDS)
  | some n =>
    let c := { Crew.reset with used := true, region := u.firing.region, pkg := pkg, die := u.firing.cluster / 512,
                               gen := (getCrew s n).gen, quorum := q }
    replyAll (setCrew s n c) u t (valueTok .scalar (crewHandle n c).toNat)

/-- CREW.JOIN at the root; a strand that has been purged does not join. -/
def takeJoin (s : State) (u : Up) : State :=
  let f := u.firing
  let c := getCrew s u.crew
  let t := s.htime + c.lat
  let joined (s : State) (i : Nat) : State := land s t (.emit f (tokAt f 0) (valueTok .scalar i))
  if u.gone then s
  else match memberOf c f.tag with
  | some m => joined s m.index
  | none =>
    match lowestIndex c with
    | none => land s t (.error f eBOUNDS)
    | some i =>
      if 1024 ≤ recordsAt s f.region f.tag.ctx then land s t (.error f eBOUNDS)
      else
        let key := ((liveColour (getRegion s f.region) f.tag).map Colour.key).getD f.tag.col
        joined (setCrew s u.crew { c with joins := c.joins + 1,
                                          members := c.members ++ [{ index := i, tag := f.tag, key := key, owed := [] }] }) i

/-- CREW.LEAVE at the root. -/
def takeLeave (s : State) (u : Up) (tag : Tag) : State :=
  let c := getCrew s u.crew
  let t := s.htime + c.lat
  match memberOf c tag with
  | none => reply s u t (.error u.firing eBOUNDS)
  | some m => replyAll (decide_ (dropMember s u.crew m.index) u.crew) u t (valueTok .scalar m.index)

/-- CREW.FREE at the root (R357, R369). -/
def takeFree (s : State) (u : Up) : State :=
  let n := u.crew
  let c := getCrew s n
  let t := s.htime + c.lat
  let s := (c.members.map Member.index).foldl (fun s i => dropMember s n i) s
  let s := modCrew s n fun c =>
    { c with freeing := true, rounds := c.rounds.map fun r => if r.isReduction then { r with retired := true } else r }
  let s := modPlumb s fun p => { p with logs := p.logs.filter fun l => l.crew != n }
  tidyCrew (replyAll (decide_ (discardWaiting s n t) n) u t (valueTok .done 0)) n

/-- A departed colour leaves its crew. -/
def takeDrop (s : State) (n : Nat) (tag : Tag) : State :=
  match memberOf (getCrew s n) tag with
  | none => s
  | some m => decide_ (dropMember s n m.index) n

/-- The kind of round that a firing's arrival belongs to. -/
def arrivalKind (f : Firing) : RoundKind := if bits f.word 124 117 = 1 then .broadcast else .barrier

/-- What waits in a round for a signal's firing: nothing, once a purge has removed it. -/
def Up.waiting (u : Up) (m : Option Nat) (late : Bool) : List Waits :=
  if u.gone then [] else [{ firing := u.firing, member := m, late := late }]

/-- Record an arrival in a round. -/
def Round.arrive (r : Round) (u : Up) (m entry : Nat) : Round :=
  { r with arrived := r.arrived ++ [m], waits := r.waits ++ u.waiting (some m) false, latest := max r.latest entry }

/-- The member of an index owes a round the arrival that its replay will make again. -/
def Crew.owe (c : Crew) (u : Up) (m no : Nat) : Crew :=
  if u.gone then { c with members := c.members.map fun x => if x.index = m then { x with owed := x.owed ++ [no] } else x } else c

/-- The signal of a member index comes from the strand that holds the index, or held it before the purge that replays it. -/
def Crew.knows (c : Crew) (u : Up) (m : Nat) : Bool := u.gone || (memberOf c u.firing.tag).map Member.index == some m

/-- An arrival that a round has already counted, the oldest first: its waiting firing was captured, or belongs to a replayed
member. -/
def absorbs (c : Crew) (m : Nat) (k : Round → Bool) : Option Round :=
  let owed := ((c.members.find? fun x => x.index == m).map Member.owed).getD []
  (c.rounds ++ c.open_.toList).find? fun r => k r && r.arrived.contains m &&
    (r.waits.any (fun w => w.member == some m && w.firing == Firing.none) || owed.contains r.no)

/-- The absorbed firing only waits for what the round gives; a reduction whose result has landed gives it at once. -/
def absorb (s : State) (n : Nat) (r : Round) (f : Firing) (m : Nat) : State :=
  let late := ((r.leaves.find? fun l => l.member == m).map fun l => !l.onTime).getD false
  let result := Down.result n r.no (if late then some m else none)
  let s := if r.evaluated && !(s.plumb.downs.any fun d => d.what == result) then land s s.htime result else s
  modCrew s n fun c =>
    let c := c.modRound r.no fun r =>
      { r with waits := (r.waits.filter fun w => !(w.member == some m && w.firing == Firing.none)) ++
                        [{ firing := f, member := some m, late := late }] }
    { c with members := c.members.map fun x => if x.index = m then { x with owed := x.owed.filter (· != r.no) } else x }

/-- An arrival at a barrier or broadcast; none while it must be held (R355). -/
def takeArrive (s : State) (u : Up) (m entry : Nat) : Option State :=
  let n := u.crew
  let c := getCrew s n
  let k := arrivalKind u.firing
  match absorbs c m fun r => r.kind == k with
  | some r => some (if u.gone then s else absorb s n r u.firing m)
  | none =>
    if !c.knows u m then none
    else match c.open_ with
    | some r =>
      if r.kind = k ∧ r.set.contains m ∧ !r.arrived.contains m then
        some (decide_ (setCrew s n ({ c with open_ := some (r.arrive u m entry) }.owe u m r.no)) n)
      else none
    | none =>
      let r := freshRound c k entry
      if c.quorate && r.set.contains m then some (decide_ (setCrew s n ((c.openRound (r.arrive u m entry)).owe u m r.no)) n)
      else none

/-- A broadcast's sender; none while it must be held. -/
def takeSend (s : State) (u : Up) (entry : Nat) : Option State :=
  let n := u.crew
  let c := getCrew s n
  let put (r : Round) : Round :=
    { r with sent := some (tokAt u.firing 1), latest := max r.latest entry,
             waits := r.waits ++ u.waiting none false }
  match c.rounds.find? fun r => r.kind == .broadcast && r.waits.any fun w => w.member.isNone && w.firing == Firing.none with
  | some r => some (setCrew s n (c.modRound r.no fun r =>
      { r with waits := (r.waits.filter fun w => w.member.isSome || w.firing != Firing.none) ++ u.waiting none false }))
  | none =>
    match c.open_ with
    | some r => if r.kind = .broadcast ∧ r.sent.isNone then some (decide_ (setCrew s n { c with open_ := some (put r) }) n) else none
    | none => if c.quorate then some (decide_ (setCrew s n (c.openRound (put (freshRound c .broadcast entry)))) n) else none

/-- The tile shape that a TRED open's port 1 gives: rows, elements. -/
def tredShape (f : Firing) : Nat × Nat := (bits (tokAt f 1).payload 18 12 + 1, bits (tokAt f 1).payload 11 0 + 1)

/-- The opening of a reduction; none while it must be held (R354, R355, R365, R372). -/
def takeOpen (s : State) (u : Up) (d : Nat) : Option State :=
  let n := u.crew
  let f := u.firing
  let c := getCrew s n
  let o := opWord f.word
  let tile := bits f.word 124 117 == 5
  let again := c.all.find? fun r => r.isReduction && r.waits.any fun w => w.member.isNone && w.firing == Firing.none
  match again with
  | some r => some (setCrew s n (c.modRound r.no fun r =>
      { r with waits := (r.waits.filter fun w => w.member.isSome || w.firing != Firing.none) ++ u.waiting none false,
               cluster := f.cluster }))
  | none =>
    let w := treeWidth (c.members.map Member.index)
    if c.open_.isSome || !c.quorate || decide (4 ≤ c.unretired.length) || decide (leafStore c < leavesUsed s c + w) then none
    else if tile && decide (64 < w) then some (reply s u (s.htime + c.lat) (.error f eBOUNDS))
    else
      let (rows, epr) := tredShape f
      let r := { freshRound c (if tile then .tileReduction else .reduction) 0 with
        op := immBits o 36 34, fmt := o.fmt, rnd := o.rnd, sat := o.sat, rows := if tile then rows else 0,
        epr := if tile then epr else 0, cluster := f.cluster, width := w, deadline := s.htime + d,
        waits := u.waiting none false }
      some (land (setCrew s n (c.openRound r)) (s.htime + c.lat) (.notice n r.no))

/-- A packet that a round sends: it lands at every endpoint of the crew's scope (R369). -/
def sendPacket (s : State) (n no : Nat) (p : RPacket) : State :=
  let c := getCrew s n
  let ix := ((c.round no).map fun r => r.packets.length).getD 0
  land (setCrew s n (c.modRound no fun r => { r with packets := r.packets ++ [p] })) (s.htime + c.lat) (.packet n no ix p)

/-- A contribution's leaf: its value, or its tile in the reduce cluster's pool; none while the pool stalls it (R372). -/
def storeLeaf (s : State) (u : Up) (r : Round) (m : Nat) : Option (State × Leaf) :=
  let f := u.firing
  let t := tokAt f 1
  let leaf (w : Word) (p : Bool) : Leaf := { member := m, value := w, poison := p, onTime := !r.evaluated }
  match u.data with
  | none => some (s, leaf t.payload t.flag.poison)
  | some d =>
    let h := handleOf t.payload
    (allocLines s f.region r.cluster f.tag h.lines).map fun x =>
      let s := markFull (writeLines x.1 r.cluster x.2.1 d) r.cluster x.2.1 h.lines
      (s, leaf { h with base := x.2.1, gen := x.2.2.toNat, res := 0, owner := r.cluster % 512 }.word
            (t.flag.poison || rowsBad h d.bad))

/-- Why a round refuses a contribution (R366, R372). -/
def putError (r : Round) (f : Firing) : Option (BitVec 8) :=
  let o := opWord f.word
  let tile := bits f.word 124 117 == 5
  let h := handleOf (tokAt f 1).payload
  if tile != (r.kind == .tileReduction) then some eTYPE_MISMATCH
  else if tile then (if o.fmt ≠ r.fmt ∨ h.code ≠ r.fmt.code ∨ h.rows ≠ r.rows ∨ h.epr ≠ r.epr then some eBOUNDS else none)
  else if o.fmt ≠ r.fmt then some eTYPE_MISMATCH else none

/-- A contribution on time; none while a pool stall delays its tile, or when it is late. One whose member has left in the
meantime is not counted (01 R25). -/
def takePut (s : State) (u : Up) (m no : Nat) : Option State :=
  let c := getCrew s u.crew
  let t := s.htime + c.lat
  match c.round no with
  | none => some (reply s u t (.error u.firing eBOUNDS))
  | some r =>
    match putError r u.firing with
    | some code => some (reply s u t (.error u.firing code))
    | none =>
      if r.gone.contains m then some (reply s u t (.error u.firing eBOUNDS))
      else if r.evaluated then none
      else (storeLeaf s u r m).map fun x =>
        modCrew x.1 u.crew fun c => c.modRound no fun r =>
          { r with arrived := r.arrived ++ [m], leaves := r.leaves ++ [x.2],
                   waits := r.waits ++ u.waiting (some m) false }

/-- The crew a signal names is still the one its firing's handle names. -/
def upValid (s : State) (u : Up) : Bool :=
  match u.ask with
  | .new .. => true
  | .drop _ => (getCrew s u.crew).used
  | _ => (crewPort s u.firing) == some u.crew

/-- The root takes one signal; none while it must be held. entry is the tick it counts as having entered. -/
def takeUp (s : State) (u : Up) (entry : Nat) : Option State :=
  if !upValid s u then
    some (match u.ask with
      | .drop _ => s
      | _ => reply s u (s.htime + (getCrew s u.crew).lat) (.error u.firing eBOUNDS))
  else match u.ask with
    | .new pkg q => some (takeNew s u pkg q)
    | .join => some (takeJoin s u)
    | .leave t => some (takeLeave s u t)
    | .free => some (takeFree s u)
    | .drop t => some (takeDrop s u.crew t)
    | .send => takeSend s u entry
    | .open _ d => takeOpen s u d
    | .arrive m => takeArrive s u m entry
    | .put m no => takePut s u m no

/-- Take held signals of a crew in arrival order for as long as one can be taken (R355). A held signal counts as having
entered in the tick in which it is taken, less its upward latency (R354). -/
def retake (n : Nat) : Nat → State → State
  | 0, s => s
  | k + 1, s =>
    let p := s.plumb
    let c := getCrew s n
    let try_ (i : Nat) : Option State := match p.ups[i]? with
      | some u => if u.held && u.crew == n then
          takeUp { s with plumb := { p with ups := removeAt p.ups i } } u (s.htime - c.lat) else none
      | none => none
    match firstSome try_ (List.range p.ups.length) with
    | some s => retake n k s
    | none => s

/-! ### Puts (R366) -/

/-- The oldest unretired reduction round, whose notice has landed, that holds a member who has not contributed; a strand
that has taken a departed member's index is not in that member's rounds (01 R25). -/
def roundFor (s : State) (n m : Nat) : Option Round :=
  let c := getCrew s n
  let sent (r : Round) : Bool := s.plumb.ups.any fun u => u.crew == n && u.ask == .put m r.no
  (c.rounds ++ c.open_.toList).find? fun r =>
    r.isReduction && !r.retired && r.set.contains m && !r.gone.contains m && !r.arrived.contains m && !sent r && c.noticed.contains r.no

/-- A put enters for its round, with its tile read now; a tile the round does not take is an error firing (R372). -/
def enterPut (s : State) (f : Firing) (n m : Nat) (r : Round) : State :=
  match if r.kind = .tileReduction then putError r f else none with
  | some code => plumbError s f code
  | none =>
    let (s, d) := if isTile (tokAt f 1) then
        (let h := handleOf (tokAt f 1).payload
         let (s, d) := readLines s (tileCluster f.cluster h) h.base h.lines
         (s, some d))
      else (s, none)
    enter s f n (getCrew s n).pkg (.put m r.no) d

def isPut (f : Firing) : Bool := bits f.word 124 117 == 3 || bits f.word 124 117 == 5

/-- A put whose member is known: absorbed, sent to its round, or left to wait for a notice or for room at the root. -/
def placePut (s : State) (f : Firing) (n m : Nat) : State :=
  match absorbs (getCrew s n) m Round.isReduction with
  | some r => absorb s n r f m
  | none => match (roundFor s n m).filter fun _ => !rootFull s n with
    | some r => enterPut s f n m r
    | none => modPlumb s fun p => { p with puts := p.puts ++ [(f, n, m)] }

/-- Waiting puts of a crew whose round's notice has landed enter Plumb while its root has room, if their strands are still
its members. -/
def enterPuts (s : State) (n : Nat) : State :=
  let mine := s.plumb.puts.filter fun x => x.2.1 == n && !isStopped s x.1.region &&
    (memberOf (getCrew s n) x.1.tag).map Member.index == some x.2.2
  mine.foldl (fun s x =>
    match (roundFor s n x.2.2).filter fun _ => !rootFull s n with
    | none => s
    | some r => enterPut (modPlumb s fun p => { p with puts := removeFirst p.puts x }) x.1 n x.2.2 r) s
where
  /-- The list less the first element equal to x. -/
  removeFirst (l : List (Firing × Nat × Nat)) (x : Firing × Nat × Nat) : List (Firing × Nat × Nat) :=
    match l with
    | [] => []
    | y :: t => if y = x then t else y :: removeFirst t x

/-! ### The order within a tick (R351) -/

/-- After any change at a crew's root. -/
def settleCrew (s : State) (n : Nat) : State :=
  let s := if (getCrew s n).used then tidyCrew (retake n (s.plumb.ups.length + 1) s) n else s
  (s.plumb.puts.map fun x => x.2.1).foldl enterPuts s

/-- The step of R351 in which a signal is taken. -/
def askStep (a : Ask) : Nat :=
  match a with
  | .leave _ | .free | .drop _ => 0
  | .new .. | .join => 1
  | .open .. => 2
  | .send | .arrive _ | .put .. => 3

/-- A tile contribution that the reduce cluster's pool stalls (R372): it holds no other signal back. -/
def stalled (s : State) (u : Up) : Bool :=
  match u.ask with
  | .put m no => match (getCrew s u.crew).round no with
    | none => false
    | some r => upValid s u && (putError r u.firing).isNone && (storeLeaf s u r m).isNone
  | _ => false

/-- A late contribution is the business of lateContribution. -/
def upLate (s : State) (u : Up) : Bool :=
  match u.ask with
  | .put _ no => (((getCrew s u.crew).round no).map Round.evaluated).getD false
  | _ => false

/-- Whether signal u goes before signal v at the roots. -/
def upBefore (s : State) (u v : Up) : Bool :=
  let rel (x : Up) : Nat := (getRegion s x.firing.region).relative (x.firing.cluster % 512)
  let key (x : Up) : List Nat := [x.at_, askStep x.ask, rel x, x.entry]
  decide (key u < key v)

/-- Signals that have reached their root and are neither held nor stalled. -/
def dueUps (s : State) : List Nat :=
  (List.range s.plumb.ups.length).filter fun i => match s.plumb.ups[i]? with
    | some u => !u.held && decide (u.at_ ≤ s.htime) && !stalled s u
    | none => false

/-- The due signal that the roots take next. -/
def nextUp (s : State) : Option Nat :=
  (dueUps s).foldl (fun m i => match m with
    | none => some i
    | some j => match s.plumb.ups[i]?, s.plumb.ups[j]? with
      | some u, some v => if upBefore s u v then some i else some j
      | _, _ => some j) none

/-- A root takes the next signal that has reached it, or holds it. -/
def execRootSignalTake (k : Nat) (s : State) : Host.Outcome State Fault Refusal :=
  let p := s.plumb
  .next (if nextUp s ≠ some k then s
    else match p.ups[k]? with
      | none => s
      | some u =>
        if upLate s u then s
        else match takeUp { s with plumb := { p with ups := removeAt p.ups k } } u u.entry with
        | some s => settleCrew s u.crew
        | none => match u.ask with
          | .put .. => s
          | _ => { s with plumb := { p with ups := removeAt p.ups k ++ [{ u with held := true }] } })

/-! ### Issue (R354, R361) -/

/-- The checks of a handle port and its crew, then the rest. -/
def withCrew (s : State) (f : Firing) (types : List (Option (BitVec 8))) (used : List Nat) (k : Nat → Act) : Act :=
  match firstError (scalarPort f 0 :: types) with
  | some e => .error e 0
  | none =>
    if portPoison f used then .purge
    else match crewPort s f with
      | none => .error eBOUNDS 0
      | some n => k n

def lookUp (s : State) (f : Firing) : Act := .later (modPlumb s fun p => { p with lookups := p.lookups ++ [f] })

/-- Enter Plumb toward a crew's root, after the irrevocable handshake where the rule asks for one; while the root's buffer
is full the firing waits at its endpoint. -/
def enterCrew (s : State) (f : Firing) (n : Nat) (shake : Bool) (ask : Ask) (data : Option Payload) : Act :=
  let c := getCrew s n
  if rootFull s n then .hold
  else match if shake then handshake s f.region f.tag else some s with
    | none => .later s
    | some s => .later (enter s f n c.pkg ask data)

def execPbar (o : Op) (s : State) : Host.Outcome State Fault Refusal :=
  .next (fire s o fun s f => withCrew s f [] [0] fun _ => lookUp s f)

def execPbcast (o : Op) (s : State) : Host.Outcome State Fault Refusal :=
  .next (fire s o fun s f => withCrew s f [scalarPort f 1] [0] fun n =>
    if immBit o 0 then enterCrew s f n true .send none else lookUp s f)

def execPredOpen (o : Op) (s : State) : Host.Outcome State Fault Refusal :=
  .next (fire s o fun s f =>
    let two := f.toks.length == 2
    withCrew s f (if two then [scalarPort f 1] else []) (if two then [0, 1] else [0]) fun n =>
      enterCrew s f n true (.open o.fmt (if two then bits (tokAt f 1).payload 31 0 else immBits o 31 0)) none)

def execPredPut (o : Op) (s : State) : Host.Outcome State Fault Refusal :=
  .next (fire s o fun s f => withCrew s f [scalarPort f 1] [0] fun _ => lookUp s f)

/-- A TRED put's tile port. -/
def tredTile (s : State) (f : Firing) : Option (BitVec 8) :=
  if isTile (tokAt f 1) then checkTile s f.cluster (tokAt f 1).payload none else some eTYPE_MISMATCH

def execTred (o : Op) (s : State) : Host.Outcome State Fault Refusal :=
  .next (fire s o fun s f =>
    if immBit o 33 then
      withCrew s f [scalarPort f 1] [0, 1] fun n =>
        let (rows, epr) := tredShape f
        if !shapeFits o.fmt rows epr || decide (32 < rows * pitchFor o.fmt epr) then .error eBOUNDS 0
        else enterCrew s f n true (.open o.fmt (immBits o 31 0)) none
    else withCrew s f [tredTile s f] [0] fun _ => lookUp s f)

def execCrewNew (o : Op) (s : State) : Host.Outcome State Fault Refusal :=
  .next (fire s o fun s f =>
    match scalarPort f 0 with
    | some e => .error e 0
    | none =>
      let q := portValue f 0
      if portPoison f [0] then .purge
      else if 65536 < q then .error eBOUNDS 0
      else if 4096 ≤ heldAt s (immBit o 0) (f.cluster / 512) then .hold
      else match handshake s f.region f.tag with
        | none => .later s
        | some s => .later (enter s f noCrew (immBit o 0) (.new (immBit o 0) q) none))

def execCrewJoin (o : Op) (s : State) : Host.Outcome State Fault Refusal :=
  .next (fire s o fun s f => withCrew s f [] [0] fun n => enterCrew s f n false .join none)

def execCrewLeave (o : Op) (s : State) : Host.Outcome State Fault Refusal :=
  .next (fire s o fun s f => withCrew s f [] [0] fun n => enterCrew s f n false (.leave f.tag) none)

def execCrewFree (o : Op) (s : State) : Host.Outcome State Fault Refusal :=
  .next (fire s o fun s f => withCrew s f [] [0] fun n => enterCrew s f n true .free none)

/-! ### Member lookups (R354) -/

/-- The home cluster answers the lookup of a firing's member index. -/
def execMemberIndexLookup (k : Nat) (s : State) : Host.Outcome State Fault Refusal :=
  .next (match s.plumb.lookups[k]? with
    | none => s
    | some f =>
      let s' := modPlumb s fun p => { p with lookups := removeAt p.lookups k }
      if isStopped s f.region then s
      else match crewPort s f with
        | none => plumbError s' f eBOUNDS
        | some n =>
          let c := getCrew s n
          match memberOf c f.tag with
          | none => plumbError s' f eBOUNDS
          | some m =>
            if isPut f then placePut s' f n m.index
            else if rootFull s n then s
            else enter s' f n c.pkg (.arrive m.index) none)

/-! ### Notices (R365, R366) -/

def execReductionNoticeLanding (crew rnd : Nat) (s : State) : Host.Outcome State Fault Refusal :=
  .next (match s.plumb.downs.findIdx? fun d => d.what == .notice crew rnd && decide (d.at_ ≤ s.htime) with
    | none => s
    | some i =>
      let s := modPlumb s fun p => { p with downs := removeAt p.downs i }
      enterPuts (modCrew s crew fun c => { c with noticed := c.noticed ++ ((c.round rnd).map Round.no).toList }) crew)

/-! ### Combining (R368) -/

/-- One step of a tree: the class-5 operations under the OP codes of class 6, with every NaN the default NaN. -/
def treeOp (op : Nat) (f : Fmt) (rnd : Rnd) (sat : Bool) (a b : Nat) : Nat × Flags :=
  let fn := match op with | 0 => 1 | 1 => 5 | 2 => 6 | 3 => 2 | 4 => 3 | _ => 4
  let r := bankOp fn f rnd sat 0 a b
  match fpOf f with
  | some p => if (unpack p r.1).isNan then (defaultNan p, r.2) else r
  | none => r

def pairLeaves (g : Nat → Nat → Nat × Flags) : List (Option Nat) → List (Option Nat) × Flags
  | a :: b :: t =>
    let (rest, fl) := pairLeaves g t
    match a, b with
    | some x, some y => let r := g x y; (some r.1 :: rest, fl ||| r.2)
    | none, y => (y :: rest, fl)
    | x, none => (x :: rest, fl)
  | l => (l, 0)

/-- Combine 2 ^ n leaves level by level. -/
def combineTree (g : Nat → Nat → Nat × Flags) : Nat → List (Option Nat) → Option Nat × Flags
  | 0, l => ((l.head?).bind id, 0)
  | n + 1, l =>
    let (l, fl) := pairLeaves g l
    let (r, fl') := combineTree g n l
    (r, fl ||| fl')

/-- Identity(OP, FMT). -/
def identityOf (op : Nat) (f : Fmt) : Nat :=
  match fpOf f, op with
  | some p, 1 => packInf p false
  | some p, 2 => packInf p true
  | some _, _ => 0
  | none, 1 => intBits (fmtBits f) (intMax f)
  | none, 2 => intBits (fmtBits f) (intMin f)
  | none, 3 => 2 ^ 64 - 1
  | none, _ => 0

def leafOf (ls : List Leaf) (i : Nat) : Option Leaf := ls.find? fun l => l.member == i

/-- The value of R368 over some leaves, each read by v. -/
def roundValue (r : Round) (ls : List Leaf) (v : Leaf → Nat) : Nat × Flags :=
  let x := combineTree (treeOp r.op r.fmt r.rnd r.sat) (bitLen r.width - 1)
    ((List.range r.width).map fun i => (leafOf ls i).map v)
  (x.1.getD (identityOf r.op r.fmt), x.2)

/-- The tile of a tile round over some leaves, each element's flags, and whether any leaf carries poison. -/
def roundTile (s : State) (r : Round) (ls : List Leaf) : Tile × List Flags × Bool :=
  let tiles := ls.map fun l => (l.member, (readTile s r.cluster l.value).2)
  let at_ (i j : Nat) : Nat × Flags :=
    roundValue r ls fun l => ((tiles.find? fun t => t.1 == l.member).map fun t => t.2.1.at_ i j).getD 0
  let res := (List.range r.rows).map fun i => (List.range r.epr).map fun j => at_ i j
  ({ fmt := r.fmt, epr := r.epr, elems := res.map fun x => x.map Prod.fst, scales := [] },
   res.flatMap (fun x => x.map Prod.snd), ls.any Leaf.poison || tiles.any fun t => t.2.2)

/-- Form the value of a round over some leaves as a packet: of a tile round, without its tile. -/
def roundPacket (s : State) (r : Round) (ls : List Leaf) (member : Nat) : RPacket × Flags :=
  if r.kind = .tileReduction then
    let (_, fl, p) := roundTile s r ls
    ({ member := member, value := 0, poison := p }, orFlags fl)
  else
    let x := roundValue r ls fun l => l.value.toNat
    ({ member := member, value := BitVec.ofNat 64 x.1, poison := ls.any Leaf.poison }, x.2)

/-! ### Evaluation, late contributions, final packets (R367, R369) -/

/-- Deadline evaluation, the last step of a root's tick (R351). -/
def execDeadlineEvaluation (crew rnd : Nat) (s : State) : Host.Outcome State Fault Refusal :=
  let c := getCrew s crew
  .next (match c.open_ with
    | none => s
    | some r =>
      if !r.isReduction || r.no ≠ rnd || decide (s.htime < r.deadline) || isStopped s c.region ||
          (dueUps s).any fun i => (s.plumb.ups[i]?.map fun u => u.crew == crew).getD false then s
      else
        let on := r.leaves.filter Leaf.onTime
        let (p, fl) := roundPacket s r on 0
        let r := { r with evaluated := true, result := p, flags := fl, retired := r.covered || c.freeing }
        let s := setCrew s crew { c with open_ := none, rounds := c.rounds ++ [r] }
        settleCrew (land s (s.htime + c.lat) (.result crew rnd none)) crew)

/-- A late contribution, in its turn at the root, is stored and a correction packet sent (R351, R369). -/
def execLateContribution (k : Nat) (s : State) : Host.Outcome State Fault Refusal :=
  let p := s.plumb
  .next (match p.ups[k]? with
    | none => s
    | some u =>
      let c := getCrew s u.crew
      if nextUp s ≠ some k ∨ !upLate s u then s
      else match u.ask with
        | .put m no =>
          (match c.round no with
           | none => s
           | some r =>
             let s' := { s with plumb := { p with ups := removeAt p.ups k } }
             match if r.gone.contains m then some eBOUNDS else putError r u.firing with
             | some code => reply s' u (s.htime + c.lat) (.error u.firing code)
             | none => match storeLeaf s' u r m with
               | none => s
               | some (s, l) =>
                 let w := u.waiting (some m) true
                 let put := fun (r : Round) =>
                   let r : Round := { r with arrived := r.arrived ++ [m], leaves := r.leaves ++ [l], waits := r.waits ++ w }
                   let last := if r.covered then some (s.htime + 1) else r.finalAt
                   { r with finalAt := last }
                 let s := modCrew s u.crew fun c => c.modRound no put
                 let s := sendPacket s u.crew no { member := m, value := l.value, poison := l.poison }
                 land s (s.htime + c.lat) (.result u.crew no (some m)))
        | _ => s)

/-- One tick after the last correction of a completed round, the final packet (R369). -/
def execFinalPacket (crew rnd : Nat) (s : State) : Host.Outcome State Fault Refusal :=
  .next (match (getCrew s crew).round rnd with
    | none => s
    | some r =>
      match r.finalAt with
      | none => s
      | some t =>
        if s.htime < t ∨ r.retired then s
        else
          let (p, _) := roundPacket s r r.leaves 0xFFFFFFFF
          sendPacket (modCrew s crew fun c => c.modRound rnd fun r => { r with finalAt := none }) crew rnd p)

/-! ### What lands (R362, R363, R367, R370) -/

/-- Release of a barrier or broadcast round: every firing in the same tick, and a replayed member's firing that comes later
at once (R356). -/
def execRoundRelease (crew : Nat) (s : State) : Host.Outcome State Fault Refusal :=
  let c := getCrew s crew
  let due (r : Round) : Bool := match r.releaseAt with
    | some t => decide (t ≤ s.htime) && !r.awaits && !(r.retired && r.waits.isEmpty)
    | none => false
  .next (if isStopped s c.region then s
    else match c.rounds.find? due with
      | none => s
      | some r =>
        let s := setCrew s crew (c.modRound r.no fun r => { r with retired := true, waits := [] })
        let token (f : Firing) : Tok :=
          match r.sent with
          | some t => { Tok.none with kind := t.kind, payload := t.payload, flag := poisonFlag t.flag.poison }
          | none => if f.toks.length = 2 then tokAt f 1 else tokAt f 0
        let s := r.waits.foldl (fun s w =>
          let t := if w.member.isNone then tokAt w.firing 1 else token w.firing
          plumbEmit s w.firing (passTo (destinations s w.firing (opWord w.firing.word)) t) 0) s
        settleCrew s crew)

/-- The status word (R367). -/
def statusWord (n : Nat) (c : Crew) (r : Round) (late : Bool) : Nat :=
  let count := (r.leaves.filter Leaf.onTime).length
  (if count = r.set.length then 2 ^ 63 else 0) + (if late then 2 ^ 62 else 0) + n * 2 ^ 54 + c.gen.toNat * 2 ^ 46 +
  r.no * 2 ^ 34 + r.set.length * 2 ^ 17 + count

/-- The bitmap of the members on time, for the route entries: a bitmap token, or a b1 tile; none while the pool cannot
supply it. Beyond the widest row it is an error BOUNDS (notes/assumptions/16.md). -/
def bitmapOuts (s : State) (f : Firing) (r : Round) : Option (State × List Out) :=
  let ds := (destinations s f (opWord f.word)).filter fun d => decide (2 ≤ d.1)
  let on := (r.leaves.filter Leaf.onTime).map Leaf.member
  if ds.isEmpty then some (s, [])
  else if r.width ≤ 64 then
    some (s, outTo ds .bitmap Flag.none (BitVec.ofNat 64 (on.foldl (fun x m => x ||| 2 ^ m) 0)))
  else if 4096 < r.width then
    some (s, outTo ds .error Flag.none (errorPayload (getRegion s f.region) f.cluster f.slot 0 eBOUNDS))
  else
    let t : Tile := { fmt := .b1, epr := r.width, scales := [],
                      elems := [(List.range r.width).map fun i => if on.contains i then 1 else 0] }
    (putTile s f.region f.cluster f.tag t false).map fun x => (x.1, outTo ds .tile Flag.none x.2)

/-- Emit a reduction's result at one firing; none while it must wait. -/
def emitResult (s : State) (n : Nat) (r : Round) (w : Waits) : Option State :=
  let f := w.firing
  let c := getCrew s n
  let status := statusWord n c r w.late
  if r.kind = .tileReduction then
    let (t, fl, p) := roundTile s r (r.leaves.filter Leaf.onTime)
    match tagUnder s f (opWord f.word).xfm with
    | .refused => none
    | tg =>
      let (g, tag) := firingUnder f tg
      let o := opWord f.word
      let outs := twoTo ((destinations s g o).filter fun d => d.1 != 1 || w.member.isNone) (tileTok t p) (wordTok .scalar false status)
      let data := some (payloadOf t p)
      if w.member.isSome then some (answer s g tag srcPlumb outs data)
      else
        let s := putFlags s f o r.flags
        some (if flagsTrap s f o r.flags then captureWith s f (outToks s g tag outs) data r.flags (firstTrap s f fl)
              else answer s g tag srcPlumb outs data)
  else
    (bitmapOuts s f r).map fun x =>
      let s := x.1
      let ds := destinations s f (opWord f.word)
      plumbEmit s f (outWord (ds.filter fun d => d.1 == 0) .scalar r.result.poison r.result.value.toNat ++
        outWord (ds.filter fun d => d.1 == 1) .scalar false status ++ x.2) (if w.member.isNone then r.flags else 0)

/-- Deliver a landed result to the firings it is for; those that must wait stay with the landing. -/
def deliverResult (s : State) (n no : Nat) (late : Option Nat) : State :=
  match (getCrew s n).round no with
  | none => s
  | some r =>
    let mine (w : Waits) : Bool := match late with | none => !w.late | some m => w.late && w.member == some m
    (r.waits.filter mine).foldl (fun s w =>
      if w.firing = Firing.none then s
      else match emitResult s n r w with
        | none => s
        | some s => modCrew s n fun c => c.modRound no fun r => { r with waits := r.waits.filter fun x => x != w }) s

/-- Packets that a die's log holds. -/
def logCount (s : State) (d : Nat) : Nat := (s.plumb.logs.filter fun l => l.die == d).length

/-- A packet of an unretired round lands at every endpoint of a crew's scope; a full log does not keep it. -/
def keepPacket (s : State) (n no ix : Nat) (p : RPacket) : State :=
  let c := getCrew s n
  let dies := if c.pkg then s.service.dies else [c.die]
  if ((c.round no).map Round.retired).getD true then s
  else dies.foldl (fun s d =>
    if 1024 ≤ logCount s d then s
    else modPlumb s fun q =>
      { q with logs := q.logs ++ [{ die := d, crew := n, gen := c.gen, round := no, ix := ix, packet := p }] }) s

/-- The round a PCORR's status word names, unretired and of a crew that is valid for the firing. -/
def corrRound (s : State) (f : Firing) : Option (Nat × Round) :=
  let w := (tokAt f 0).payload
  let n := bits w 61 54
  let c := getCrew s n
  if c.used && bits w 53 46 == c.gen.toNat && c.region == f.region && (c.pkg || c.die == f.cluster / 512) then
    ((c.all.find? fun r => r.no == bits w 45 34 && r.isReduction && !r.retired).map fun r => (n, r))
  else none

def corrCursor (f : Firing) : Nat :=
  let o := opWord f.word
  if immBit o 16 then immBits o 15 0 else portValue f 1

/-- Emit the k-th packet of a round at a PCORR. -/
def emitPacket (s : State) (f : Firing) (r : Round) (p : RPacket) : State :=
  if r.kind = .tileReduction then
    match tagUnder s f (opWord f.word).xfm with
    | .refused => s
    | tg =>
      let (g, tag) := firingUnder f tg
      let (t, bad) := if p.member = 0xFFFFFFFF then
          (let x := roundTile s r r.leaves; (x.1, x.2.2))
        else (let x := readTile s r.cluster p.value; (x.2.1, p.poison || x.2.2))
      answer s g tag srcPlumb (twoTo (destinations s g (opWord g.word)) (tileTok t bad) (wordTok .scalar false p.member))
        (some (payloadOf t bad))
  else plumbEmit s f (outWords (destinations s f (opWord f.word)) p.poison p.value.toNat p.member) 0

/-- What becomes of a PCORR now: its packet, an error, or it waits (R370). -/
def serveCorr (s : State) (f : Firing) : Option State :=
  match corrRound s f with
  | none => some (plumbError s f eBOUNDS)
  | some (n, r) =>
    let k := corrCursor f
    if r.kind = .tileReduction ∧ r.cluster ≠ f.cluster then some (plumbError s f eBOUNDS)
    else match s.plumb.logs.find? fun l => l.die == f.cluster / 512 && l.crew == n && l.round == r.no && l.ix == k with
      | some l => some (emitPacket s f r l.packet)
      | none =>
        let landing := s.plumb.downs.any fun d => match d.what with
          | .packet m no ix _ => m == n && no == r.no && ix == k
          | _ => false
        if k < r.packets.length ∧ !landing then some (plumbError s f eBOUNDS) else none

/-- Serve the PCORRs that can go on. -/
def serveCorrs (s : State) : State :=
  s.plumb.pcorrs.foldl (fun s f =>
    if isStopped s f.region then s
    else match serveCorr s f with
      | none => s
      | some s => modPlumb s fun p => { p with pcorrs := p.pcorrs.filter fun g => g != f }) s

def execPcorr (o : Op) (s : State) : Host.Outcome State Fault Refusal :=
  .next (fire s o fun s f =>
    match firstError ((List.range f.toks.length).map (scalarPort f)) with
    | some e => .error e 0
    | none =>
      if portPoison f [0, 1] then .purge
      else match serveCorr s f with
        | some s => .later s
        | none => .later (modPlumb s fun p => { p with pcorrs := p.pcorrs ++ [f] }))

/-- The final packet has landed: the round retires, and its packets leave every log. -/
def retireRound (s : State) (n no : Nat) : State :=
  let s := modCrew s n fun c => c.modRound no fun r => { r with retired := true }
  let s := modPlumb s fun p => { p with logs := p.logs.filter fun l => !(l.crew == n && l.round == no) }
  settleCrew (serveCorrs s) n

/-- The firings a landing is for belong to a region that is stopped. -/
def landingStopped (s : State) (d : Down) : Bool :=
  match d with
  | .result n .. => isStopped s (getCrew s n).region
  | _ => false

/-- One landing takes effect. A result stays until every firing it is for has emitted. -/
def landNow (s : State) (i : Nat) (d : Down) : State :=
  let gone := modPlumb s fun p => { p with downs := removeAt p.downs i }
  match d with
  | .emit f t0 t1 => plumbEmit gone f (twoOuts gone f t0 t1) 0
  | .error f code => plumbError gone f code
  | .notice .. => s
  | .packet n no ix p =>
    let s := serveCorrs (keepPacket gone n no ix p)
    if p.member = 0xFFFFFFFF then retireRound s n no else s
  | .result n no late =>
    let s := deliverResult s n no late
    let mine (w : Waits) : Bool := match late with | none => !w.late | some m => w.late && w.member == some m
    let left := (((getCrew s n).round no).map fun r => r.waits.any mine).getD false
    if left then s else settleCrew (modPlumb s fun p => { p with downs := removeAt p.downs i }) n

def execResultLanding (k : Nat) (s : State) : Host.Outcome State Fault Refusal :=
  .next (match s.plumb.downs[k]? with
    | none => s
    | some l => if s.htime < l.at_ ∨ landingStopped s l.what then s else landNow s k l.what)

/-! ### PTIME (R373) -/

def execPtime (o : Op) (s : State) : Host.Outcome State Fault Refusal :=
  .next (fire s o fun s f =>
    let k := getCluster s f.cluster
    let wait (t : Nat) : Act :=
      if 16 ≤ k.ptimes.length then .hold
      else .later (setCluster s f.cluster { k with ptimes := k.ptimes ++ [(f, t)] })
    match scalarPort f 0 with
    | some e => .error e 0
    | none =>
      match immBits o 36 35 with
      | 0 => .done s (outAll s f o .scalar Flag.none (BitVec.ofNat 64 s.htime)) 0 0
      | 1 => wait (s.htime + immBits o 31 0)
      | _ =>
        if portPoison f [0] then .purge
        else if portValue f 0 ≤ s.htime then .done s (outAll s f o .scalar Flag.none (BitVec.ofNat 64 s.htime)) 0 0
        else wait (portValue f 0))

/-- A waiting PTIME emits at its tick, or at the thaw when it passed in a freeze. -/
def execPtimeExpiry (c k : Nat) (s : State) : Host.Outcome State Fault Refusal :=
  .next (match (getCluster s c).ptimes[k]? with
    | none => s
    | some (f, t) =>
      if s.htime < t ∨ isStopped s f.region then s
      else
        let s := modCluster s c fun x => { x with ptimes := removeAt x.ptimes k }
        let o := opWord f.word
        if immBits o 36 35 = 1 then plumbEmit s f (passTo (destinations s f o) (tokAt f 0)) 0
        else plumbEmit s f (outAll s f o .scalar Flag.none (BitVec.ofNat 64 s.htime)) 0)

/-- A thaw gives a region's open reductions the ticks its freeze took, and puts whose notice landed meanwhile enter (R381). -/
def plumbThaw (s : State) (rid ticks : Nat) : State :=
  let later (c : Crew) : Crew := { c with open_ := c.open_.map fun r => { r with deadline := r.deadline + ticks } }
  let s := modPlumb s fun p => { p with crews := p.crews.map fun e => if e.2.region = rid then (e.1, later e.2) else e }
  ((s.plumb.crews.filter fun e => e.2.region == rid).map Prod.fst).foldl enterPuts s

end Sys2Proof.Machine
end

