-- ==== Sys2Proof/Machine/Link.lean ====
section
/-! DEFINITION. The Link Engine (12 R385 to R414): target words and keys, incoming accesses and messages, class-7 firings,
backoff, the Scewen ports and the reliable message layer. -/

namespace Sys2Proof.Machine

/-! ### Target words (R399) -/

/-- PEER and DEST of a target word. -/
def targetDest (t : Word) : BitVec 22 := t.extractLsb' 32 22
def targetPeer (t : Word) : Bool := t.getLsbD 53
def targetPkg (t : Word) : BitVec 21 := t.extractLsb' 32 21
def targetKey (t : Word) : BitVec 32 := t.extractLsb' 0 32

/-- The target is this package. -/
def isLocal (t : Word) : Bool := !targetPeer t && targetPkg t == Config.dest

/-- A connection entry with V set. -/
def connection (s : State) (i : Nat) : Option (List Byte) :=
  let e := Tab.get [] s.link.conns i
  if (e.getD 30 0).getLsbD 7 then some e else none

/-- A target word names a package of the system or a connection. -/
def targetOk (s : State) (t : Word) : Bool :=
  if targetPeer t then bits t 52 44 == 0 && (connection s (bits t 43 32)).isSome
  else isLocal t || Config.isPackage (targetPkg t)

/-- The target is a Krovxis package of another domain. -/
def isForeign (t : Word) : Bool := !targetPeer t && bits (targetPkg t) 20 12 != bits Config.dest 20 12

/-! ### Keys (R400, R402) -/

def keyField (e : List Byte) (o n : Nat) : Nat := leNat ((e.drop o).take n)

/-- What an access needs of its key. -/
inductive Right where
  | read | write | atomic | send
  deriving DecidableEq, Repr

def Right.bit (r : Right) : Nat := match r with | .read => 31 | .write => 30 | .atomic => 29 | .send => 28

/-- Checks 1 and 2: the entry, or the reason of KEY_REVOKED (R401). -/
def keyEntry (s : State) (key : BitVec 32) (need : Right) : Except (BitVec 8) (List Byte) :=
  let e := Tab.get [] s.link.keys (bits key 11 0)
  let kind := keyField e 16 8 / 2 ^ 62
  let suits := if need = .send then kind == 2 else decide (kind ≤ 1)
  if !(e.getD 28 0).getLsbD 7 || keyField e 8 8 = 0 then .error 1
  else if keyField e 24 4 % 2 ^ 20 ≠ bits key 31 12 then .error 2
  else if !(keyField e 24 4).testBit need.bit || !suits then .error 3
  else .ok e

/-- Where an access of n bytes lands: check 3, then the memory behind the key. -/
def keyPlace (s : State) (e : List Byte) (a n : Nat) : Option Nat :=
  let v := keyField e 0 8
  let p := keyField e 16 8 % 2 ^ 40 + (a - v)
  if a < v ∨ v + keyField e 8 8 < a + n then none
  else if keyField e 16 8 / 2 ^ 62 = 0 then
    if hbmExists s p && hbmExists s (p + n - 1) && !inSinkArea p && !inSinkArea (p + n - 1) then some p else none
  else if p + n ≤ 2 ^ 29 && s.service.dies.contains (p / 2 ^ 26) && s.service.dies.contains ((p + n - 1) / 2 ^ 26) then
    some (bankBase + p)
  else none

/-! ### Incoming accesses (R400, R406, R407) -/

def errAnswer (s : State) (c : BitVec 8) : State × LinkAnswer := (s, .err c 0)

/-- A read or write of a remote element at a flat address. -/
def remoteRead (s : State) (row : Bool) (a n : Nat) : State × LinkAnswer :=
  if kindOf a = .bank then
    if row ∧ a % 8 ≠ 0 then errAnswer s eBOUNDS
    else match loadBank s a n with
      | none => errAnswer s eTYPE_MISMATCH
      | some (s, bs, p) => (s, .data bs p)
  else let (s, bs, p) := readMem s a n; (s, .data bs p)

def remoteWrite (s : State) (row : Bool) (a : Nat) (bs : List Byte) (poison : Bool) : State × LinkAnswer :=
  if kindOf a = .bank then
    if row ∧ a % 8 ≠ 0 then errAnswer s eBOUNDS
    else match storeBank s a bs poison with
      | .error c => errAnswer s c
      | .ok s => (s, .ok)
  else ((writeMem s a bs poison).1, .ok)

/-- Wake every waiter of a word, as WAKE with count 0. -/
def wakeWord (s : State) (a : Nat) : State :=
  ((waitersOf s a).filter fun w => w.kind == .wait && !isStopped s w.firing.region).foldl (fun s w => returnWait s w 1) s

/-- The notification of an LPUT: one atomic n64 add of 1, and a wake-up. -/
def remoteNotify (s : State) (a : Nat) : State × LinkAnswer :=
  if a % 8 ≠ 0 then errAnswer s eBOUNDS
  else if kindOf a ≠ .bank then errAnswer s eTYPE_MISMATCH
  else match plainElem s a 8 with
    | .error c => errAnswer s c
    | .ok (s, v) => (wakeWord (putElem s a 8 ((v + 1) % 2 ^ 64)) a, .ok)

/-- LATOM at the target bank. -/
def remoteAtom (s : State) (a : Nat) (fn : Nat) (f : Fmt) (rnd : Rnd) (operand compare : Nat) : State × LinkAnswer :=
  let n := bankWordSize f
  if a % n ≠ 0 then errAnswer s eBOUNDS
  else if kindOf a ≠ .bank then errAnswer s eTYPE_MISMATCH
  else match plainElem s a n with
    | .error c => errAnswer s c
    | .ok (s, old) =>
      let new :=
        if fn = 9 then (if old = compare % 2 ^ fmtBits f then operand % 2 ^ fmtBits f else old)
        else (bankOp fn f rnd false 0 old (operand % 2 ^ fmtBits f)).1
      (putElem s a n new, .old (BitVec.ofNat 64 old))

/-- Check an incoming access and perform it. -/
def remoteAccess (s : State) (x : RemoteAccess) : State × LinkAnswer :=
  let need := match x.what with | .read .. => Right.read | .write .. => .write | _ => .atomic
  let n := match x.what with | .read n _ => n | .write bs .. => bs.length | .notify => 8 | .atom _ f .. => bankWordSize f
  match keyEntry s x.key need with
  | .error r => (s, .err eKEY_REVOKED r)
  | .ok e => match keyPlace s e x.addr.toNat n with
    | none => errAnswer s eADDR_RANGE
    | some a => match x.what with
      | .read n row => remoteRead s row a n
      | .write bs p row => remoteWrite s row a bs p
      | .notify => remoteNotify s a
      | .atom fn f rnd v c => remoteAtom s a fn.toNat f rnd v.toNat c.toNat

/-! ### Receive queues (R408) -/

def getRecvQueue (s : State) (i : Nat) : RecvQueue := Tab.get RecvQueue.reset s.link.queues i
def setRecvQueue (s : State) (i : Nat) (q : RecvQueue) : State :=
  modLink s fun l => { l with queues := Tab.set RecvQueue.reset l.queues i q }

/-- The HBM address of a queue's slot. -/
def slotBase (q : RecvQueue) (i : Nat) : Nat := (q.hi.toNat * 2 ^ 32 + q.base.toNat) % 2 ^ 40 + 32768 * i

def sourceWord (peer : Bool) (src : BitVec 21) : Word := BitVec.ofNat 64 ((if peer then 2 ^ 53 else 0) + src.toNat * 2 ^ 32)

/-- Store a message in the next slot of queue i. -/
def storeMessage (s : State) (i : Nat) (m : RemoteSend) : State :=
  let q := getRecvQueue s i
  let x : Stored := { slot := q.next, source := sourceWord m.peer m.src, tile := m.tile, fmt := m.fmt, rows := m.rows,
                      epr := m.epr, size := m.data.length }
  let s := (writeMem s (slotBase q q.next) m.data m.poisoned).1
  setRecvQueue s i { q with next := (q.next + 1) % (q.slots.toNat + 1), msgs := q.msgs ++ [x] }

/-- The queue that a message is for: by its key, or for a RoCE peer by its connection. -/
def sendQueue (s : State) (m : RemoteSend) : Except (BitVec 8) Nat :=
  if m.peer then
    match connection s (m.src.toNat % 4096) with
    | some e => .ok ((e.getD 29 0).toNat % 64)
    | none => .error 1
  else match keyEntry s m.key .send with
    | .error r => .error r
    | .ok e => .ok (keyField e 16 8 % 64)

/-- Take in a message: stored, refused by a full queue, or an error. -/
def remoteSend (s : State) (m : RemoteSend) : State × LinkAnswer :=
  match sendQueue s m with
  | .error r => (s, .err eKEY_REVOKED r)
  | .ok i =>
    let q := getRecvQueue s i
    if !q.en || decide (32768 < m.data.length) then errAnswer s eBOUNDS
    else if q.slots.toNat + 1 ≤ q.msgs.length then (s, .nack)
    else (storeMessage s i m, .ok)

/-! ### Issued link firings -/

def getReq (s : State) (k : Nat) : Option LinkReq := Tab.get none s.link.reqs k
def setReq (s : State) (k : Nat) (q : Option LinkReq) : State := modLink s fun l => { l with reqs := Tab.set none l.reqs k q }

def linkDests (s : State) (q : LinkReq) : List (Nat × Dst) := destinations s q.firing (opWord q.firing.word)
def linkOpc (f : Firing) : Nat := bits f.word 124 117

/-- Send the asks, or the message, of a request to its target. -/
def dispatch (s : State) (k : Nat) (q : LinkReq) (asks : List (Nat × RemoteAccess)) : State :=
  let s := if isForeign q.target then
      modLink s fun l => { l with eth := l.eth.filter (fun e => e.1 != k) ++ [(k, s.htime)] }
    else s
  let msgs := if asks.isEmpty then q.msg.toList else []
  if isLocal q.target then
    modLink s fun l => { l with loop := l.loop ++ asks.map Prod.snd, sends := l.sends ++ msgs }
  else
    let s := asks.foldl (fun s a => send s (.access (targetDest q.target) a.2)) s
    msgs.foldl (fun s m => send s (.message (targetDest q.target) m)) s

/-- The result of a request whose target has answered everything (R406 to R408). -/
def finishReq (s : State) (k : Nat) (q : LinkReq) : State :=
  let s := modLink (setReq s k none) fun l => { l with eth := l.eth.filter fun e => e.1 != k }
  let f := q.firing
  let o := opWord f.word
  let ds := linkDests s q
  let bytes (i : Nat) : List Byte := ((q.got.find? fun g => g.1 == i).map fun g => g.2.1).getD []
  let bad := q.got.any fun g => g.2.2
  match q.fail with
  | some (i, c) => answerError s f q.tag srcLink ds c i
  | none =>
    match linkOpc f with
    | 0 => answer s f q.tag srcLink (outWord ds .done false q.bytes) none
    | 1 =>
      if immBit o 25 then
        let (rows, epr) := immShapeHi o
        answerTile s f q.tag srcLink ds (tileOfRows o.fmt epr ((List.range rows).map bytes)) bad
      else answer s f q.tag srcLink (outWord ds .scalar bad (narrow o.fmt (leNat (bytes 0))).toNat) none
    | 2 => answer s f q.tag srcLink (outWord ds .scalar false (narrow o.fmt (leNat (bytes 0))).toNat) none
    | _ => answer s f q.tag srcLink (outWord ds .done false 0) none

/-- Go on with a request: its notification once every element has been answered, then its result. -/
def goOn (s : State) (k : Nat) (q : LinkReq) : State :=
  if !q.asks.isEmpty || q.msg.isSome then setReq s k (some q)
  else match q.note with
    | some a => dispatch (setReq s k (some { q with note := none, asks := [a] })) k q [a]
    | none => finishReq s k q

/-- KEY_REVOKED toward the owner of the firing's region, once for the firing (R401). -/
def raiseRevoked (s : State) (q : LinkReq) (addr : Nat) (reason : BitVec 8) : State :=
  let f := q.firing
  raiseCause s f.region aKEY_REVOKED f.cluster f.slot (tagBits f.tag .scalar Flag.none)
    (leBytes 8 q.target.toNat ++ leBytes 8 addr ++ leBytes 1 reason.toNat)

/-- Note the failure of an element. -/
def LinkReq.failAt (q : LinkReq) (i : Nat) (c : BitVec 8) : LinkReq :=
  { q with fail := match q.fail with | some (j, d) => if i < j then some (i, c) else some (j, d) | none => some (i, c) }

def askSize (a : RemoteAccess) : Nat :=
  match a.what with | .read n _ => n | .write bs .. => bs.length | .notify => 0 | .atom _ f .. => bankWordSize f

/-- The answer suits what was asked. -/
def answerFits (a : RemoteAccess) (x : LinkAnswer) : Bool :=
  match a.what, x with
  | .read n _, .data bs _ => bs.length == n
  | .write .., .ok | .notify, .ok | .atom .., .old _ => true
  | _, .err c _ => c != 0
  | _, _ => false

/-- The answer to the first unanswered element of a request. -/
def takeElemAnswer (s : State) (k : Nat) (q : LinkReq) (i : Nat) (a : RemoteAccess) (x : LinkAnswer) : State :=
  let q := { q with asks := q.asks.drop 1 }
  match x with
  | .ok => goOn s k { q with bytes := q.bytes + askSize a }
  | .data bs p => goOn s k { q with got := q.got ++ [(i, bs, p)] }
  | .old v => goOn s k { q with got := q.got ++ [(i, leBytes (askSize a) v.toNat, false)] }
  | .err c r =>
    let first := c == eKEY_REVOKED && !q.revoked
    let s := if first then raiseRevoked s q a.addr.toNat r else s
    goOn s k { q.failAt i c with revoked := q.revoked || first }
  | .nack => s

/-- The answer to an LSEND's message. -/
def takeSendAnswer (s : State) (k : Nat) (q : LinkReq) (x : LinkAnswer) : State :=
  match x with
  | .ok => goOn s k { q with msg := none }
  | .err c r =>
    let s := if c = eKEY_REVOKED then raiseRevoked s q 0 r else s
    goOn s k { q.failAt 0 c with msg := none }
  | .nack =>
    let n := q.nacks + 1
    setReq s k (some { q with nacks := n, retryAt := some (s.htime + 64 * 2 ^ min n 6) })
  | _ => s

def takeAnswer (s : State) (k : Nat) (x : LinkAnswer) : State :=
  match getReq s k with
  | none => s
  | some q =>
    match q.asks with
    | (i, a) :: _ => if answerFits a x then takeElemAnswer s k q i a x else s
    | [] => if q.msg.isSome && q.retryAt.isNone then takeSendAnswer s k q x else s

/-- A request's target is this package. -/
def reqLocal (s : State) (k : Nat) : Bool := ((getReq s k).map fun q => isLocal q.target).getD true

/-- An answer comes in: the first one under way for a request to this package itself, or one from outside. -/
def execLinkResponseArrival (k : Nat) (a : LinkAnswer) (s : State) : Host.Outcome State Fault Refusal :=
  .next (match s.link.answers.findIdx? fun e => e.1 == k with
    | some i =>
      if s.link.answers[i]? = some (k, a) then takeAnswer (modLink s fun l => { l with answers := removeAt l.answers i }) k a
      else s
    | none => if reqLocal s k then s else takeAnswer s k a)

/-! ### Accesses and messages that arrive (R400, R408, R410) -/

/-- Under ORD a request waits for the node's earlier ones to the same target. -/
def ordBlocked (s : State) (k : Nat) : Bool :=
  match getReq s k with
  | none => false
  | some q => (opWord q.firing.word).ord && s.link.reqs.any fun e => match e.2 with
    | some p => decide (e.1 < k) && sameNode p.firing q.firing && targetDest p.target == targetDest q.target
    | none => false

/-- The sender is this package itself. -/
def fromSelf (peer : Bool) (src : BitVec 21) : Bool := !peer && src == Config.dest

/-- A sender that the Link Engine answers: a connection, or another package of the system. -/
def knownSender (s : State) (peer : Bool) (src : BitVec 21) : Bool :=
  if peer then decide (src.toNat < 4096) && (connection s src.toNat).isSome else Config.isPackage src

/-- RDMA peers and packages of other domains read and write memory, and do nothing else to it (R397, R407). -/
def reaches (x : RemoteAccess) : Bool :=
  match x.what with
  | .atom .. => !x.peer && bits x.src 20 12 == bits Config.dest 20 12
  | .notify => !x.peer
  | _ => true

def answerDest (peer : Bool) (src : BitVec 21) : BitVec 22 := BitVec.ofNat 22 ((if peer then 2 ^ 21 else 0) + src.toNat)

def execIncomingRemoteAccess (a : RemoteAccess) (s : State) : Host.Outcome State Fault Refusal :=
  .next (if fromSelf a.peer a.src then
      (match s.link.loop.findIdx? fun x => x.answer == a.answer with
       | none => s
       | some i =>
         if s.link.loop[i]? ≠ some a ∨ ordBlocked s a.answer then s
         else
           let (s, x) := remoteAccess (modLink s fun l => { l with loop := removeAt l.loop i }) a
           modLink s fun l => { l with answers := l.answers ++ [(a.answer, x)] })
    else if knownSender s a.peer a.src && reaches a then
      (let (s, x) := remoteAccess s a
       send s (.answer (answerDest a.peer a.src) a.answer x))
    else s)

/-! ### LRECV (R408) -/

def recvQueueOf (f : Firing) : Nat := immBits (opWord f.word) 5 0

/-- Give the oldest message of a queue to a waiting LRECV. -/
def deliverMessage (s : State) (x : Recv) (i : Nat) (m : Stored) (rest : List Stored) : State :=
  let f := x.firing
  match handshake s f.region f.tag with
  | none => s
  | some s =>
    let q := getRecvQueue s i
    let (s, bs, bad) := readMem s (slotBase q m.slot) m.size
    let s := setRecvQueue s i { q with msgs := rest }
    let ds := destinations s f (opWord f.word)
    let source := wordTok .scalar false m.source.toNat
    if m.tile then
      let t := tileOfRows m.fmt m.epr ((List.range m.rows).map fun r => (bs.drop (r * rowBytes m.fmt m.epr)).take (rowBytes m.fmt m.epr))
      answer s f x.tag srcLink (twoTo ds (tileTok t bad) source) (some (payloadOf t bad))
    else answer s f x.tag srcLink (twoTo ds (wordTok .scalar bad (leNat bs)) source) none

/-- The first LRECV that waits for a queue and may run. -/
def firstRecv (s : State) (i : Nat) : Option Nat :=
  s.link.recvs.findIdx? fun x => recvQueueOf x.firing == i && !isStopped s x.firing.region

/-- Serve waiting LRECVs of a queue, in order, while it holds messages. -/
def serveRecvs (i : Nat) : Nat → State → State
  | 0, s => s
  | n + 1, s =>
    match firstRecv s i, (getRecvQueue s i).msgs with
    | some k, m :: rest =>
      (match s.link.recvs[k]? with
       | some x => serveRecvs i n (deliverMessage (modLink s fun l => { l with recvs := removeAt l.recvs k }) x i m rest)
       | none => s)
    | _, _ => s

def serveQueue (s : State) (i : Nat) : State := serveRecvs i s.link.recvs.length s

def execIncomingSend (m : RemoteSend) (s : State) : Host.Outcome State Fault Refusal :=
  let served (s : State) (m : RemoteSend) : State := match sendQueue s m with | .ok i => serveQueue s i | .error _ => s
  .next (if fromSelf m.peer m.src then
      (match s.link.sends.findIdx? fun x => x.answer == m.answer with
       | none => s
       | some i =>
         if s.link.sends[i]? ≠ some m ∨ ordBlocked s m.answer then s
         else
           let (s, x) := remoteSend (modLink s fun l => { l with sends := removeAt l.sends i }) m
           served (modLink s fun l => { l with answers := l.answers ++ [(m.answer, x)] }) m)
    else if knownSender s m.peer m.src then
      (let (s, x) := remoteSend s m
       served (send s (.answer (answerDest m.peer m.src) m.answer x)) m)
    else s)

/-! ### The operators (R403 to R409) -/

inductive LinkIssue where
  | error (code : BitVec 8)
  | purge
  | go (s : State) (q : LinkReq)

/-- A request before anything is asked. -/
def newReq (f : Firing) (target : Word) : LinkReq :=
  { firing := f, tag := f.tag, target := target, asks := [], note := none, msg := none, retryAt := none, got := [],
    fail := none, bytes := 0, revoked := false, nacks := 0, waited := 0, raised := false }

/-- The target word of a firing, port i. -/
def targetOf (f : Firing) (i : Nat) : Word := (tokAt f i).payload

/-- What a request asks about one element; none when the element fails before it leaves: its address wraps, a scalar is not
aligned, or it would carry poison to a RoCE peer. -/
def LinkReq.ask (q : LinkReq) (k : Nat) (i : Nat) (a : Int) (what : RemoteKind) : LinkReq :=
  let x : RemoteAccess := { src := Config.dest, peer := false, key := targetKey q.target, addr := BitVec.ofInt 64 a,
                            what := what, answer := k }
  let n := askSize x
  let row := match what with | .read _ r => r | .write _ _ r => r | _ => false
  let poison := match what with | .write _ p _ => p | _ => false
  if a < 0 ∨ 2 ^ 64 < a + (n : Int) then q.failAt i eADDR_RANGE
  else if !row && decide (a.toNat % n ≠ 0) then q.failAt i eBOUNDS
  else if poison && targetPeer q.target then q.failAt i eHOST_POISON
  else { q with asks := q.asks ++ [(i, x)] }

/-- Issue a class-7 firing: its checks, the handshake of R405, and what it asks of its target. -/
def fireLink (s : State) (o : Op) (shake : Bool) (body : State → Firing → Nat → LinkIssue) : State :=
  fireTagged s o o.xfm (fun f => destinations s f o) fun s f tg =>
    let k := s.link.nextReq
    match body s f k with
    | .error c => .error c 0
    | .purge => .purge
    | .go s q =>
      let (g, t) := firingUnder f tg
      let q := { q with firing := g, tag := t }
      match if shake then handshake s f.region f.tag else some s with
      | none => .later s
      | some s =>
        let s := modLink s fun l => { l with nextReq := k + 1 }
        .later (if q.asks.isEmpty && q.msg.isNone then goOn s k q
          else dispatch (setReq s k (some q)) k q q.asks)

/-- The checks that LPUT, LGET, LATOM and LSEND share: scalar ports, other ports, the target word, and POISON on the
ports whose values are used. -/
def linkChecks (s : State) (f : Firing) (target : Nat) (errs : List (Option (BitVec 8))) (used : List Nat)
    (k : Unit → LinkIssue) : LinkIssue :=
  match firstError errs with
  | some e => .error e
  | none =>
    if portPoison f used then .purge
    else if !targetOk s (targetOf f target) then .error eADDR_RANGE
    else k ()

def execLput (o : Op) (s : State) : Host.Outcome State Fault Refusal :=
  .next (fireLink s o (!immBit o 23) fun s f k =>
    let tile := immBit o 25
    let notify := immBit o 24
    linkChecks s f 1
      ([scalarPort f 0, scalarPort f 1, if tile then tilePort s f 2 o.fmt else scalarPort f 2] ++
        if notify then [scalarPort f 3] else [])
      (if notify then [0, 1, 3] else [0, 1]) fun _ =>
      let t := targetOf f 1
      let q := newReq f t
      if notify && targetPeer t then .error eTYPE_MISMATCH
      else
        let note (q : LinkReq) (i : Nat) : LinkReq :=
          if notify then
            { q with note := some (i, { src := Config.dest, peer := false, key := targetKey t, addr := (tokAt f 3).payload,
                                        what := .notify, answer := k }) }
          else q
        if tile then
          let (s, x, bad) := readTile s f.cluster (tokAt f 2).payload
          let p := bad || portPoison f [2]
          .go s (note ((List.range x.rows).foldl (fun q i =>
            q.ask k i (portValue f 0 + i * (x.rowBytes i).length) (.write (x.rowBytes i) p true)) q) x.rows)
        else .go s (note (q.ask k 0 (portValue f 0)
          (.write (leBytes (elemSize o.fmt) (portValue f 2)) (portPoison f [2]) false)) 1))

def execLget (o : Op) (s : State) : Host.Outcome State Fault Refusal :=
  .next (fireLink s o false fun s f k =>
    linkChecks s f 1 [scalarPort f 0, scalarPort f 1] [0, 1] fun _ =>
      let q := newReq f (targetOf f 1)
      if immBit o 25 then
        let (rows, epr) := immShapeHi o
        let n := rowBytes o.fmt epr
        .go s ((List.range rows).foldl (fun q i => q.ask k i (portValue f 0 + i * n) (.read n true)) q)
      else .go s (q.ask k 0 (portValue f 0) (.read (elemSize o.fmt) false)))

def execLatom (o : Op) (s : State) : Host.Outcome State Fault Refusal :=
  .next (fireLink s o true fun s f k =>
    let cas := immBits o 20 17 = 9
    let ports := if cas then [0, 1, 2, 3] else [0, 1, 2]
    linkChecks s f 1 (ports.map (scalarPort f)) ports fun _ =>
      let t := targetOf f 1
      if targetPeer t || isForeign t then .error eTYPE_MISMATCH
      else .go s ((newReq f t).ask k 0 (portValue f 0)
        (.atom (BitVec.ofNat 4 (immBits o 20 17)) o.fmt o.rnd (tokAt f 2).payload (if cas then (tokAt f 3).payload else 0))))

def execLsend (o : Op) (s : State) : Host.Outcome State Fault Refusal :=
  .next (fireLink s o true fun s f k =>
    let t := targetOf f 0
    let tile := isTile (tokAt f 1)
    linkChecks s f 0 [scalarPort f 0, if tile then checkTile s f.cluster (tokAt f 1).payload none else none] [0] fun _ =>
      let m (s : State) (fmt : Fmt) (rows epr : Nat) (bs : List Byte) (p : Bool) : LinkIssue :=
        if p && targetPeer t then .error eHOST_POISON
        else .go s { newReq f t with
          msg := some { src := Config.dest, peer := false, key := targetKey t, tile := tile, fmt := fmt, rows := rows,
                        epr := epr, data := bs, poisoned := p, answer := k } }
      if tile then
        let (s, x, bad) := readTile s f.cluster (tokAt f 1).payload
        m s x.fmt x.rows x.epr ((List.range x.rows).flatMap x.rowBytes) (bad || portPoison f [1])
      else m s .raw 1 1 (leBytes 8 (portValue f 1)) (portPoison f [1]))

def execLrecv (o : Op) (s : State) : Host.Outcome State Fault Refusal :=
  .next (fireTagged s o o.xfm (fun f => destinations s f o) fun s f tg =>
    let i := immBits o 5 0
    match scalarPort f 0 with
    | some e => .error e 0
    | none =>
      if (getRecvQueue s i).owner.toNat ≠ f.region then .error eBOUNDS 0
      else
        let (g, t) := firingUnder f tg
        let s := modLink s fun l => { l with recvs := l.recvs ++ [{ firing := g, tag := t, waited := 0, raised := false }] }
        .later (serveQueue s i))

/-- LFENCE: a link operation that is hb-before it sent its done token when it had been performed at its target (02 R56,
R57), so its input token passes at once. -/
def execLfence (o : Op) (s : State) : Host.Outcome State Fault Refusal :=
  .next (fire s o fun s f =>
    match scalarPort f 0 with
    | some e => .error e 0
    | none =>
      if immBit o 0 then passOn s (destinations s f o) (tokAt f 0)
      else if portPoison f [0] then .purge
      else if !targetOk s (targetOf f 0) then .error eADDR_RANGE 0
      else passOn s (destinations s f o) (tokAt f 0))

/-! ### Limits and backoff (R396, R408, R412) -/

def linkLim (f : Firing) : Nat := let n := immBits (opWord f.word) 17 13; if n = 0 then 0 else 2 ^ n
def linkForever (f : Firing) : Bool := immBits (opWord f.word) 17 13 == 31

def limitDue (s : State) (f : Firing) (waited : Nat) (raised : Bool) : Bool :=
  !linkForever f && !raised && decide (linkLim f ≤ waited) && !isStopped s f.region

/-- An LSEND that retries has a limit unless its target is a RoCE peer. -/
def reqDue (s : State) (q : LinkReq) : Bool :=
  q.retryAt.isSome && !targetPeer q.target && limitDue s q.firing q.waited q.raised

def linkWait (s : State) (f : Firing) (addr count kind : Nat) : State :=
  raiseCause s f.region aQUEUE_WAIT f.cluster f.slot (tagBits f.tag .scalar Flag.none)
    (leBytes 8 addr ++ leBytes 4 0 ++ leBytes 2 count ++ leBytes 2 kind ++ leBytes 8 (linkLim f))

/-- Messages in the queue that a refused LSEND names: held elsewhere for another package, where the count is not known. -/
def heldMessages (s : State) (q : LinkReq) : Nat :=
  if isLocal q.target then
    match q.msg with
    | some m => (match sendQueue s m with | .ok i => (getRecvQueue s i).msgs.length | .error _ => 0)
    | none => 0
  else freeBelow s 1024 + 1

/-- A limit expires: k is twice the number of an LSEND's request, or one more than twice the place of a waiting LRECV. -/
def execLinkWaitLimitExpiry (k : Nat) (s : State) : Host.Outcome State Fault Refusal :=
  .next (if k % 2 = 0 then
      (match getReq s (k / 2) with
       | none => s
       | some q =>
         if !reqDue s q then s
         else if immBit (opWord q.firing.word) 21 then
           finishReq s (k / 2) { q with fail := some (0, eQUEUE_TIMEOUT) }
         else linkWait (setReq s (k / 2) (some { q with raised := true })) q.firing q.target.toNat (heldMessages s q) 2)
    else match s.link.recvs[k / 2]? with
      | none => s
      | some x =>
        let f := x.firing
        let i := recvQueueOf f
        if !limitDue s f x.waited x.raised then s
        else if immBit (opWord f.word) 21 then
          answerError (modLink s fun l => { l with recvs := removeAt l.recvs (k / 2) }) f x.tag srcLink
            (destinations s f (opWord f.word)) eQUEUE_TIMEOUT 0
        else linkWait (modLink s fun l => { l with recvs := l.recvs.set (k / 2) { x with raised := true } }) f i
          (getRecvQueue s i).msgs.length 3)

/-- A refused LSEND is sent again after its backoff. -/
def retrySend (s : State) (k : Nat) : State :=
  match getReq s k with
  | none => s
  | some q => match q.retryAt with
    | none => s
    | some t =>
      if s.htime < t ∨ isStopped s q.firing.region then s
      else
        let q := { q with retryAt := none }
        dispatch (setReq s k (some q)) k q []

/-- A refused requester retries: k is twice the place of a bank request, or one more than twice the number of an LSEND. -/
def execNackRetry (k : Nat) (s : State) : Host.Outcome State Fault Refusal :=
  .next (if k % 2 = 0 then retryBank s (k / 2) else retrySend s (k / 2))

/-- One tick of the limits of firings whose regions run. -/
def linkTick (s : State) : State :=
  modLink s fun l =>
    { l with recvs := l.recvs.map (fun x => if isStopped s x.firing.region then x else { x with waited := x.waited + 1 }),
             reqs := l.reqs.map fun e => (e.1, e.2.map fun q =>
               if q.nacks = 0 || isStopped s q.firing.region then q else { q with waited := q.waited + 1 }) }

/-- After a thaw, waiting LRECVs take messages that have come in meanwhile. -/
def linkThaw (s : State) (rid : Nat) : State :=
  (s.link.recvs.filter fun x => x.firing.region == rid).foldl (fun s x => serveQueue s (recvQueueOf x.firing)) s

/-! ### The reliable message layer (R397) -/

/-- 8 µs in ticks. -/
def ethTimeout : Nat := 10000

def ethDue (s : State) (e : Nat × Nat) : Bool := decide (e.2 + ethTimeout ≤ s.htime) && s.link.ethUp != 0

/-- What has not been acknowledged in time is sent again, over the ports that work. -/
def execEthernetRetransmit (k : Nat) (s : State) : Host.Outcome State Fault Refusal :=
  .next (match s.link.eth.find? fun e => e.1 == k with
    | none => s
    | some e => match getReq s k with
      | none => modLink s fun l => { l with eth := l.eth.filter fun x => x.1 != k }
      | some q => if !ethDue s e || q.retryAt.isSome then s else dispatch s k q q.asks)

/-! ### Scewen (R392 to R395) -/

def getSPort (s : State) (p : Nat) : SPort := Tab.get SPort.reset s.link.ports p
def setSPort (s : State) (p : Nat) (x : SPort) : State := modLink s fun l => { l with ports := Tab.set SPort.reset l.ports p x }
def portUp (s : State) (p : Nat) : Bool := s.service.scewenUp.getLsbD p

def counter (t : Tab (BitVec 12)) (b : Nat) : BitVec 12 := Tab.get 0 t b

/-- A flit's header (R394). -/
def flitHeader (x : SPort) (type buf : Nat) (seq : BitVec 12) : Word :=
  BitVec.ofNat 64 (type * 2 ^ 62 + buf / 2 * 2 ^ 60 + buf % 2 * 2 ^ 59 + seq.toNat * 2 ^ 47 + x.lastGood.toNat * 2 ^ 35 +
    x.rsel.toNat * 2 ^ 32 + (counter x.returned x.rsel.toNat).toNat * 2 ^ 20)

/-- Send one flit; every header reports the next buffer. -/
def sendFlit (s : State) (p : Nat) (x : SPort) (type buf : Nat) (seq : BitVec 12) (sync : List Byte) : State × SPort :=
  (send s (.flit p (flitHeader x type buf seq) sync), { x with rsel := x.rsel + 1 })

/-- A data flit may go: a slot in the receive buffer, room in the replay buffer, and no slot-sync owed. -/
def maySend (x : SPort) (b : Nat) : Bool :=
  decide ((counter x.sent b - counter x.ret b).toNat < 64) && decide (x.unacked.length < 2048) && decide (x.sinceSync < 256)

/-- Send waiting flits in order while they may go. -/
def pumpFlits (p : Nat) : Nat → State → SPort → State × SPort
  | 0, s, x => (s, x)
  | n + 1, s, x =>
    match x.queue with
    | (b, d) :: rest =>
      if maySend x b && portUp s p then
        let (s, y) := sendFlit s p x 0 b x.nextSeq d
        pumpFlits p n s { y with queue := rest, nextSeq := x.nextSeq + 1, unacked := x.unacked ++ [(x.nextSeq, b, d)],
                                 sent := Tab.set 0 x.sent b (counter x.sent b + 1), sinceSync := x.sinceSync + 1 }
      else (s, x)
    | [] => (s, x)

def pumpPort (s : State) (p : Nat) : State :=
  let x := getSPort s p
  let (s, x) := pumpFlits p x.queue.length s x
  setSPort s p x

/-- Coordinate i of a package: 0 X, 1 Y, 2 Z. -/
def coord (p : BitVec 12) (i : Nat) : Nat := p.toNat / 2 ^ (8 - 4 * i) % 16

/-- The port a packet for another package of the domain leaves by, and its virtual channel there: the first dimension that
differs, the other way around when that port is down; none when no port of that dimension works (01 R33, R392, R393). -/
def portToward (s : State) (pkg : BitVec 12) : Option (Nat × Nat) :=
  let own := Config.dest.extractLsb' 0 12
  ((List.range 3).find? fun i => coord own i != coord pkg i).bind fun i =>
    let last := coord Config.torus i
    let first := decide (2 ≤ last) && Config.torusMinus pkg
    let ways := (if decide (2 ≤ last) then [first, !first] else [false]).filter fun m => portUp s (2 * i + if m then 1 else 0)
    ways.head?.map fun minus =>
      let crosses := if minus then coord own i == 0 else coord own i == last
      (2 * i + (if minus then 1 else 0), if crosses then 1 else 0)

/-- Packages of the members of a spanning region. -/
def memberPackages (r : Region) : List (BitVec 12) := r.span.map fun e => e.2.extractLsb' 4 12

/-- A source as a route header names it: die and endpoint; zeros for a unit that has no endpoint number. -/
def sourceEndpoint (src : Nat) : Nat × Nat :=
  if src < 2 ^ 20 then (src / 512, src % 512)
  else if src < 2 ^ 21 then (src - 2 ^ 20, 0)
  else if src < 2 ^ 22 then ((src - 2 ^ 21) / 16, 448 + (src - 2 ^ 21) % 16)
  else if src < 2 ^ 23 then ((src - 2 ^ 22) / 128, 320 + (src - 2 ^ 22) % 128)
  else (0, 0)

/-- The route header of a packet (01 R30). -/
def routeHeader (vnet : Nat) (pkg : BitVec 12) (die cluster len src : Nat) : Word :=
  let e := sourceEndpoint src
  BitVec.ofNat 64 (vnet * 2 ^ 62 + pkg.toNat * 2 ^ 50 + die * 2 ^ 47 + cluster * 2 ^ 38 + len * 2 ^ 28 + e.1 * 2 ^ 25 +
    e.2 * 2 ^ 16 + ownPackage * 16)

/-- The fields of a route header. -/
def routeVnet (h : Word) : Nat := bits h 63 62
def routePackage (h : Word) : BitVec 12 := h.extractLsb' 50 12
def routeDie (h : Word) : Nat := bits h 49 47
def routeCluster (h : Word) : Nat := bits h 46 38
def routeLen (h : Word) : Nat := bits h 37 28
/-- Source package, die and endpoint. -/
def routeSource (h : Word) : Nat := bits h 27 4

/-- A list in pieces of 64 bytes. -/
def flitsOf (bs : List Byte) : List (List Byte) := (List.range (bs.length / 64)).map fun i => (bs.drop (64 * i)).take 64

/-- The flits of a token packet: the header flit, then two for each line of its tile (01 R30). -/
def tokenFlits (h : Word) (t : Tok) (d : Option Payload) : List (List Byte) :=
  (leBytes 8 h.toNat ++ leBytes 8 (headerBits t).toNat ++ leBytes 8 t.payload.toNat ++ List.replicate 40 0) ::
    flitsOf ((d.map Payload.bytes).getD [])

/-- The flits of a packet whose contents the spec does not lay out: the route header, and what follows left open. -/
def openFlits (h : Word) (n : Nat) : List (List Byte) := leBytes 8 h.toNat :: List.replicate n []

/-- Where something that leaves for the domain goes: packages, virtual network and flits. -/
def shipment (s : State) (x : Sent) : List (BitVec 12 × Nat × List (List Byte)) :=
  let far (d : BitVec 22) (v n : Nat) : List (BitVec 12 × Nat × List (List Byte)) :=
    let pkg : BitVec 12 := d.extractLsb' 0 12
    if !d.getLsbD 21 && bits d 20 12 == bits Config.dest 20 12 then [(pkg, v, openFlits (routeHeader v pkg 0 0 n srcLink) n)]
    else []
  let die (rid i : Nat) : Word := Tab.get 0 (getRegion s rid).span i
  let pkgOf (e : Word) : BitVec 12 := e.extractLsb' 4 12
  match x with
  | .packet rid src t d =>
    let e := die rid t.dst.die.toNat
    let n := ((d.map fun p => p.bytes.length).getD 0) / 64
    [(pkgOf e, 0, tokenFlits (routeHeader 0 (pkgOf e) (bits e 2 0) t.dst.cluster.toNat n src) t d)]
  | .config rid i c _ _ =>
    let e := die rid i
    [(pkgOf e, 0, openFlits (routeHeader 0 (pkgOf e) (bits e 2 0) c 0 srcLink) 0)]
  | .firing f _ =>
    let e := die f.region (immBits (opWord f.word) 33 31)
    [(pkgOf e, 1, openFlits (routeHeader 1 (pkgOf e) (bits e 2 0) (448 + immBits (opWord f.word) 30 27) 0 f.cluster) 0)]
  | .access d a => far d 1 ((match a.what with | .write bs .. => bs.length + 63 | _ => 0) / 64)
  | .message d m => far d 1 ((m.data.length + 63) / 64)
  | .answer d _ a => far d 3 ((match a with | .data bs _ => bs.length + 63 | _ => 0) / 64)
  | .relay rid _ => (memberPackages (getRegion s rid)).map fun p => (p, 3, openFlits (routeHeader 3 p 0 0 0 srcLink) 0)
  | _ => []

/-- Put a packet's flits on the Scewen port toward a package, on channel vc or on 1 where the hop crosses the dateline. -/
def shipFlits (s : State) (pkg : BitVec 12) (vnet vc : Nat) (ahead : Bool) (flits : List (List Byte)) : State :=
  match portToward s pkg with
  | none => s
  | some (p, crossed) =>
    let y := getSPort s p
    let new := flits.map fun d => (2 * vnet + max vc crossed, d)
    pumpPort (setSPort s p { y with queue := if ahead then new ++ y.queue else y.queue ++ new }) p

/-- Put what has left since the last time on the Scewen ports; relays go ahead of the flits that wait (01 R32). -/
def shipOne (s : State) (x : Sent) : State :=
  let ahead := match x with | .relay .. => true | _ => false
  (shipment s x).foldl (fun s d => shipFlits s d.1 d.2.1 0 ahead d.2.2) s

def shipSent (s : State) : State :=
  let n := s.sent.length
  let new := (s.sent.drop s.link.shipped).filter fun x => match x with | .flit .. => false | _ => true
  let s := new.foldl shipOne s
  modLink s fun l => { l with shipped := max n s.sent.length }

def execSlotSync (port : Nat) (s : State) : Host.Outcome State Fault Refusal :=
  let x := getSPort s port
  .next (if x.sinceSync < 256 ∨ !portUp s port then s
    else
      let u := (List.range 8).flatMap fun b => leBytes 2 (counter x.sent b).toNat
      let (s, x) := sendFlit s port x 2 0 x.nextSeq u
      pumpPort (setSPort s port { x with sinceSync := 0 }) port)

/-- What a header acknowledges leaves the replay buffer. -/
def SPort.acknowledge (x : SPort) (ack : BitVec 12) : SPort :=
  match x.unacked.findIdx? fun e => e.1 == ack with
  | some i => { x with unacked := x.unacked.drop (i + 1) }
  | none => x

/-- The region whose tokens a cluster takes, and the region that a reserved endpoint's leak counts for: the one that holds
the die. -/
def regionAt (s : State) (d c : Nat) : Option Nat :=
  (s.regions.find? fun e => e.2.state != .free && e.2.dies.contains (some d) && regionHolds s e.2 d c).map Prod.fst
def regionOnDie (s : State) (d : Nat) : Option Nat :=
  (s.regions.find? fun e => e.2.state != .free && e.2.whole && e.2.dies.contains (some d)).map Prod.fst

/-- A packet has come in whole: one for another package goes on; a token packet goes to its cluster, its tile's lines with
it, or is a leak where its endpoint is no cluster of a region. What other packets carry comes in by the events of the Link
Engine (notes/assumptions/122.md). -/
def takePacket (s : State) (vc : Nat) (flits : List (List Byte)) : State :=
  let b := flits.headD []
  let h : Word := BitVec.ofNat 64 (leNat (b.take 8))
  let d := routeDie h
  let c := routeCluster h
  if (routePackage h).toNat ≠ ownPackage then shipFlits s (routePackage h) (routeVnet h) vc false flits
  else if routeVnet h ≠ 0 then s
  else match if c < 320 then regionAt s d c else none with
    | some rid =>
      let t := tokOf (BitVec.ofNat 64 (leNat ((b.drop 8).take 8))) (BitVec.ofNat 64 (leNat ((b.drop 16).take 8)))
      let bytes := flits.tail.flatten
      { s with net := s.net ++ [{ region := rid, src := 2 ^ 40 + routeSource h, dst := clusterKey d c, tok := t,
                                  data := if routeLen h = 0 then none else some { bytes := bytes, bad := [] } }] }
    | none => match regionOnDie s d with
      | some rid => addDiscarded s rid 0 1
      | none => s

/-- A data flit joins the packet under way in its receive buffer, which its header flit's LEN ends. -/
def joinPacket (s : State) (p buf : Nat) (flit : List Byte) : State :=
  let x := getSPort s p
  let all := Tab.get [] x.parts buf ++ [flit]
  let len := routeLen (BitVec.ofNat 64 (leNat ((all.headD []).take 8)))
  if all.length < 1 + len then setSPort s p { x with parts := Tab.set [] x.parts buf all }
  else takePacket (setSPort s p { x with parts := Tab.set [] x.parts buf [] }) (buf % 2) all

/-- Take a flit without error: its acknowledgement and slot return, then by its type. A data flit in order goes on at once
and returns its slot; a gap asks for a replay; a replay request sends the unacknowledged flits again. -/
def takeFlit (s : State) (p : Nat) (h : Word) (flit : List Byte) : State :=
  let x := (getSPort s p).acknowledge (h.extractLsb' 35 12)
  let x := { x with ret := Tab.set 0 x.ret (bits h 34 32) (h.extractLsb' 20 12) }
  let buf := bits h 61 59
  let seq : BitVec 12 := h.extractLsb' 47 12
  match bits h 63 62 with
  | 0 =>
    if seq = x.lastGood + 1 then
      let x := { x with lastGood := seq, returned := Tab.set 0 x.returned buf (counter x.returned buf + 1) }
      pumpPort (joinPacket (setSPort s p x) p buf flit) p
    else if (seq - x.lastGood).toNat < 2048 then
      let (s, x) := sendFlit s p x 3 0 x.nextSeq []
      setSPort s p x
    else pumpPort (setSPort s p x) p
  | 1 => pumpPort (setSPort s p x) p
  | 2 =>
    let u (b : Nat) : BitVec 12 := BitVec.ofNat 12 (leNat ((flit.drop (2 * b)).take 2))
    pumpPort (setSPort s p { x with returned := (List.range 8).foldl (fun t b => Tab.set 0 t b (u b)) x.returned }) p
  | _ =>
    let (s, x) := x.unacked.foldl (fun (acc : State × SPort) e => sendFlit acc.1 p acc.2 0 e.2.1 e.1 e.2.2) (s, x)
    pumpPort (setSPort s p x) p

def execScewenFlitReceive (port : Nat) (hdr : Word) (flit : List Byte) (crcOk : Bool) (s : State) :
    Host.Outcome State Fault Refusal :=
  .next (if !portUp s port then s
    else if crcOk then takeFlit s port hdr flit
    else
      let (s, x) := sendFlit s port (getSPort s port) 3 0 (getSPort s port).nextSeq []
      setSPort s port x)

def fullLanes (p : Nat) : Nat := if p < 2 then 32 else 16

/-- A part of the package is out of service: HEALTH, RCAUSE, the capability list and a failure item (13 R429, R431). -/
def outOfService (s : State) (bit : Nat) (item : List Byte) : State :=
  let s := setRcause s bit
  failureItem { s with service := { s.service with degraded := true, capgen := s.service.capgen + 1 } } item

/-- A KIND 6 item. -/
def portItem (s : State) (p : Nat) : List Byte := leBytes 16 6 ++ leBytes 8 s.htime ++ leBytes 8 0 ++ leBytes 32 p

/-- Flits of a port that has gone down take the other way around the dimension, the unacknowledged ones first. -/
def rerouteFlits (s : State) (p : Nat) : State :=
  let x := getSPort s p
  let q := if p % 2 = 0 then p + 1 else p - 1
  let y := getSPort s q
  let s := setSPort s p { SPort.reset with lanes := x.lanes }
  pumpPort (setSPort s q { y with queue := y.queue ++ x.unacked.map Prod.snd ++ x.queue }) q

/-- Lanes are lost: the port retrains at the largest power of two that still works, and with fewer than four it is down. -/
def execScewenPortDown (port lanes : Nat) (s : State) : Host.Outcome State Fault Refusal :=
  let x := getSPort s port
  let now := x.lanes.getD (fullLanes port)
  let left := if lanes = 0 then 0 else 2 ^ lanes.log2
  .next (if 6 ≤ port ∨ now ≤ left ∨ !portUp s port then s
    else
      let s := setSPort s port { x with lanes := some left }
      if 4 ≤ left then s
      else
        let up := s.service.scewenUp &&& ~~~(BitVec.ofNat 6 (2 ^ port))
        let s := { s with service := { s.service with scewenUp := up } }
        rerouteFlits (outOfService s 4 (portItem s port)) port)

end Sys2Proof.Machine
end

