-- ==== Sys2Proof/Machine/Monitor.lean ====
section
/-! DEFINITION. What Plumb watches over a region (11 R374 to R380): marker snapshots, the census, PQUIET, deadlock detection
and the watchdog; and bank waiters as records show them (10 R345). -/

namespace Sys2Proof.Machine

/-! ### Records -/

/-- The shape of a region as a dust sheet names it (04 R123): a rectangle's handle without V, ID, DIE, ROW0 and COL0, or
SH with the number of dies minus one in bits 28..26. -/
def shapeWord (r : Region) : Word :=
  if r.whole then BitVec.ofNat 64 (2 ^ 55 + ((r.dies.filter Option.isSome).length + r.span.length - 1) % 8 * 2 ^ 26)
  else BitVec.ofNat 64 (bits r.handle 42 38 * 2 ^ 38 + bits r.handle 37 34 * 2 ^ 34)

/-- A bank waiter's record (10 R345). -/
def waitRecord (s : State) (w : Waiter) : List Byte :=
  let f := w.firing
  let r := getRegion s f.region
  let off := w.word + w.sub - bankBase
  leBytes 1 (r.dieIx (off / 2 ^ 26)) ++ leBytes 1 (waiterKind w) ++
  leBytes 1 (b2n w.ext + 2 * b2n w.err + 4 * b2n w.eq + 8 * b2n w.raised) ++ leBytes 1 w.lim ++
  leBytes 4 (off % 2 ^ 26) ++ leBytes 4 (nodeField r f.cluster f.slot) ++ leBytes 4 (tagBits f.tag .scalar Flag.none) ++
  leBytes 8 w.operand.toNat ++ leBytes 4 w.waited ++ leBytes 4 0

/-! ### PSIG and marker snapshots (R375, R376) -/

def psigGroup (f : Firing) : BitVec 16 := BitVec.ofNat 16 (immBits (opWord f.word) 15 0)
def psigEpoch (f : Firing) : Word := (tokAt f 0).payload

def isMarker : Signal → Bool
  | .marker _ => true
  | _ => false

/-- The first waiting PSIG of a region enters Plumb, unless a snapshot is on its way or in progress. -/
def startPsig (s : State) (rid : Nat) : State :=
  let r := getRegion s rid
  if r.snapshot.isSome || r.signals.any fun g => isMarker g.2 then s
  else match s.plumb.psigs.findIdx? fun f => f.region == rid with
    | none => s
    | some i => match s.plumb.psigs[i]? with
      | none => s
      | some f =>
        let t := entryTick s f.cluster + signalDelay r
        modRegion (modPlumb s fun p => { p with psigs := removeAt p.psigs i }) rid fun r =>
          { r with signals := r.signals ++ [(t, .marker f)] }

def execPsig (o : Op) (s : State) : Host.Outcome State Fault Refusal :=
  .next (fire s o fun s f =>
    let r := getRegion s f.region
    match scalarPort f 0 with
    | some e => .error e 0
    | none =>
      if portPoison f [0] then .purge
      else if portValue f 0 = 0 ∨ 2 ^ 32 ≤ portValue f 0 ∨ r.snapBase = 0 ∨ r.snapLen = 0 then .error eBOUNDS 0
      else match handshake s f.region f.tag with
        | none => .later s
        | some s => .later (startPsig (modPlumb s fun p => { p with psigs := p.psigs ++ [f] }) f.region))

/-- The slots of a cluster that hold MARK nodes of a group, ascending. -/
def markNodes (s : State) (c : Nat) (group : BitVec 16) : List (BitVec 11) :=
  ((getCluster s c).slots.filter fun e =>
    e.2.occ && !e.2.rw && wordEcl e.2.word == 0 && wordOpc e.2.word == 0x23 && bits e.2.word 79 64 == group.toNat).map
      fun e => BitVec.ofNat 11 e.1

/-- A MARK node at the signal: it saves, writes its KIND 3 record and sends its markers. -/
def markNode (s : State) (rid c : Nat) (epoch : Word) (slot : BitVec 11) : State :=
  let s := modSnapshot (saveNode s rid c slot) rid fun p => { p with done := p.done ++ [(c, slot)] }
  forwardMarkers s rid c slot epoch { Tag.none with ctx := (getSlot s c slot).ctx.getD 0 }

/-- The marker signal takes effect: every MARK node of the group acts in this tick. -/
def execMarkerSignalEffect (rid : Nat) (s : State) : Host.Outcome State Fault Refusal :=
  .next (match dueSignal s rid isMarker with
    | some (.marker f, s) =>
      let r := getRegion s rid
      let p : Snapshot := { group := psigGroup f, epoch := psigEpoch f, start := s.htime, due := s.htime + 2 ^ r.snapLim.toNat,
                            firing := f, used := 0, records := 0, overflow := false, saving := [], done := [] }
      let s := setRegion s rid { r with snapshot := some p }
      (regionClusters s r).foldl (fun s c => (markNodes s c p.group).foldl (fun s i => markNode s rid c p.epoch i) s) s
    | _ => s)

/-- A marker of a region is on its way somewhere. -/
def markersUnderWay (s : State) (rid : Nat) : Bool :=
  s.net.any (fun p => p.region == rid && p.tok.kind == .marker) ||
  s.clusters.any fun e => (e.2.arrivals ++ e.2.capture).any fun a => a.region == rid && a.tok.kind == .marker

/-- Every node that has saved has forwarded, and no marker is under way; records are performed as they are written. -/
def snapshotDone (s : State) (rid : Nat) : Bool :=
  ((getRegion s rid).snapshot.map fun p => p.saving.isEmpty && !markersUnderWay s rid).getD false

/-- Write the header and send the done token; the next PSIG's signal follows. -/
def endSnapshot (s : State) (rid : Nat) (timeout : Bool) : State :=
  let r := getRegion s rid
  match r.snapshot with
  | none => s
  | some p =>
    let head := leBytes 4 0x50414E53 ++ leBytes 2 1 ++ leBytes 2 (b2n p.overflow + 2 * b2n timeout) ++
      leBytes 4 p.epoch.toNat ++ leBytes 4 p.records ++ leBytes 8 p.start ++ leBytes 8 p.used ++
      leBytes 8 (shapeWord r).toNat ++ leBytes 24 0
    let s := (writeMem s r.snapBase.toNat head false).1
    let s := modRegion s rid fun r => { r with snapshot := none }
    let t := valueTok .done (p.records + b2n p.overflow * 2 ^ 63 + b2n timeout * 2 ^ 62)
    startPsig (answerAt s (s.htime + signalDelay r) p.firing t) rid

def execSnapshotComplete (rid : Nat) (s : State) : Host.Outcome State Fault Refusal :=
  .next (if isStopped s rid || !snapshotDone s rid then s else endSnapshot s rid false)

def snapshotDue (s : State) (rid : Nat) : Bool :=
  ((getRegion s rid).snapshot.map fun p => decide (p.due ≤ s.htime)).getD false

def execSnapshotTimeout (rid : Nat) (s : State) : Host.Outcome State Fault Refusal :=
  .next (if isStopped s rid || !snapshotDue s rid || snapshotDone s rid then s else endSnapshot s rid true)

/-! ### The census (R377) -/

def Reports.none : Reports := { busy := false, parked := 0, external := 0 }
def Reports.add (a b : Reports) : Reports :=
  { busy := a.busy || b.busy, parked := a.parked + b.parked, external := a.external + b.external }
def total (l : List Reports) : Reports := l.foldl Reports.add Reports.none

def busyIf (b : Bool) : Reports := { Reports.none with busy := b }
def parkedIf (b : Bool) : Reports := if b then { Reports.none with parked := 1 } else Reports.none
def externalIf (b : Bool) : Reports := if b then { Reports.none with external := 1 } else Reports.none

def ofRegionTok (rid : Nat) (a : Arrival) : Bool := a.region == rid

/-- An outcome's state, with the given one where there is none. -/
def outcomeState (s : State) (x : Host.Outcome State Fault Refusal) : State :=
  match x with | .next t => t | _ => s

/-- A stream waits for a colour. -/
def streamBlocked (s : State) (st : Stream) : Bool :=
  match tagUnder s st.firing (if (streamOp st).xfm = .new then .new else .keep) with | .refused => true | _ => false

/-- No step of a stencil queue can do anything now. -/
def queueStuck (s : State) (c q : Nat) : Bool :=
  [execStencilQueueIssue c q s, execStreamTileStep c q s, execRingTileStep c q s, execRetainedRingStep c q s].all
    fun x => outcomeState s x == s

/-- A stencil queue: work under way is busy, an escalated element an external wait, and work that waits for a colour, lines
or an earlier firing is parked. -/
def queueReport (s : State) (rid c : Nat) (e : Nat × SQueue) : Reports :=
  let last := ((getCluster s c).finishing.filter fun x => x.1 == e.1).map Prod.snd
  let mine := (e.2.pending ++ e.2.issued.toList ++ last).filter fun x => x.firing.region == rid
  if mine.isEmpty then Reports.none
  else match e.2.issued.bind SFiring.held with
    | some h => if h.escalated then externalIf true else busyIf true
    | none => if queueStuck s c e.1 then parkedIf true else busyIf true

/-- A matched entry: ready is busy; waiting for lines, a colour or a mesh slot is parked. -/
def entryReport (rid : Nat) (e : Entry) : Reports :=
  if e.region ≠ rid then Reports.none
  else match e.st with
    | .part => Reports.none
    | .ready .. | .issued .. => busyIf true
    | .lines _ | .held .. => parkedIf true

def clusterReport (s : State) (rid c : Nat) : Reports :=
  let k := getCluster s c
  total (k.entries.map (entryReport rid) ++
    [busyIf ((k.arrivals ++ k.capture).any (ofRegionTok rid) || k.quad.any fun f => f.region == rid)] ++
    (k.streams.filter fun x => x.firing.region == rid).map (fun x => if streamBlocked s x then parkedIf true else busyIf true) ++
    (k.cmpx.map fun x => parkedIf (x.firing.region == rid)) ++
    (k.ptimes.map fun x => externalIf (x.1.region == rid)) ++ k.queues.map (queueReport s rid c))

def jobReport (rid : Nat) (j : Job) : Reports :=
  if j.firing.region ≠ rid then Reports.none
  else match j.held with
    | some (_, _, _, escalated) => if escalated then externalIf true else busyIf true
    | none => busyIf true

def bankReport (s : State) (rid : Nat) : Reports :=
  total ((s.banks.map fun e => busyIf (e.2.reqs.any fun q => q.firing.region == rid)) ++
    (s.waiters.filter fun w => w.firing.region == rid).map (fun w => if w.ext then externalIf true else parkedIf true) ++
    s.nacked.map fun x => parkedIf (x.1.firing.region == rid))

/-- A round's waiting members; an opener waits for its deadline and counts as nothing. -/
def roundReport (r : Round) : Reports :=
  total ([busyIf (r.releaseAt.isSome && !r.retired || r.finalAt.isSome)] ++
    r.waits.map fun w => parkedIf (w.firing != Firing.none && (w.member.isSome || !r.isReduction)))

def downMine (s : State) (rid : Nat) (d : Down) : Bool :=
  match d with
  | .emit f .. | .error f _ => f.region == rid
  | .notice n _ | .packet n .. | .result n .. => (getCrew s n).region == rid

def plumbReport (s : State) (rid : Nat) : Reports :=
  let p := s.plumb
  let r := getRegion s rid
  let mine := fun (f : Firing) => f.region == rid && f != Firing.none
  total ([busyIf ((p.ups.any fun u => u.firing.region == rid && !u.held) || (p.downs.any fun l => downMine s rid l.what) ||
                  !r.signals.isEmpty || r.freezeAt.isSome)] ++
    (p.ups.map fun u => parkedIf (mine u.firing && u.held && u.waits)) ++ p.lookups.map (fun f => parkedIf (mine f)) ++
    p.puts.map (fun x => parkedIf (mine x.1)) ++ p.pcorrs.map (fun f => parkedIf (mine f)) ++
    (p.crews.filter fun e => e.2.region == rid).flatMap fun e => e.2.all.map roundReport)

/-- The Link Engine's part (12 R413). -/
def linkReport (s : State) (rid : Nat) : Reports :=
  total ((s.link.reqs.map fun e => match e.2 with
      | some q => if q.firing.region ≠ rid then Reports.none else if q.retryAt.isSome then externalIf true else busyIf true
      | none => Reports.none) ++
    s.link.recvs.map fun x => externalIf (x.firing.region == rid))

/-- Replays that wait for their colour count as parked, as firings that wait for one do (05 R173, R179). -/
def waitingReplays (r : Region) : Nat := sumBy (fun e : Nat × Ctx => e.2.waiting.length) r.ctxs

/-- What the parts of a region in this package report in this tick. -/
def regionReport (s : State) (rid : Nat) : Reports :=
  let r := getRegion s rid
  total ([busyIf (s.net.any (fun p => p.region == rid) || s.hops.any (fun h => h.region == rid) ||
                  s.issued.any (fun f => f.region == rid) || !r.sinkWait.isEmpty),
          { Reports.none with parked := waitingReplays r }, bankReport s rid, plumbReport s rid, linkReport s rid] ++
    (regionClusters s r).map (clusterReport s rid) ++
    s.ports.flatMap fun e => e.2.jobs.map (jobReport rid))

/-- The state of a region by its reports. -/
def censusOf (x : Reports) : BitVec 2 := if x.busy then 0 else if 0 < x.external then 1 else if 0 < x.parked then 2 else 3

/-- The word that PQUIET emits. -/
def quietWord (r : Region) : Nat := r.census.toNat + r.parked % 2 ^ 32 * 2 ^ 32

def quietWaits (f : Firing) : Bool := immBit (opWord f.word) 0

/-- A waiting PQUIET that the census formed in this tick answers. -/
def quietReady (s : State) (rid : Nat) (x : Firing × Nat) : Bool :=
  let r := getRegion s rid
  x.1.region == rid && decide (x.2 ≤ r.censusAt) && (!quietWaits x.1 || r.census != 0)

/-- PQUIETs that a census satisfies emit its word; it reaches their clusters after the delay of the region. -/
def answerQuiets (s : State) (rid : Nat) (p : Firing × Nat → Bool) : State :=
  let r := getRegion s rid
  let due := s.plumb.quiets.filter fun x => quietReady s rid x && p x
  let s := modPlumb s fun q => { q with quiets := q.quiets.filter fun x => !(quietReady s rid x && p x) }
  due.foldl (fun s x => answerAt s (r.censusAt + signalDelay r) x.1 (valueTok .scalar (quietWord r))) s

/-- Ticks from a census tick to the tick in which a root forms the region's state, or a span member its part of it: the
upward latency, and 2,048 more where the owner combines the parts of several packages (R377, 01 R32). -/
def censusLag (r : Region) : Nat :=
  if r.member then 48 else if r.span.isEmpty then signalDelay r / 2 else 48 + 2048

/-- A report is due: the region runs and its parts have not reported in this tick. -/
def censusDue (s : State) (rid : Nat) : Bool :=
  let r := getRegion s rid
  r.state == .loaded && !r.stopped && !r.reports.any fun x => x.1 == s.htime

/-- The root has formed a census in this tick. -/
def censusFresh (s : State) (r : Region) : Bool := r.censusAt + censusLag r == s.htime

/-- What the member packages of a spanning region report for a tick: their state lies outside this package
(notes/assumptions/124.md). -/
def otherParts (rid t : Nat) (r : Region) : Reports :=
  if r.span.isEmpty then Reports.none
  else { busy := Config.memberBusy rid t, parked := Config.memberParked rid t, external := Config.memberExternal rid t }

/-- The end of the watchdog's window (R380). -/
def windowOver (s : State) (r : Region) : Bool := decide (r.wdStart + 2 ^ r.wdWin.toNat ≤ s.htime)

/-- The root forms the region's state of a tick from what was reported in it. A window of the watchdog that saw something
ends and the next begins. -/
def formCensus (s : State) (rid t : Nat) (x : Reports) : State :=
  let x := x.add (otherParts rid t (getRegion s rid))
  let st := censusOf x
  let s := modRegion s rid fun r =>
    let r := { r with census := st, parked := x.parked, censusAt := t, wdSeen := r.wdSeen || st == 1,
                      parkTicks := if st = 2 then satInc r.parkTicks else 0 }
    if windowOver s r && (!r.wdEn || r.wdSeen) then { r with wdStart := s.htime, wdSeen := false } else r
  answerQuiets s rid fun x => !quietWaits x.1

/-- The parts of a running region report for this tick, and the root forms the state of the tick whose reports have reached
it; PQUIETs without WAIT that entered in that tick take their word. -/
def execCensusTick (rid : Nat) (s : State) : Host.Outcome State Fault Refusal :=
  .next (if !censusDue s rid then s
    else
      let x := regionReport s rid
      let s := modRegion s rid fun r => { r with reports := r.reports ++ [(s.htime, x)] }
      let r := getRegion s rid
      match r.reports with
      | (t, x) :: rest =>
        if t + censusLag r ≤ s.htime then formCensus (setRegion s rid { r with reports := rest }) rid t x else s
      | [] => s)

/-- PQUIET enters Plumb and waits for the census of its entry tick, or with WAIT for the first from then on that is not
BUSY (R378). -/
def execPquiet (o : Op) (s : State) : Host.Outcome State Fault Refusal :=
  .next (fire s o fun s f =>
    match scalarPort f 0 with
    | some e => .error e 0
    | none => .later (modPlumb s fun p => { p with quiets := p.quiets ++ [(f, entryTick s f.cluster)] }))

def execPquietWaitEmit (rid : Nat) (s : State) : Host.Outcome State Fault Refusal :=
  .next (if censusFresh s (getRegion s rid) then answerQuiets s rid fun x => quietWaits x.1 else s)

/-! ### Deadlock and watchdog (R379, R380) -/

/-- 65,536 PARKED censuses in a row, the last of them just formed, and detection enabled. -/
def deadlockDue (s : State) (rid : Nat) : Bool :=
  let r := getRegion s rid
  r.state == .loaded && !r.stopped && !r.member && r.freezeAt.isNone && r.dlCtl && r.census == 2 &&
  decide (65536 ≤ r.parkTicks.toNat) && censusFresh s r

def execDeadlock (rid : Nat) (s : State) : Host.Outcome State Fault Refusal :=
  .next (if !deadlockDue s rid then s
    else
      let r := getRegion s rid
      let first := match s.waiters.find? fun w => w.firing.region == rid with
        | some w => waitRecord s w
        | none => leBytes 32 0
      raiseRegion (faultFreeze s rid) rid aDEADLOCK (leBytes 4 r.parked ++ leBytes 1 r.census.toNat ++ leBytes 3 0 ++ first))

/-- An enabled window has ended in which nothing fired, no response came and no census was EXTERNAL. -/
def wdogDue (s : State) (rid : Nat) : Bool :=
  let r := getRegion s rid
  r.state == .loaded && !r.stopped && !r.member && r.freezeAt.isNone && r.wdEn && !r.wdSeen && windowOver s r && censusFresh s r

/-- The watchdog's notice on the host message ring (12 R391); a full ring takes none. -/
def wdogNotice (s : State) (rid : Nat) : State :=
  if d2hFull s then s
  else appendMessage s (leBytes 1 3 ++ leBytes 15 0 ++ leBytes 8 rid ++ leBytes 8 ((getRegion s rid).freezeAt.getD 0) ++ leBytes 32 0)

def execWdog (rid : Nat) (s : State) : Host.Outcome State Fault Refusal :=
  .next (if !wdogDue s rid then s
    else
      let r := getRegion s rid
      let s := faultFreeze s rid
      let s := raiseRegion s rid aWDOG (leBytes 1 r.wdWin.toNat ++ leBytes 1 r.census.toNat ++ leBytes 6 0 ++ leBytes 8 r.lastFire)
      modRegion (wdogNotice s rid) rid fun r => { r with wdStart := s.htime })

end Sys2Proof.Machine
end

