-- ==== Sys2Proof/Machine/Service.lean ====
section
/-! DEFINITION. The Service Engine (13 R415 to R434) and the host port's accesses (12 R385 to R390): bring-up, attestation,
power and heat, telemetry, degraded operation, and reads and writes through the BARs. -/

namespace Sys2Proof.Machine

/-! ### Firmware bundles (13 R417) -/

def flashField (m : Tab Byte) (o n : Nat) : Nat := leNat (Mem.read m o n)

/-- The header's signature holds under the vendor public key, and the key is the fused one. -/
def bundleSigned (head : List Byte) : Bool :=
  sha384 Config.vendorKey == Config.vendorKeyHash &&
  ecdsaVerifies Config.vendorKey (sha384 (head.take 224)) ((head.drop 224).take 48) ((head.drop 272).take 48)

/-- A bundle that passes verification: its bytes. -/
def verified (m : Tab Byte) (fused : Nat) : Option (List Byte) :=
  let n := flashField m 6 2
  if flashField m 0 4 = 0x5349554E ∧ flashField m 4 2 = 1 ∧ 1 ≤ n ∧ n ≤ 8 then
    let head := Mem.read m 0 320
    let body := Mem.read m 320 (flashField m 16 8)
    let svn := flashField m 8 4
    if sha384 body = (head.drop 152).take 48 ∧ bundleSigned head ∧ fused ≤ svn ∧ svn ≤ 64 then some (head ++ body)
    else none
  else none

/-- The component of a type in a bundle: empty where the bundle has none. -/
def component (bundle : List Byte) (type : Nat) : List Byte :=
  let field (i o n : Nat) : Nat := leNat ((bundle.drop (24 + 16 * i + o)).take n)
  match (List.range (leNat ((bundle.drop 6).take 2))).find? fun i => field i 0 2 == type with
  | some i => (bundle.drop (320 + field i 4 4)).take (field i 8 4)
  | none => []

/-! ### Parts out of service (13 R427 to R429) -/

/-- A KIND 5 item: the physical HBM address of a channel's first granule, or a bank's number. -/
def memoryItem (s : State) (bank : Bool) (ix : Nat) : List Byte :=
  leBytes 3 5 ++ leBytes 1 (if bank then ix / 128 else ix / 64) ++ leBytes 12 0 ++ leBytes 8 s.htime ++ leBytes 8 0 ++
  leBytes 32 (if bank then ix else ix / 64 * 2 ^ 37 + ix % 64 * 256)

/-- A channel or a bank of an enabled die fails; the failure ring names no other (00 R2). -/
def failMemory (s : State) (bank : Bool) (ix : Nat) : State :=
  let known := if bank then s.service.failedBanks.contains ix else s.service.failedChannels.contains ix
  if known || !s.service.dies.contains (if bank then ix / 128 else ix / 64) then s
  else
    let s := modService s fun v =>
      if bank then { v with failedBanks := v.failedBanks ++ [ix] } else { v with failedChannels := v.failedChannels ++ [ix] }
    failureItem (setDegraded (setRcause s (if bank then 3 else 2))) (memoryItem s bank ix)

def execMemoryFailure (bank : Bool) (ix : Nat) (s : State) : Host.Outcome State Fault Refusal := .next (failMemory s bank ix)

/-- An Ethernet port goes down. -/
def ethDown (s : State) (port : Nat) : State :=
  if 6 ≤ port ∨ !s.link.ethUp.getLsbD port then s
  else
    let s := modLink s fun l => { l with ethUp := l.ethUp &&& ~~~(BitVec.ofNat 6 (2 ^ port)) }
    outOfService s 5 (portItem s port)

def execEthernetPortDown (port : Nat) (s : State) : Host.Outcome State Fault Refusal := .next (ethDown s port)

/-- Mark physical columns of a row of an enabled die failing. -/
def markFailing (s : State) (d row : Nat) (cols : List Nat) : State :=
  let new := (cols.map fun p => (d, row, p)).filter fun f => !s.service.failing.contains f && !s.service.mapped.contains f
  if s.service.dies.contains d then modService s fun v => { v with failing := v.failing ++ new } else s

/-- A cluster fails, or with its router the whole row (R427). The row keeps its numbering until it is remapped (R428). -/
def execClusterFailing (die cluster : Nat) (router : Bool) (s : State) : Host.Outcome State Fault Refusal :=
  let row := cluster / 16
  .next (if !s.service.dies.contains die || decide (320 ≤ cluster) then s
    else if router then markFailing s die row (List.range 17)
    else match physicalCol s die row (cluster % 16) with
      | some p => markFailing s die row [p]
      | none => s)

/-! ### Bring-up (13 R415, R416) -/

/-- The handle of a die's pager region: one row of two columns (09 R297). -/
def pagerHandle (d row col : Nat) : Word :=
  BitVec.ofNat 64 (2 ^ 63 + (120 + d) * 2 ^ 56 + d * 2 ^ 52 + row * 2 ^ 47 + col * 2 ^ 43 + 1 * 2 ^ 34)

/-- Step 6: each enabled die's pager region is granted to thread 7 of the die; its firmware loads the image. -/
def grantPager (s : State) (d : Nat) : State :=
  match (List.range 20).reverse.find? fun r => decide (2 ≤ presentCols s d r) with
  | none => s
  | some row =>
    let h := pagerHandle d row (presentCols s d row - 2)
    modRegion (granted s (120 + d) h [d]) (120 + d) fun r => { r with owner := 8 * d + 7 }

/-- The machine at power-good: everything as after reset but what the part keeps and what has already left the package. No
Hawk thread has been released. -/
def powerGood (s : State) : State :=
  let v := s.service
  let r := State.reset
  { r with turn := s.turn, steps := s.steps, inbox := s.inbox, sent := s.sent,
           threads := r.threads.map fun e => (e.1, { e.2 with wait := true }),
           link := { r.link with shipped := s.sent.length },
           service := { r.service with flashA := v.flashA, flashB := v.flashB, fused := v.fused, code := v.code, dies := v.dies,
                                       plim := BitVec.ofNat 16 (ratedWatts v) } }

/-- HPCTL's fields of the trained host link (12 R388). -/
def trainHost (s : State) (b : Boot) : State :=
  modLink s fun l => { l with hpctl := BitVec.ofNat 64 (b.width.toNat * 2 ^ 7 + b.rate.toNat * 2 ^ 5 + b2n b.cxl * 16 + b2n b.pri * 8) }

/-- The sequence stops: BOOTFAIL, with the host port at its lowest rate (R416). -/
def bootFail (s : State) (b : Boot) : State :=
  trainHost (modService s fun v => { v with bootfail := true }) { b with rate := 0, cxl := false }

/-- Step 3: what the self-tests found. -/
def recordFailures (s : State) (b : Boot) : State :=
  let s := b.failedChannels.foldl (fun s c => failMemory s false c) s
  let s := b.failedBanks.foldl (fun s k => failMemory s true k) s
  let s := b.failedRouters.foldl (fun s f => markFailing s f.1 f.2 (List.range 17)) s
  remapRows (b.failedClusters.foldl (fun s f => markFailing s f.1 f.2.1 [f.2.2]) s)

/-- Some enabled die has no working HBM channel. -/
def noChannel (s : State) : Bool :=
  s.service.dies.any fun d => (List.range 64).all fun c => s.service.failedChannels.contains (64 * d + c)

/-- Step 5: the Hawk firmware in the SRAM of each enabled die, and its thread 0 released. -/
def startHawks (s : State) (fw : List Byte) : State :=
  s.service.dies.foldl (fun s d =>
    let s := setMem s (Mem.write s.mem (sramAddr d 0) (fw.take (2 ^ 20)))
    setThread s (8 * d) { getThread s (8 * d) with wait := false }) s

/-- Step 7: the ports; one that fails training is left down. -/
def trainPorts (s : State) (b : Boot) : State :=
  let s := trainHost s b
  let s := (List.range 6).foldl (fun s p =>
    if b.scewenUp.getLsbD p then s
    else
      let s := modService s fun v => { v with scewenUp := v.scewenUp &&& ~~~(BitVec.ofNat 6 (2 ^ p)) }
      outOfService s 4 (portItem s p)) s
  (List.range 6).foldl (fun s p => if b.ethUp.getLsbD p then s else ethDown s p) s

/-- Step 8: READY; the fused count rises to a newer bundle's security version (R417). -/
def becomeReady (s : State) : State :=
  modService s fun v =>
    { v with ready := true, fused := if v.fused.toNat < bundleSvn v then BitVec.ofNat 7 (bundleSvn v) else v.fused }

/-- Package reset: the whole sequence of R415. -/
def execPackageReset (b : Boot) (s : State) : Host.Outcome State Fault Refusal :=
  let s := powerGood s
  let fused := s.service.fused.toNat
  let bundle := match verified s.service.flashA fused with | some x => some x | none => verified s.service.flashB fused
  .next (match bundle with
    | none => bootFail s b
    | some x =>
      let s := recordFailures (modService s fun v => { v with running := x }) b
      if noChannel s then bootFail s b
      else
        let s := startHawks s (component x 2)
        becomeReady (trainPorts (s.service.dies.foldl grantPager s) b))

/-! ### Attestation (13 R418) -/

def execGetId (s : State) : Host.Outcome State Fault Refusal := .next (send s (.doe Config.certificates))

/-- GET_MEAS: the response without its signature. -/
def measurements (s : State) (nonce : List Byte) : List Byte :=
  let v := s.service
  nonce ++ leBytes 4 v.fused.toNat ++ leBytes 8 (health v).toNat ++ leBytes 4 v.capgen.toNat ++
  [1, 2, 3, 4].flatMap fun t => leBytes 2 t ++ leBytes 2 (bundleSvn v) ++ sha384 (component v.running t)

def execGetMeas (nonce : List Byte) (s : State) : Host.Outcome State Fault Refusal :=
  .next (if nonce.length ≠ 48 then s
    else
      let m := measurements s nonce
      send s (.doe (m ++ ecdsaSign (sha384 m))))

/-- WRITE_FW: into slot A while BOOTFAIL or READY is set; refused otherwise. -/
def execWriteFw (off : Nat) (data : List Byte) (s : State) : Host.Outcome State Fault Refusal :=
  .next (if (s.service.ready || s.service.bootfail) && decide (data.length ≤ 4096) then
      send (modService s fun v => { v with flashA := Mem.write v.flashA off data }) (.doe [0])
    else send s (.doe [1]))

/-! ### Power, heat and telemetry (13 R421 to R423) -/

/-- The power clamp after a period (R422). -/
def powerClamp (v : Service) : Service :=
  let limit := v.plim.toNat * 1000
  let p := v.pwr.toNat
  if limit < p then { v with powerClamp := if v.powerClamp < 2 then v.powerClamp + 1 else 2, coolPeriods := 0 }
  else if p * 100 < limit * 95 then
    if v.coolPeriods = 7 then { v with powerClamp := if v.powerClamp = 0 then 0 else v.powerClamp - 1, coolPeriods := 0 }
    else { v with coolPeriods := v.coolPeriods + 1 }
  else { v with coolPeriods := 0 }

def sat32 (n : Nat) : BitVec 32 := BitVec.ofNat 32 (min n 0xFFFFFFFF)

/-- Every 2^20 ticks PWR, ENERGY, TEMP, ECCSUM and TELTICK change together. -/
def execTelemetryUpdate (r : Readings) (s : State) : Host.Outcome State Fault Refusal :=
  .next (if s.htime < s.service.teltick.toNat + 2 ^ 20 then s
    else
      let ports (f : Port → BitVec 32) : Nat := sumBy (fun e : Nat × Port => (f e.2).toNat) s.ports
      let temp := (List.range 8).foldl (fun a i => a + min (r.temps.getD i 0) 255 * 256 ^ i) 0
      modService s fun v => powerClamp
        { v with pwr := BitVec.ofNat 32 r.power, energy := v.energy + BitVec.ofNat 64 r.energy, temp := BitVec.ofNat 64 temp,
                 poisoned := sat32 (ports Port.pue + r.poisoned), corrected := sat32 (ports Port.pce + r.corrected),
                 teltick := BitVec.ofNat 64 s.htime })

/-- A die's junction temperature: at 105 °C the clamp comes on; it lifts after one period below 95 °C (R422). -/
def thermal (v : Service) (now die temp : Nat) : Service :=
  let on (since : Option Nat) : Tab (Option Nat) := Tab.insert die since (v.hot.filter fun e => e.1 != die)
  let hot :=
    if 105 ≤ temp then on none
    else match v.hot.find? fun e => e.1 == die with
      | none => v.hot
      | some (_, since) =>
        if 95 ≤ temp then on none
        else match since with
          | none => on (some now)
          | some t => if t + 2 ^ 20 ≤ now then v.hot.filter fun e => e.1 != die else v.hot
  { v with hot := hot, thermal := !hot.isEmpty }

def execThermalClamp (die temp : Nat) (s : State) : Host.Outcome State Fault Refusal :=
  .next (if s.service.dies.contains die then modService s fun v => thermal v s.htime die temp else s)

/-- At 115 °C every region freezes, a KIND 7 item is written and FATAL holds the compute islands in reset. -/
def execThermalShutdown (die temp : Nat) (s : State) : Host.Outcome State Fault Refusal :=
  .next (if temp < 115 ∨ s.service.fatal ∨ !s.service.dies.contains die then s
    else
      let s := (s.regions.map Prod.fst).foldl faultFreeze s
      let s := failureItem s (leBytes 3 7 ++ leBytes 1 die ++ leBytes 12 0 ++ leBytes 8 s.htime ++ leBytes 40 0)
      modService s fun v => { v with fatal := true })

/-! ### The host port (12 R385, R386, R389, R390) -/

/-- A Completer Abort. -/
def abort (s : State) : State := send s .abort

/-- A granule of a host read is poisoned: counted and refused while PACC is 0. -/
def hostAnswer (s : State) (bs : List Byte) (bad : Bool) : State :=
  if bad && refusesPoison s then abort (modLink s fun l => { l with aborts := l.aborts + 1 })
  else send s (.completion bs bad)

/-- The Service Engine block and the capability list answer before READY; nothing else of BAR0 does (13 R415). -/
def bar0Open (s : State) (off : Nat) : Bool := s.service.ready || decide (0xF000 ≤ off)

/-- The part of HBM that BAR2 reaches, and of bank memory that BAR4 reaches. -/
def barHbm (s : State) (off n : Nat) : Bool :=
  hbmExists s off && hbmExists s (off + n - 1) && !inSinkArea off && !inSinkArea (off + n - 1)
def barBank (s : State) (off n : Nat) : Bool :=
  decide (off + n ≤ 2 ^ 29) && s.service.dies.contains (off / 2 ^ 26) && s.service.dies.contains ((off + n - 1) / 2 ^ 26)

def execHostRead (bar off size : Nat) (s : State) : Host.Outcome State Fault Refusal :=
  .next (match bar with
    | 0 =>
      if !bar0Open s off then send s (.completion (leBytes size 0) false)
      else (match loadPcb s none off size with
        | some (s, w) => send s (.completion (leBytes size w.toNat) false)
        | none => abort s)
    | 2 =>
      if barHbm s off size then (let (s, bs, bad) := readMem s off size; hostAnswer s bs bad) else abort s
    | 4 =>
      if !barBank s off size then abort s
      else (match loadBank s (bankBase + off) size with
        | some (s, bs, bad) => hostAnswer s bs bad
        | none => abort s)
    | _ => s)

/-- A host write performs at once; what traps for the Hawk, or touches part of a poisoned bank word, is discarded. -/
def execHostWrite (bar off : Nat) (data : List Byte) (poisoned : Bool) (s : State) : Host.Outcome State Fault Refusal :=
  .next (match bar with
    | 0 =>
      if poisoned || !bar0Open s off then s
      else (match storePcb s none off data.length (BitVec.ofNat 64 (leNat data)) with
        | .ok s => s
        | _ => s)
    | 2 => if barHbm s off data.length then (writeMem s off data poisoned).1 else s
    | 4 =>
      if !barBank s off data.length then s
      else (match storeBank s (bankBase + off) data poisoned with
        | .ok s => s
        | .error _ => s)
    | _ => s)

def execCxlSnoop (addr : Word) (s : State) : Host.Outcome State Fault Refusal := .next (send s (.snoopAnswer addr))

end Sys2Proof.Machine
end

