-- ==== Sys2Proof/Machine/Sheet.lean ====
section
/-! DEFINITION. Dust sheets as SCAN writes them (04 R123; 05 R159, R168; 07 R249; 08 R284; 09 R317; 10 R345; 11 R381,
R383; 12 R412). -/

namespace Sys2Proof.Machine

/-! ### Records -/

/-- Bytes of a sheet, each with the poison of the word it comes from. -/
abbrev Bytes := List (Byte × Bool)

def sound (bs : List Byte) : Bytes := bs.map fun b => (b, false)
def padTo (n : Nat) (b : Bytes) : Bytes := b ++ List.replicate ((n - b.length % n) % n) (0, false)

/-- One record or section under way: its type and its bytes. -/
structure Rec where
  type : Nat
  bytes : Bytes
  deriving DecidableEq, Repr

def plainRec (t : Nat) (bs : List Byte) : Rec := { type := t, bytes := sound bs }

def dieOf (r : Region) (c : Nat) : Nat := r.dieIx (c / 512)
def relOf (r : Region) (c : Nat) : Nat := r.relative (c % 512)

/-- Die, zero and relative cluster. -/
def placeBytes (r : Region) (c : Nat) : List Byte := leBytes 1 (dieOf r c) ++ leBytes 1 0 ++ leBytes 2 (relOf r c)

/-- A handle with its OWNER moved. -/
def moveOwner (o : BitVec 9) (w : Word) : Word :=
  let h := handleOf w
  ({ h with owner := (BitVec.ofNat 9 h.owner + o).toNat } : Handle).word

def movePayload (o : BitVec 9) (t : Tok) : Word := if isTile t then moveOwner o t.payload else t.payload

/-- A token with its clusters moved. -/
def moveTok (o : BitVec 9) (t : Tok) : Tok := { t with dst := moveDst o t.dst, payload := movePayload o t }

def tokBytes (r : Region) (t : Tok) : List Byte :=
  let t := moveTok (toRelative r) t
  leBytes 8 (headerBits t).toNat ++ leBytes 8 t.payload.toNat

/-- A tag as a FRAMES record holds a parent. -/
def parentBits (t : Option Tag) : Nat :=
  match t with
  | none => 0
  | some t => 2 ^ 63 + t.ctx.toNat * 2 ^ 24 + t.col.toNat * 2 ^ 12 + t.gen.toNat * 2 ^ 8

/-! ### Operators and contexts -/

/-- Route-word entries that the operator before a slot gives it. -/
def rwiBefore (s : State) (c : Nat) (i : BitVec 11) : Nat :=
  let x := getSlot s c (i - 1)
  if i = 0 ∨ !x.occ then 0 else wordRwi x.word

/-- The same for a packet that waits at a slot: those of the packet that waits before it, if one does. -/
def rwiWaiting (s : State) (c : Nat) (i : BitVec 11) : Nat :=
  match (getSlot s c (i - 1)).waiting with
  | some w => if i = 0 ∨ w.rw then 0 else wordRwi w.word
  | none => rwiBefore s c i

def opRecBytes (s : State) (r : Region) (c : Nat) (i : BitVec 11) (kind : Nat) (w : Config) : Rec :=
  let n := if kind = 2 then rwiWaiting s c i else rwiBefore s c i
  let word := if w.rw then moveRoute (toRelative r) n w.word else moveWord (toRelative r) w.word
  plainRec 1 (leBytes 1 (dieOf r c) ++ leBytes 1 ((w.ctx.map BitVec.toNat).getD 0) ++ leBytes 2 (relOf r c) ++
    leBytes 2 i.toNat ++ leBytes 2 (kind + if w.ctx.isSome then 32768 else 0) ++ leBytes 16 word.toNat)

def opRecs (s : State) (r : Region) (c : Nat) : List Rec :=
  (getCluster s c).slots.flatMap fun e =>
    let i := BitVec.ofNat 11 e.1
    (if e.2.occ || e.2.rw then [opRecBytes s r c i (if e.2.rw then 1 else 0) { word := e.2.word, rw := e.2.rw, ctx := e.2.ctx }]
     else []) ++ (e.2.waiting.toList.map (opRecBytes s r c i 2))

def ctxBytes (s : State) (r : Region) (n : Nat) (x : Ctx) : Rec :=
  let h := (homeOf s r n).getD 0
  plainRec 2 (leBytes 1 n ++ leBytes 1 x.die ++ leBytes 2 (relOf r h) ++ leBytes 2 x.window ++ leBytes 2 x.maxtile ++
    leBytes 2 x.ptr.toNat ++ leBytes 2 ((x.live.head?.map fun c => c.col.toNat).getD 0) ++ leBytes 1 x.gen.toNat ++
    leBytes 2 x.live.length ++ leBytes 17 0)

def frameBytes (n : Nat) (c : Colour) : Rec :=
  plainRec 3 (leBytes 1 n ++ leBytes 1 c.gen.toNat ++ leBytes 2 c.col.toNat ++ leBytes 2 c.key.toNat ++ leBytes 2 0 ++
    leBytes 8 (parentBits c.parent) ++ (c.f.toList.flatMap fun v => leBytes 8 v.toNat) ++ leBytes 8 (f7 c).toNat ++
    leBytes 2 ((c.succ.map fun t => 2 ^ 15 + t.col.toNat).getD 0) ++ leBytes 1 c.count ++
    leBytes 1 (b2n c.exits + 2 * b2n c.nexts) ++ leBytes 12 0)

/-- Where a colour's spawn record lies, with what neither it nor FRAMES holds: a record of the annex
(notes/assumptions/19.md). state 1: a replay that waits for its colour. -/
def spawnBytes (n state col line : Nat) (mode mode0 : BitVec 3) (parent : Option Tag) : Rec :=
  plainRec 0x80000001 (leBytes 1 n ++ leBytes 1 state ++ leBytes 2 col ++ leBytes 4 line ++ leBytes 1 mode.toNat ++
    leBytes 1 mode0.toNat ++ leBytes 6 0 ++ leBytes 8 (parentBits parent))

def ctxRecs (s : State) (r : Region) : List Rec :=
  (r.succs.map fun c => plainRec 0x80000005 (leBytes 8 c.toNat)) ++
  r.ctxs.flatMap fun e =>
    ctxBytes s r e.1 e.2 :: e.2.live.map (frameBytes e.1) ++
    e.2.live.map (fun c => spawnBytes e.1 0 c.col.toNat c.line c.rmode c.rmode0 c.parent) ++
    e.2.waiting.map (fun w => spawnBytes e.1 1 0 w.line w.rmode w.rmode w.parent) ++
    e.2.quarantine.map fun q => plainRec 13 (leBytes 1 e.1 ++ leBytes 1 0 ++ leBytes 2 q.1.toNat ++ leBytes 4 q.2)

/-! ### Tokens -/

/-- PSIG firings whose snapshot is on its way or in progress: after a RESTORE they take theirs anew (11 R381). -/
def snapshotFirings (r : Region) : List Firing :=
  (r.snapshot.toList.map Snapshot.firing) ++ r.signals.filterMap fun g => match g.2 with
    | .marker f => some f
    | _ => none

/-- Firings that a freeze captures as matched entries (01 R44): SRC streams, with their remaining count and next value,
waiting class-6 and link firings, and an SCANCEL that waits. -/
def capturedFirings (s : State) (rid : Nat) : List Firing :=
  let p := s.plumb
  let streams := s.clusters.flatMap fun e => e.2.streams.map fun x =>
    { x.firing with toks := [{ tokAt x.firing 0 with payload := word x.left }, { tokAt x.firing 1 with payload := x.next }] }
  let all := streams ++ (s.clusters.flatMap fun e => e.2.ptimes.map Prod.fst ++ e.2.cancels.map SCancel.firing) ++
    (p.ups.filter fun u => u.held && u.waits).map Up.firing ++ p.lookups ++ p.puts.map Prod.fst ++ p.pcorrs ++
    p.quiets.map Prod.fst ++ p.psigs ++ snapshotFirings (getRegion s rid) ++ (p.crews.flatMap fun e => (e.2.open_.toList ++ e.2.rounds).flatMap Round.firings) ++
    (s.link.reqs.filterMap fun e => e.2.bind fun q => if q.retryAt.isSome then some q.firing else none) ++
    s.link.recvs.map Recv.firing
  all.filter fun f => f.region == rid

/-- The tokens of a matched set: cluster, slot, port and token. -/
def cellsAt (c : Nat) (slot : BitVec 11) (cells : List (Option Tok)) : List (Nat × BitVec 11 × Nat × Tok) :=
  (List.range cells.length).filterMap fun p => (cells.getD p none).map fun t => (c, slot, p, t)

/-- A matched token that carries KEEP and has stayed in the store as an entry's cell, which MATCH lists (05 R145). -/
def keptApart (s : State) (rid : Nat) (tag : Tag) (x : Nat × BitVec 11 × Nat × Tok) : Bool :=
  x.2.2.2.flag.keep && (getCluster s x.1).entries.any fun e =>
    e.st == .part && e.region == rid && e.slot == x.2.1 && e.tag == tag && e.cells.getD x.2.2.1 none == some x.2.2.2

/-- An entry's tokens; a firing that has been taken lists no token that stands apart. -/
def entryCells (s : State) (rid c : Nat) (x : Entry) : List (Nat × BitVec 11 × Nat × Tok) :=
  match x.st with
  | .ready .. | .held .. | .issued .. => (cellsAt c x.slot x.cells).filter fun y => !keptApart s rid x.tag y
  | _ => cellsAt c x.slot x.cells

/-- What MATCH lists: entries of the matching stores and captured firings. -/
def matchedCells (s : State) (rid : Nat) : List (Nat × BitVec 11 × Nat × Tok) :=
  (s.clusters.flatMap fun e => (e.2.entries.filter fun x => x.region == rid).flatMap (entryCells s rid e.1)) ++
  (capturedFirings s rid).flatMap fun f =>
    (cellsAt f.cluster f.slot (f.toks.map some)).filter fun y => !keptApart s rid f.tag y

def matchRec (r : Region) (x : Nat × BitVec 11 × Nat × Tok) : Rec :=
  let t := { x.2.2.2 with dst := { x.2.2.2.dst with valid := true, port := BitVec.ofNat 2 x.2.2.1, slot := x.2.1,
                                                    die := BitVec.ofNat 3 (dieOf r x.1), cluster := BitVec.ofNat 9 x.1 } }
  plainRec 4 (placeBytes r x.1 ++ leBytes 2 x.2.1.toNat ++ leBytes 1 x.2.2.1 ++ leBytes 1 0 ++ tokBytes r t)

/-- Captured tokens: those of the capture buffers, and SINK tokens that wait for their ring (04 R121, R122). -/
def capturedToks (s : State) (rid : Nat) : List (Nat × Arrival) :=
  let r := getRegion s rid
  (s.clusters.flatMap fun e => (e.2.capture.filter fun a => a.region == rid).map fun a => (e.1, a)) ++
  r.sinkWait.map fun t =>
    let c := (regionCluster s r t.dst.die.toNat t.dst.cluster.toNat).getD 0
    (c, { region := rid, src := c, tok := t, data := none })

/-- The bytes of a payload, each with the poison of its word. -/
def payloadBytes (d : Payload) : Bytes :=
  (d.bytes.zip (List.range d.bytes.length)).map fun e => (e.1, d.bad.contains (e.2 / 8 * 8))

def captureRec (r : Region) (x : Nat × Arrival) : Rec :=
  let body := sound (placeBytes r x.1 ++ leBytes 1 (b2n x.2.data.isSome) ++ leBytes 3 0 ++ tokBytes r x.2.tok)
  { type := 5, bytes := body ++ (x.2.data.map payloadBytes).getD [] }

/-! ### Engines' firings -/

/-- What a record of STENCIL, PORTS or BANKWAIT has no place for: a record of the annex (notes/assumptions/19.md). ord is the
firing's ordinal in its section; tag the tag that its record does not give. -/
def heldBytes (sect ord : Nat) (shaken : Bool) (fail : Option (Nat × BitVec 8)) (done no bytes tiles : Nat) (tag : Tag)
    (toks : List Tok) : Rec :=
  plainRec 0x80000003 (leBytes 1 sect ++ leBytes 1 (b2n shaken + 2 * b2n fail.isSome) ++ leBytes 2 ord ++
    leBytes 1 ((fail.map fun x => x.2.toNat).getD 0) ++ leBytes 3 0 ++ leBytes 4 ((fail.map Prod.fst).getD 0) ++
    leBytes 4 done ++ leBytes 4 (tagBits tag .scalar Flag.none) ++ leBytes 4 no ++ leBytes 4 bytes ++ leBytes 4 tiles ++
    ((List.range 4).flatMap fun i =>
      leBytes 1 (kindCode (toks.getD i Tok.none).kind * 32 + flagBits (toks.getD i Tok.none).flag)) ++ leBytes 4 toks.length)

def relPayload (r : Region) (f : Firing) (i : Nat) : List Byte := leBytes 8 (movePayload (toRelative r) (tokAt f i)).toNat

def sfiringBytes (r : Region) (q : Nat) (issued : Bool) (x : SFiring) : List Byte :=
  let f := x.firing
  leBytes 1 q ++ leBytes 1 x.slot ++ leBytes 1 (wordOpc f.word) ++ leBytes 1 (b2n issued + 128 * b2n x.cancelled) ++
  leBytes 2 f.slot.toNat ++ leBytes 2 0 ++ leBytes 4 x.next ++ leBytes 4 x.marks ++ relPayload r f 0 ++
  relPayload r f 1 ++ relPayload r f 2 ++ leBytes 4 (tagBits f.tag .scalar Flag.none) ++ leBytes 4 0

/-- An entry of a STENCIL record: a firing, issued or not, or an SORDER note. -/
abbrev SEntry := (Bool × SFiring) ⊕ SNote

def SEntry.no : SEntry → Nat
  | .inl x => x.2.no
  | .inr n => n.no

/-- The lowest queue that an SORDER note holds back, where its entry stands. -/
def SNote.queue (n : SNote) : Nat := ((List.range 4).find? fun q => n.onto.getLsbD q).getD 0

/-- Put an item before the first that is not below it. -/
def insertBy {α : Type} (key : α → Nat) (x : α) : List α → List α
  | [] => [x]
  | y :: l => if key x < key y then x :: y :: l else y :: insertBy key x l

def sortBy {α : Type} (key : α → Nat) (l : List α) : List α := l.foldl (fun acc x => insertBy key x acc) []

/-- The firings that a cluster's stencil queues hold, with those that have left them and not yet sent their last tokens, and
its SORDER notes, in queue and then acceptance order. -/
def sentries (k : Cluster) (rid : Nat) : List (Nat × SEntry) :=
  (List.range 4).flatMap fun q =>
    let x := Tab.get SQueue.empty k.queues q
    let fs := x.issued.toList.map (fun y => (true, y)) ++ x.pending.map (fun y => (false, y)) ++
      (k.finishing.filter fun e => e.1 == q).map fun e => (!e.2.cancelled || e.2.next != 0, e.2)
    let ns := k.notes.filter fun n => n.region == rid && n.queue == q
    (sortBy SEntry.no ((fs.filter fun y => y.2.firing.region == rid).map Sum.inl ++ ns.map Sum.inr)).map fun y => (q, y)

/-- An SORDER note: the masks in bits 7..0 of its operand as IMM holds them, and from bit 8 the entries it notes, by place
(notes/assumptions/121.md). -/
def noteBytes (s : State) (c q : Nat) (all : List (Nat × SEntry)) (n : SNote) : List Byte :=
  let noted := (List.range (min 56 all.length)).foldl (fun m i =>
    if ((all[i]?).map fun y => match y.2 with | .inl x => n.noted.contains x.2.no | .inr _ => false).getD false
    then m + 2 ^ (8 + i) else m) 0
  leBytes 1 q ++ leBytes 1 0 ++ leBytes 1 0x08 ++ leBytes 1 0 ++ leBytes 2 n.slot.toNat ++ leBytes 2 0 ++ leBytes 4 0 ++ leBytes 4 0 ++
  leBytes 8 (bits (getSlot s c n.slot).word 67 64 + 16 * n.onto.toNat + noted) ++ leBytes 16 0 ++
  leBytes 4 (tagBits n.tag .scalar Flag.none) ++ leBytes 4 0

/-- A flat address whose cluster is relative, where it lies in a scratchpad. -/
def relFlat (r : Region) (a : Nat) : Nat :=
  if kindOf a = .sp then
    let c := (a - 2 ^ 47) / 2 ^ 21
    2 ^ 63 + dieOf r c * 2 ^ 32 + relOf r c * 2 ^ 21 + a % 2 ^ 21
  else a

/-- What a copy has done and its entry has no place for: records of the annex (notes/assumptions/19.md). -/
def copyBytes (r : Region) (ord : Nat) (left : Bool) (x : SFiring) : List Rec :=
  let flags := b2n left + 2 * b2n x.error.isSome + 4 * b2n x.begun + 8 * b2n x.tile.isSome + 16 * b2n x.bad +
    32 * b2n x.tileFail.isSome + 64 * b2n x.failNext.isSome + 128 * b2n x.tiled
  let fact (kind a b c : Nat) : Rec :=
    plainRec 0x80000010 (leBytes 4 ord ++ leBytes 1 kind ++ leBytes 3 0 ++ leBytes 8 a ++ leBytes 8 b ++ leBytes 8 c)
  plainRec 0x8000000F (leBytes 4 ord ++ leBytes 1 flags ++ leBytes 1 ((x.failNext.map BitVec.toNat).getD 0) ++
    leBytes 1 ((x.tileFail.map fun e => e.2.toNat).getD 0) ++ leBytes 1 0 ++ leBytes 4 ((x.tileFail.map Prod.fst).getD 0) ++
    leBytes 4 0 ++ leBytes 8 ((x.error.map BitVec.toNat).getD 0) ++
    leBytes 8 ((x.tile.map fun e => (moveOwner (toRelative r) e.1).toNat).getD 0) ++ leBytes 8 ((x.tile.map Prod.snd).getD 0)) ::
  (x.marked.map fun e => fact 0 (relFlat r (spAddr (e.1 / 2 ^ 14) (128 * (e.1 % 2 ^ 14)))) e.2.toNat 0) ++
  (x.wrote.map fun e => fact 1 (relFlat r e.1) e.2.2 e.2.1) ++
  x.filled.map fun e => fact 2 e.1 (e.2 % 2 ^ 64) (e.2 / 2 ^ 64)

def stenSlotBytes (x : Sten) : List Byte :=
  x.desc.getD (List.replicate 128 0) ++ leBytes 1 ((x.link.map fun t => 128 + t).getD 0) ++ leBytes 3 0 ++
  leBytes 4 x.cursor.toNat ++ leBytes 8 0

/-- A cluster holds a node of an engine class. -/
def holdsClass (k : Cluster) (ecl : Nat) : Bool := k.slots.any fun e => e.2.occ && wordEcl e.2.word == ecl

/-- The STENCIL record of a cluster, and what the optional section adds (08 R284). -/
def stencilRecs (s : State) (rid c ord : Nat) : List Rec × Nat :=
  let r := getRegion s rid
  let k := getCluster s c
  if !holdsClass k 3 then ([], ord)
  else
    let es := sentries k rid
    let armedMask := (List.range 32).foldl (fun m i => if (getSten s c i).desc.isSome then m + 2 ^ i else m) 0
    let body := placeBytes r c ++ leBytes 4 armedMask ++ leBytes 2 es.length ++ leBytes 6 0 ++
      ((List.range 32).flatMap fun i => stenSlotBytes (getSten s c i)) ++
      es.flatMap fun y => match y.2 with
        | .inl x => sfiringBytes r y.1 x.1 x.2
        | .inr n => noteBytes s c y.1 es n
    let extra := (es.zip (List.range es.length)).flatMap fun e => match e.1.2 with
      | .inl x =>
        heldBytes 7 (ord + e.2) x.2.shaken x.2.fail x.2.done x.2.no x.2.bytes x.2.tiles x.2.firing.tag x.2.firing.toks ::
          copyBytes r (ord + e.2) (k.finishing.any fun y => y.2.no == x.2.no) x.2
      | .inr n => [heldBytes 7 (ord + e.2) false none 0 n.no 0 0 n.tag []]
    (plainRec 7 body :: extra, ord + es.length)

/-- The firings that a port holds, in acceptance order: state, generator, firing (09 R317). -/
def portFirings (q : Port) (rid : Nat) : List (Nat × Nat × Job) :=
  let gens := q.gens.filterMap fun e => e.2.map fun j => (1, e.1, j)
  sortBy (fun x => x.2.2.no) ((gens ++ q.waiting.map (fun j => (2, 0, j)) ++ q.queue.map fun j => (0, 0, j)).filter fun x =>
    x.2.2.firing.region == rid)

/-- The kind of a class-4 firing's result token, an error once an element has failed (09 R303, R306). -/
def resultKind (j : Job) : Kind :=
  if j.fail.isSome then .error
  else match jobOpc j with
    | 0x00 => if immBit (jobOp j) 25 then .tile else .scalar
    | 0x02 | 0x04 => .tile
    | 0x06 => if isNop (jobOp j) then .done else .scalar
    | _ => .done

def jobBytes (r : Region) (x : Nat × Nat × Job) : List Byte :=
  let j := x.2.2
  let f := j.firing
  let state := if x.1 = 1 ∧ j.held.isNone then 0 else x.1
  leBytes 4 (nodeField r f.cluster f.slot) ++ leBytes 1 state ++ leBytes 1 x.2.1 ++ leBytes 2 0 ++
  leBytes 4 ((j.elems.head?.map Elem.ix).getD 0) ++ leBytes 4 j.count ++
  ((List.range 4).flatMap (relPayload r f)) ++ leBytes 4 (tagBits j.tag (resultKind j) (poisonFlag (gotPoison j))) ++
  leBytes 4 0 ++ leBytes 8 ((j.held.map fun h => h.1.toNat).getD 0)

def waveBytes (w : Wave) : List Byte :=
  leBytes 1 w.tag.ctx.toNat ++ leBytes 1 w.tag.gen.toNat ++ leBytes 2 w.tag.col.toNat ++ leBytes 1 w.last.toNat ++
  leBytes 1 w.lastSucc.toNat ++ leBytes 10 0

def portRecs (s : State) (rid p ord : Nat) : List Rec × Nat :=
  let r := getRegion s rid
  let q := getPort s p
  if !q.en || q.owner.toNat ≠ rid then ([], ord)
  else
    let ws := q.waves.filter fun w => w.region == rid
    let js := portFirings q rid
    let range := q.range.getD (0, 0)
    let body := leBytes 1 (r.dieIx (p / 16)) ++ leBytes 1 (p % 16) ++ leBytes 1 q.mode.toNat ++
      leBytes 1 (b2n q.copy + 2 * b2n q.range.isSome) ++ leBytes 2 ws.length ++ leBytes 2 js.length ++ leBytes 8 range.1.toNat ++
      leBytes 8 range.2.toNat ++ leBytes 8 0 ++ ws.flatMap waveBytes ++ js.flatMap (jobBytes r)
    let extra := (js.zip (List.range js.length)).map fun e =>
      let j := e.1.2.2
      heldBytes 8 (ord + e.2) j.handshake j.fail j.count j.no j.bytes 0 j.firing.tag j.firing.toks
    (plainRec 8 body :: extra, ord + js.length)

/-- Waiters of a region, grouped by word and in list order (10 R345). -/
def regionWaiters (s : State) (rid : Nat) : List Waiter :=
  let mine := s.waiters.filter fun w => w.firing.region == rid
  (distinct (mine.map Waiter.word)).flatMap fun a => mine.filter fun w => w.word == a

def waiterRecs (s : State) (rid : Nat) : List Rec :=
  let ws := regionWaiters s rid
  ws.map (fun w => plainRec 9 (waitRecord s w)) ++ (ws.zip (List.range ws.length)).map fun e =>
    heldBytes 9 e.2 false none 0 e.1.no 0 0 e.1.tag e.1.firing.toks

/-! ### Crews (11 R383) -/

def roundKind (k : RoundKind) : Nat := match k with | .barrier => 1 | .broadcast => 2 | .reduction => 3 | .tileReduction => 4

/-- w: the leaves of a reduction, or the places of a barrier's or broadcast's bitmap. -/
def bitmapWidth (r : Round) : Nat := if r.isReduction then r.width else treeWidth r.set

def memberMask (l : List Nat) : Nat := (distinct l).foldl (fun m i => m + 2 ^ i) 0

def roundBytes (frozenAt : Nat) (r : Round) : List Byte :=
  let w := bitmapWidth r
  let count := if r.isReduction then (r.leaves.filter Leaf.onTime).length else r.arrived.length
  let v := if r.kind = .broadcast then (r.sent.map fun t => t.payload.toNat).getD 0
    else if r.isReduction && !r.evaluated then r.deadline - frozenAt else 0
  let leaf (i : Nat) : List Byte := leBytes 8 (((leafOf r.leaves i).map fun l => l.value.toNat).getD 0)
  leBytes 1 (roundKind r.kind) ++ leBytes 1 r.op ++ leBytes 2 r.no ++ leBytes 4 r.set.length ++ leBytes 4 count ++ leBytes 4 w ++
  leBytes 8 v ++ leBytes 4 (r.fmt.code + r.rnd.code.toNat * 32 + r.flags.toNat * 256) ++ leBytes 4 r.packets.length ++
  leBytes ((w + 63) / 64 * 8) (memberMask r.arrived) ++ (if r.kind = .reduction then (List.range w).flatMap leaf else [])

/-- One fact of a round that its entry has no place for: a record of the annex (notes/assumptions/19.md). -/
def factRec (crew no kind v : Nat) : Rec := plainRec 0x80000004 (leBytes 1 crew ++ leBytes 1 kind ++ leBytes 2 no ++ leBytes 4 v)

/-- A packet's value as a sheet holds it: a leaf tile's handle moves with the origin. -/
def packetWord (o : BitVec 9) (tile : Bool) (w : Word) : Word := if tile then moveOwner o w else w

/-- A packet that a round has sent, and one that a die's logs keep (11 R369). -/
def packetRec (r : Region) (crew : Nat) (x : Round) (p : RPacket) : Rec :=
  plainRec 0x8000000A (leBytes 1 crew ++ leBytes 1 (b2n p.poison) ++ leBytes 2 x.no ++ leBytes 4 p.member ++
    leBytes 8 (packetWord (toRelative r) (x.kind == .tileReduction) p.value).toNat)

def logRec (r : Region) (l : Logged) : Rec :=
  plainRec 0x8000000B (leBytes 1 (r.dieIx l.die) ++ leBytes 1 l.crew ++ leBytes 1 l.gen.toNat ++ leBytes 1 (b2n l.packet.poison) ++
    leBytes 2 l.round ++ leBytes 2 l.ix ++ leBytes 4 l.packet.member ++ leBytes 4 0 ++ leBytes 8 l.packet.value.toNat)

def roundFacts (r : Region) (n : Nat) (x : Round) : List Rec :=
  let fact := factRec n x.no
  x.set.map (fact 0) ++ x.gone.map (fact 1) ++ (x.leaves.filter fun l => !l.onTime).map (fun l => fact 2 l.member) ++
  (x.leaves.filter Leaf.poison).map (fun l => fact 3 l.member) ++
  (x.waits.map fun w => fact 4 ((w.member.map fun m => m + 1).getD 0)) ++
  (if x.isReduction then
     [fact 5 x.rows, fact 6 x.epr, fact 7 (dieOf r x.cluster * 512 + relOf r x.cluster), fact 8 (b2n x.evaluated + 2 * b2n x.sat)] else []) ++
  (match x.sent with | some t => [fact 9 (kindCode t.kind * 32 + flagBits t.flag)] | none => []) ++
  (if x.kind = .tileReduction then x.leaves.flatMap fun l =>
     [fact 10 l.member, fact 11 ((moveOwner (toRelative r) l.value).toNat / 2 ^ 32), fact 12 (l.value.toNat % 2 ^ 32)] else [])

def crewRecs (r : Region) (n : Nat) (c : Crew) : List Rec :=
  let body := leBytes 1 n ++ leBytes 1 c.gen.toNat ++ leBytes 1 (b2n c.pkg) ++ leBytes 1 (if c.pkg then 0 else r.dieIx c.die) ++
    leBytes 4 c.members.length ++ leBytes 4 c.quorum ++ leBytes 4 c.joins ++ leBytes 2 c.all.length ++ leBytes 2 c.nextRound ++
    leBytes 12 0 ++
    (c.members.flatMap fun m => leBytes 2 m.index ++ leBytes 1 m.tag.ctx.toNat ++ leBytes 1 (b2n !m.owed.isEmpty) ++
      leBytes 2 m.tag.col.toNat ++ leBytes 2 0) ++
    c.all.flatMap (roundBytes r.frozenAt)
  plainRec 10 body :: (c.all.flatMap fun x => roundFacts r n x ++ x.packets.map (packetRec r n x)) ++
    (c.members.flatMap fun m => m.owed.map fun no => factRec n no 13 m.index) ++
    (c.kept.flatMap fun k => k.2.map fun no => factRec n no 14 k.1) ++ (if c.freeing then [factRec n 0 15 0] else [])

/-! ### Lines and accumulators -/

/-- Pool lines that a tile token names in a cluster. -/
def poolRun (c : Nat) (t : Tok) : List (Nat × Nat × Nat) :=
  let h := handleOf t.payload
  if isTile t && h.res == 0 then [(c, h.base, h.lines)] else []

/-- Pool lines that a frame's words name as handles: f0 to f6 of a colour, where such a tile is there to be read (R123). -/
def frameRuns (s : State) (h : Nat) (c : Colour) : List (Nat × Nat × Nat) :=
  c.f.toList.filterMap fun w =>
    let x := handleOf w
    if x.res == 0 && handleOk s h x && linesAre s h x == .ready then some (h, x.base, x.lines) else none

/-- Pool lines that LINES holds: those that handles of MATCH, of CAPTURED records without data, of FRAMES, of spawn records,
of held firings, of sink rings, splice entries and leaf tiles name (R123, R125; notes/assumptions/19.md). -/
def namedRuns (s : State) (rid : Nat) : List (Nat × Nat × Nat) :=
  let r := getRegion s rid
  let cells := (matchedCells s rid).flatMap fun x => poolRun x.1 x.2.2.2
  let caps := ((capturedToks s rid).filter fun x => x.2.data.isNone).flatMap fun x => poolRun x.1 x.2.tok
  let spawns := r.ctxs.flatMap fun e => match homeOf s r e.1 with
    | none => []
    | some h => (e.2.live.map Colour.line ++ e.2.waiting.map Waiting.line).flatMap fun l =>
        (carriedOf s (spAddr h (128 * l))).flatMap fun y => poolRun h y.1
  let frames := r.ctxs.flatMap fun e => match homeOf s r e.1 with
    | none => []
    | some h => e.2.live.flatMap (frameRuns s h)
  let firings := (s.clusters.flatMap fun e => (sentries e.2 rid).filterMap fun y => match y.2 with
      | .inl x => some x.2.firing
      | .inr _ => none) ++
    s.ports.flatMap fun e => (portFirings e.2 rid).map fun y => y.2.2.firing
  let leaves := s.plumb.crews.flatMap fun e => if e.2.region ≠ rid then [] else e.2.all.flatMap fun x =>
    if x.kind = .tileReduction then (x.leaves.map Leaf.value ++ x.packets.map RPacket.value).flatMap fun v =>
      poolRun x.cluster { Tok.none with kind := .tile, payload := v } else []
  (cells ++ caps ++ frames ++ spawns ++ (firings.flatMap fun f => f.toks.flatMap (poolRun f.cluster)) ++ leaves).eraseDups

def lineRec (s : State) (r : Region) (c first n kind : Nat) : Rec :=
  let ls := (List.range n).map fun i => getLine s c (first + i)
  let body := sound (placeBytes r c ++ leBytes 2 first ++ leBytes 2 n ++ leBytes 2 kind ++ leBytes 6 0) ++
    padTo 8 (sound (ls.flatMap fun l => leBytes 1 (16 * b2n l.full + l.gen.toNat)))
  { type := 6, bytes := body ++ payloadBytes (readLines s c first n).2 }

/-- Granule marks of lines that are not full: records of the annex (08 R254; notes/assumptions/19.md). -/
def markRecs (s : State) (r : Region) (c first n : Nat) : List Rec :=
  (List.range n).filterMap fun i =>
    let l := getLine s c (first + i)
    if l.full || l.written = 0 then none
    else some (plainRec 0x80000002 (placeBytes r c ++ leBytes 2 (first + i) ++ leBytes 1 l.written.toNat ++ leBytes 1 0))

def lineRecs (s : State) (rid : Nat) (cs : List Nat) : List Rec :=
  let r := getRegion s rid
  let named := namedRuns s rid
  cs.flatMap fun c =>
    ((getCluster s c).pinned.flatMap fun p => lineRec s r c p.first p.len 1 :: markRecs s r c p.first p.len) ++
    (named.filter fun x => x.1 == c).flatMap fun x => lineRec s r c x.2.1 x.2.2 0 :: markRecs s r c x.2.1 x.2.2

def metaOf (b : Binding) : Word := match b with | .sparse _ d => d | _ => 0
def valuesOf (b : Binding) : Word := match b with | .unbound => 0 | .dense h => h | .sparse v _ => v
def bindBits (b : Binding) : Nat := match b with | .unbound => 0 | .dense _ => 1 | .sparse .. => 3

/-- The MACC record of a cluster that holds a class-2 node (07 R249). -/
def maccRecs (s : State) (r : Region) (c : Nat) : List Rec :=
  let k := getCluster s c
  if !holdsClass k 2 then []
  else
    let rel (b : Binding) : Nat := if b = .unbound then 0 else (moveOwner (toRelative r) (valuesOf b)).toNat
    let head := placeBytes r c ++ leBytes 1 (bindBits k.w0 + 4 * bindBits k.w1) ++ leBytes 1 (handleOf (metaOf k.w0)).gen ++
      leBytes 1 (handleOf (metaOf k.w1)).gen ++ leBytes 1 0 ++ leBytes 8 (rel k.w0) ++ leBytes 8 (rel k.w1) ++
      leBytes 2 (handleOf (metaOf k.w0)).base ++ leBytes 2 (handleOf (metaOf k.w1)).base ++ leBytes 4 0
    let elem (i : Nat) : Bytes :=
      (leBytes 4 (Tab.get 0 k.acc i).toNat).map fun b => (b, Tab.get false k.accBad (i / 2 * 2))
    [{ type := 11, bytes := sound head ++ (List.range 8192).flatMap elem }]

/-! ### What else the annex holds (R125; notes/assumptions/19.md) -/

/-- Marks of a slot (01 R38), the colours that have fired at it, the age of its waiting packet (05 R168), and its count of
sink tokens (11 R375). -/
def slotRecs (s : State) (r : Region) (c : Nat) : List Rec :=
  let k := getCluster s c
  (k.slots.flatMap fun e =>
    let x := e.2
    let at_ := placeBytes r c ++ leBytes 2 e.1
    let marks := b2n x.bad + 2 * b2n x.broken + 4 * b2n x.opwr + 8 * b2n x.foreign
    (if marks = 0 ∧ x.last = 0 then [] else [plainRec 0x80000008 (at_ ++ leBytes 1 marks ++ leBytes 1 x.last.toNat)]) ++
    (x.fired.map fun t => plainRec 0x80000009 (at_ ++ leBytes 2 0 ++ leBytes 4 (tagBits t .scalar Flag.none) ++ leBytes 4 0)) ++
    (if x.waiting.isSome then [plainRec 0x8000000D (at_ ++ leBytes 2 (b2n x.blocked) ++ leBytes 8 (r.frozenAt - x.since))] else [])) ++
  k.sunk.map fun e => plainRec 0x8000000E (placeBytes r c ++ leBytes 2 e.1 ++ leBytes 2 0 ++ leBytes 8 e.2)

/-- Sink tokens in the ring, entries of a splice load still to inject, and strands that CMPX has purged. -/
def regionRecs (r : Region) : List Rec :=
  (r.sinks.map fun t => plainRec 0x80000006 (tokBytes r t)) ++
  (match r.splice with
  | none => []
  | some x => x.entries.map fun t => plainRec 0x80000007 (placeBytes r x.cluster ++ leBytes 4 0 ++ tokBytes r t)) ++
  r.twinPurges.map fun p => plainRec 0x8000000C (leBytes 1 p.1.toNat ++ leBytes 1 0 ++ leBytes 2 p.2.1.toNat ++ leBytes 4 0 ++
    leBytes 8 p.2.2.toNat)

/-- Packets in the logs of the region's crews. -/
def logRecs (s : State) (rid : Nat) : List Rec :=
  (s.plumb.logs.filter fun l => (getCrew s l.crew).used && (getCrew s l.crew).region == rid && (getRegion s rid).dies.contains (some l.die)).map (logRec (getRegion s rid))

/-! ### The sheet -/

/-- Number records of a kind as they are made over a list of places. -/
def numbered (f : Nat → Nat → List Rec × Nat) : List Nat → Nat → List Rec
  | [], _ => []
  | x :: l, n =>
    let (rs, n) := f x n
    rs ++ numbered f l n

def sheetRecs (s : State) (rid : Nat) : List Rec :=
  let r := getRegion s rid
  let cs := regionClusters s r
  (cs.flatMap (opRecs s r)) ++ ctxRecs s r ++ (matchedCells s rid).map (matchRec r) ++ (capturedToks s rid).map (captureRec r) ++
  lineRecs s rid cs ++ numbered (stencilRecs s rid) cs 0 ++
  numbered (portRecs s rid) (r.dies.flatMap fun d => match d with
    | some d => (List.range 16).map fun p => 16 * d + p
    | none => []) 0 ++
  (cs.flatMap (slotRecs s r)) ++ regionRecs r ++ logRecs s rid ++
  waiterRecs s rid ++ (s.plumb.crews.flatMap fun e => if e.2.used && e.2.region == rid then crewRecs r e.1 e.2 else []) ++
  (cs.flatMap (maccRecs s r)) ++
  (List.range (r.scratch.length / 12)).map fun i => plainRec 12 ((r.scratch.drop (12 * i)).take 12)

/-- The sections of R123, and the kinds of records of the annex. -/
def sectTypes : List Nat := [1, 2, 3, 4, 5, 6, 7, 8, 9, 10, 11, 12, 13]
def annexTypes : List Nat := (List.range 16).map fun i => 0x80000001 + i

/-- The sections of some types that hold records, in order, and their counts; each begins on a granule. -/
def sheetSections (types : List Nat) (rs : List Rec) : List (Nat × Nat × Bytes) :=
  types.filterMap fun t =>
    let mine := rs.filter fun x => x.type == t
    if mine.isEmpty then none else some (t, mine.length, padTo 32 (mine.flatMap Rec.bytes))

/-- The table entries of consecutive sections from an offset. -/
def tableBytes : Nat → List (Nat × Nat × Bytes) → List Byte
  | _, [] => []
  | o, (t, n, b) :: l => leBytes 4 t ++ leBytes 4 o ++ leBytes 4 b.length ++ leBytes 4 n ++ tableBytes (o + b.length) l

def annexMagic : Nat := 0x58454E4E41

/-- The annex: what RESTORE needs and no section of R123 has a place for. It lies between the section table and the first
section: a magic word, a count, a table as the section table is, from the annex's own start, and its records
(notes/assumptions/19.md). -/
def annexBytes (rs : List Rec) : Bytes :=
  let ss := sheetSections annexTypes rs
  if ss.isEmpty then []
  else
    let start := (16 + 16 * ss.length + 31) / 32 * 32
    padTo 32 (sound (leBytes 8 annexMagic ++ leBytes 8 ss.length ++ tableBytes start ss)) ++ ss.flatMap fun x => x.2.2

/-- The die map of a sheet (R123, 01 R32). -/
def dieMap (s : State) (rid : Nat) : List Byte := (List.range 8).flatMap fun i => leBytes 8 (spanEntry s rid i).toNat

/-- A rectangle's own entry; SPANMAP itself shows whole dies only. -/
def sheetDieMap (s : State) (rid : Nat) : List Byte :=
  let r := getRegion s rid
  if r.whole then dieMap s rid
  else leBytes 8 (2 ^ 63 + rid * 2 ^ 56 + ownPackage * 16 + bits r.handle 54 52) ++ leBytes 56 0

def sheetOf (s : State) (rid : Nat) : Bytes :=
  let r := getRegion s rid
  let rs := sheetRecs s rid
  let ss := sheetSections sectTypes rs
  let annex := annexBytes rs
  let start := (128 + 16 * ss.length + 31) / 32 * 32 + annex.length
  let rest := padTo 32 (sound (tableBytes start ss)) ++ annex ++ ss.flatMap fun x => x.2.2
  let head := leBytes 4 0x54535544 ++ leBytes 2 1 ++ leBytes 2 ss.length ++ leBytes 8 (shapeWord r).toNat ++
    leBytes 8 r.frozenAt ++ leBytes 4 r.hsinks.toNat ++ leBytes 4 (crc32 (rest.map Prod.fst)).toNat ++ sheetDieMap s rid ++
    leBytes 32 0
  sound head ++ rest

end Sys2Proof.Machine
end

