-- ==== Sys2Proof/Machine/Restore.lean ====
section
/-! DEFINITION. Dust sheets as RESTORE reads them: the checks of R124 and what each section puts back (04 R124; 05 R150,
R152, R159, R168; 07 R249; 08 R283, R284; 09 R290, R316, R317; 10 R345; 11 R381, R383). -/

namespace Sys2Proof.Machine

/-! ### Cutting a sheet into records -/

structure SheetSect where
  type : Nat
  recs : List Bytes
  deriving DecidableEq, Repr

/-- Bytes of the rounds that follow a crew record's members. -/
def roundsSize : Nat → List Byte → Nat
  | 0, _ => 0
  | n + 1, b =>
    let w := natAt b 12 4
    let k := 32 + (w + 63) / 64 * 8 + if natAt b 0 1 = 3 then 8 * w else 0
    k + roundsSize n (b.drop k)

/-- Bytes of the record that some bytes begin with; 0 for a type that has none. -/
def recSize (t : Nat) (b : List Byte) : Nat :=
  match t with
  | 1 => 24 | 2 => 32 | 3 => 96 | 4 => 24 | 9 => 32 | 11 => 32800 | 12 => 12 | 13 => 8
  | 5 => 24 + if natAt b 4 1 = 1 then 128 * handleLines (word (natAt b 16 8)) else 0
  | 6 => 16 + (natAt b 6 2 + 7) / 8 * 8 + 128 * natAt b 6 2
  | 7 => 16 + 32 * 144 + 48 * natAt b 8 2
  | 8 => 32 + 16 * natAt b 4 2 + 64 * natAt b 6 2
  | 10 => 32 + 8 * natAt b 4 4 + roundsSize (natAt b 16 2) (b.drop (32 + 8 * natAt b 4 4))
  | 0x80000001 => 24 | 0x80000002 => 8 | 0x80000003 => 40 | 0x80000004 => 8 | 0x80000005 => 8 | 0x80000006 => 16
  | 0x80000007 => 24 | 0x80000008 => 8 | 0x80000009 => 16 | 0x8000000A => 16 | 0x8000000B => 24 | 0x8000000C => 16
  | 0x8000000D => 16 | 0x8000000E => 16 | 0x8000000F => 40 | 0x80000010 => 32
  | _ => 0

/-- The first n records of a section; none where its bytes end first. -/
def cutRecs (t : Nat) : Nat → Bytes → Option (List Bytes)
  | 0, _ => some []
  | n + 1, b =>
    let k := recSize t (b.map Prod.fst)
    if b.length < k then none else (cutRecs t n (b.drop k)).map fun l => b.take k :: l

/-- A section that RESTORE takes: a listed TYPE, as long as its records, or one that it skips. -/
def cutSect (bs : Bytes) (e : Nat × Nat × Nat × Nat) : Option SheetSect :=
  let b := (bs.drop e.2.1).take e.2.2.1
  if sectTypes.contains e.1 then (cutRecs e.1 e.2.2.2 b).map fun l => { type := e.1, recs := l }
  else if 2 ^ 31 ≤ e.1 then some { type := e.1, recs := [] } else none

def allSome {α : Type} : List (Option α) → Option (List α)
  | [] => some []
  | none :: _ => none
  | some a :: l => (allSome l).map fun t => a :: t

/-- The annex of a sheet, where SCAN put one: it lies below every section. A sheet without it has none of what it holds
(notes/assumptions/19.md). -/
def annexOf (bs : Bytes) (tab : List (Nat × Nat × Nat × Nat)) : List SheetSect :=
  let start := (128 + 16 * tab.length + 31) / 32 * 32
  let a := bs.drop start
  let h := (a.take 16).map Prod.fst
  if natAt h 0 8 ≠ annexMagic then []
  else
    let own := sectTable ((a.drop 16).map Prod.fst) (min 16 (natAt h 8 8))
    if tab.any fun e => decide (e.2.1 < start + extentOf 16 own) then []
    else (allSome (own.map fun e =>
      (cutRecs e.1 e.2.2.2 ((a.drop e.2.1).take e.2.2.1)).map fun l => { type := e.1, recs := l : SheetSect })).getD []

/-- The sections of a sheet and its annex, or LOAD_BADIMG. -/
def parseSheet (bs : Bytes) : Option (List SheetSect) :=
  let b := bs.map Prod.fst
  let tab := sectTable (b.drop 128) (natAt b 6 2)
  if natAt b 0 4 ≠ 0x54535544 ∨ natAt b 4 2 ≠ 1 ∨ crc32 (b.drop 128) ≠ BitVec.ofNat 32 (natAt b 28 4) then none
  else if !(tab.all fun e => decide (e.2.1 + e.2.2.1 ≤ bs.length)) then none
  else (allSome (tab.map (cutSect bs))).map fun l => l ++ annexOf bs tab

/-- The records of a type, without and with poison. -/
def sheetBytes (l : List SheetSect) (t : Nat) : List Bytes := (l.filter fun x => x.type == t).flatMap SheetSect.recs
def sheetRows (l : List SheetSect) (t : Nat) : List (List Byte) := (sheetBytes l t).map fun b => b.map Prod.fst

/-- Poison that a sheet may carry: line data and accumulators. -/
def carriesPoison (l : List SheetSect) : Bool :=
  l.any fun x => !([5, 6, 11].contains x.type) && x.recs.any fun b => b.any Prod.snd

/-! ### Refusals (R124) -/

/-- Die index and relative cluster that a record of a type names. -/
def recPlace (t : Nat) (b : List Byte) : Option (Nat × Nat) :=
  match t with
  | 1 | 4 | 5 | 6 | 7 | 11 | 12 => some (natAt b 0 1, natAt b 2 2)
  | 2 => some (natAt b 1 1, natAt b 2 2)
  | 9 => let d := dstOf (natAt b 8 4); some (d.die.toNat, d.cluster.toNat)
  | _ => none

def recPlaced (s : State) (r : Region) (t : Nat) (b : List Byte) : Bool :=
  match recPlace t b with
  | none => true
  | some x => placeOk s r x.1 x.2

/-- The port of a PORTS record, where the region owns it (09 R290). -/
def recPort (s : State) (rid : Nat) (r : Region) (b : List Byte) : Option Nat :=
  match r.dies.getD (natAt b 0 1) none with
  | none => none
  | some d =>
    let p := 16 * d + natAt b 1 1 % 16
    if (getPort s p).en && (getPort s p).owner.toNat == rid then some p else none

/-- The crew's number is free and its next GEN is the recorded one, so that its handles stay valid (11 R383). -/
def crewFits (s : State) (b : List Byte) : Bool := !(getCrew s (natAt b 0 1)).used

def sheetPlaced (s : State) (rid : Nat) (l : List SheetSect) : Bool :=
  let r := getRegion s rid
  (l.all fun x => x.recs.all fun b => recPlaced s r x.type (b.map Prod.fst)) &&
  ((sheetRows l 1).all fun b => natAt b 6 2 % 4 == 1 || portOwned s rid r (opRecOf b).word) &&
  ((sheetRows l 8).all fun b => (recPort s rid r b).isSome) && (sheetRows l 10).all (crewFits s)

/-! ### Contexts, lines and operators -/

def optTag (v : Nat) : Option Tag :=
  if v.testBit 63 then
    some { ctx := BitVec.ofNat 8 (v / 2 ^ 24), col := BitVec.ofNat 12 (v / 2 ^ 12), gen := BitVec.ofNat 4 (v / 2 ^ 8) }
  else none

def tagOf (v : Nat) : Tag :=
  { ctx := BitVec.ofNat 8 (v / 2 ^ 24), col := BitVec.ofNat 12 (v / 2 ^ 12), gen := BitVec.ofNat 4 (v / 2 ^ 8) }

def sheetCtx (r : Region) (l : List SheetSect) (b : List Byte) : Ctx :=
  let n := natAt b 0 1
  { Ctx.none with
    declared := true, die := natAt b 1 1, home := (r.absolute (natAt b 2 2)).getD 0, window := natAt b 4 2,
    maxtile := natAt b 6 2, ptr := BitVec.ofNat 12 (natAt b 8 2), gen := BitVec.ofNat 4 (natAt b 12 1),
    quarantine := ((sheetRows l 13).filter fun q => natAt q 0 1 == n).map fun q => (BitVec.ofNat 12 (natAt q 2 2), natAt q 4 4),
    waiting := ((sheetRows l 0x80000001).filter fun w => natAt w 0 1 == n && natAt w 1 1 == 1).map fun w =>
      { line := natAt w 4 4, parent := optTag (natAt w 16 8), rmode := BitVec.ofNat 3 (natAt w 8 1) } }

/-- The spawn line of a colour: from the annex, or the first line of the area that records its key. -/
def sheetLine (s : State) (r : Region) (l : List SheetSect) (n col key : Nat) : Nat × Option (BitVec 3) :=
  match (sheetRows l 0x80000001).find? fun w => natAt w 0 1 == n && natAt w 1 1 == 0 && natAt w 2 2 == col with
  | some w => (natAt w 4 4, some (BitVec.ofNat 3 (natAt w 9 1)))
  | none =>
    match homeOf s r n with
    | none => (0, none)
    | some h => match (getCluster s h).spawn with
      | none => (0, none)
      | some a =>
        (((List.range a.len).map (a.first + ·)).find? (fun i => peek s (spAddr h (128 * i) + 12) 2 == key) |>.getD a.first, none)

def sheetColour (s : State) (r : Region) (l : List SheetSect) (b : List Byte) : Colour :=
  let n := natAt b 0 1
  let st := natAt b 72 8
  let sc := natAt b 80 2
  let mate := (sheetRows l 3).find? fun x => natAt x 0 1 == n && natAt x 2 2 == sc % 4096
  let line := sheetLine s r l n (natAt b 2 2) (natAt b 4 2)
  let mode : BitVec 3 := BitVec.ofNat 3 (st / 256)
  { col := BitVec.ofNat 12 (natAt b 2 2), gen := BitVec.ofNat 4 (natAt b 1 1), key := BitVec.ofNat 12 (natAt b 4 2),
    parent := optTag (natAt b 8 8), f := Vector.ofFn fun (i : Fin 7) => word (natAt b (16 + 8 * i.val) 8),
    flags := BitVec.ofNat 6 st, rmode := mode, rmode0 := line.2.getD mode, irrev := st.testBit 11,
    succ := if sc.testBit 15 then
        some { ctx := BitVec.ofNat 8 n, col := BitVec.ofNat 12 sc,
               gen := BitVec.ofNat 4 ((mate.map fun x => natAt x 1 1).getD (getCtx r n).gen.toNat) }
      else none,
    count := natAt b 82 1, exits := (natAt b 83 1).testBit 0, nexts := (natAt b 83 1).testBit 1, line := line.1 }

/-- The live colours of a context, oldest first. -/
def sheetLive (s : State) (r : Region) (l : List SheetSect) (b : List Byte) : List Colour :=
  let mine := ((sheetRows l 3).filter fun x => natAt x 0 1 == natAt b 0 1).map (sheetColour s r l)
  sortBy (fun c => (c.col - BitVec.ofNat 12 (natAt b 10 2)).toNat) mine

def putCtxs (s : State) (rid : Nat) (l : List SheetSect) : State :=
  modRegion s rid fun r => (sheetRows l 2).foldl (fun r b => setCtx r (natAt b 0 1) (sheetCtx r l b)) r

def putColours (s : State) (rid : Nat) (l : List SheetSect) : State :=
  modRegion s rid fun r => (sheetRows l 2).foldl (fun r b =>
    setCtx r (natAt b 0 1) { getCtx r (natAt b 0 1) with live := sheetLive s r l b }) r

/-- Line data as a payload: a word is poisoned that any of its bytes reads as poisoned in. -/
def payloadFrom (b : Bytes) : Payload :=
  { bytes := b.map Prod.fst,
    bad := ((List.range (b.length / 8)).filter fun i => ((b.drop (8 * i)).take 8).any Prod.snd).map (8 * ·) }

/-- A LINES record: bytes, full bits and generations; a pool run is an allocation again (05 R150). -/
def putLines (s : State) (r : Region) (b : Bytes) : State :=
  let h := (b.take 16).map Prod.fst
  match recCluster s r (natAt h 0 1) (natAt h 2 2) with
  | none => s
  | some c =>
    let first := natAt h 4 2
    let n := natAt h 6 2
    let s := writeLines s c first (payloadFrom (b.drop (16 + (n + 7) / 8 * 8)))
    let st := ((b.drop 16).take n).map fun x => x.1.toNat
    let s := (List.range n).foldl (fun s i =>
      let v := st.getD i 0
      setLine s c (first + i) { full := v.testBit 4, gen := BitVec.ofNat 4 v, written := if v.testBit 4 then 0xF else 0 }) s
    if natAt h 8 2 = 0 then
      modCluster s c fun k =>
        let owner := (k.reserved.find? fun x => x.holds first n).bind Run.ctx
        if k.allocs.any fun a => a.holds first n then k
        else
          let apart := k.allocs.filter fun a => !(decide (first ≤ a.first) && decide (a.first + a.len ≤ first + n))
          { k with allocs := apart ++ [{ first := first, len := n, ctx := owner }] }
    else s

def putMarks (s : State) (r : Region) (b : List Byte) : State :=
  match recCluster s r (natAt b 0 1) (natAt b 2 2) with
  | none => s
  | some c => setLine s c (natAt b 4 2) { getLine s c (natAt b 4 2) with written := BitVec.ofNat 4 (natAt b 6 1) }

/-- OPS records: operators and route words, and packets that wait again (05 R168). -/
def putOps (s : State) (r : Region) (all : List OpRec) : State :=
  let base := all.filter fun x => x.kind % 4 != 2
  let wait := (all.filter fun x => x.kind % 4 == 2).map fun x => { x with kind := x.kind - 2 }
  let s := base.foldl (fun s x => match recCluster s r x.die x.cl with
    | none => s
    | some c => installConfig s c (BitVec.ofNat 11 x.slot) (recConfig r base x)) s
  wait.foldl (fun s x => match recCluster s r x.die x.cl with
    | none => s
    | some c =>
      let before := wait ++ base
      let x' := if routeRwi before x = 0 then x else { x with kind := 1 }
      setSlot s c (BitVec.ofNat 11 x.slot)
        { getSlot s c (BitVec.ofNat 11 x.slot) with waiting := some (recConfig r before x'), since := s.htime, blocked := false }) s

/-! ### Tokens -/

/-- Put one matched token back as its arrival would: into the oldest entry whose cell is empty, or a new one. -/
def putCell (s : State) (rid : Nat) (r : Region) (b : List Byte) : State :=
  match recCluster s r (natAt b 0 1) (natAt b 2 2) with
  | none => s
  | some c =>
    let t := moveTok (toAbsolute r) (tokRecOf (b.drop 8))
    let t := { t with dst := { t.dst with port := BitVec.ofNat 2 (natAt b 6 1), slot := BitVec.ofNat 11 (natAt b 4 2) } }
    let a : Arrival := { region := rid, src := c, tok := t, data := none }
    match matchEntry (getCluster s c) a with
    | some i => joinEntry s c i a
    | none => openEntry s c a ((newPlace s c a).getD .bypass)

def putCaptured (s : State) (rid : Nat) (r : Region) (b : Bytes) : State :=
  let h := b.map Prod.fst
  match recCluster s r (natAt h 0 1) (natAt h 2 2) with
  | none => s
  | some c =>
    let t := moveTok (toAbsolute r) (tokRecOf (h.drop 8))
    let a : Arrival := { region := rid, src := c, tok := t, data := if natAt h 4 1 = 1 then some (payloadFrom (b.drop 24)) else none }
    modCluster s c fun k => { k with capture := k.capture ++ [a] }

/-! ### Firings that engines held -/

/-- What the annex says of a firing. -/
def heldOf (l : List SheetSect) (sect ord : Nat) : Option (List Byte) :=
  (sheetRows l 0x80000003).find? fun h => natAt h 0 1 == sect && natAt h 2 2 == ord

def heldFail (h : Option (List Byte)) : Option (Nat × BitVec 8) :=
  h.bind fun h => if (natAt h 1 1).testBit 1 then some (natAt h 8 4, BitVec.ofNat 8 (natAt h 4 1)) else none

def heldNat (h : Option (List Byte)) (o d : Nat) : Nat := (h.map fun h => natAt h o 4).getD d
def heldTag (h : Option (List Byte)) (t : Tag) : Tag := (h.map fun h => tagOf (natAt h 16 4)).getD t

/-- The operands of a held firing from their payloads: kinds and flags from the annex, else a scalar on port 0
and tiles on the others. -/
def heldToks (r : Region) (h : Option (List Byte)) (n : Nat) (tag : Tag) (ps : List Nat) : List Tok :=
  (List.range (heldNat h 36 n)).map fun i =>
    let k := match h with
      | some h => natAt h (32 + i) 1
      | none => if i = 0 then 0 else 32
    let t : Tok := { dst := Dst.none, tag := tag, kind := kindOfCode (k / 32), flag := flagOf k, payload := word (ps.getD i 0) }
    { t with payload := movePayload (toAbsolute r) t }

/-- The firing of a node in cluster c with given operands. -/
def nodeFiring (s : State) (rid c : Nat) (slot : BitVec 11) (tag : Tag) (toks : List Tok) : Firing :=
  let w := (getSlot s c slot).word
  { region := rid, cluster := c, slot := slot, tag := tag, toks := toks, word := w, route := nextWord s c slot,
    rmode := modeOf (getRegion s rid) tag, stale := false, agent := 0 }

/-! ### Stencil queues -/

def putSlots (s : State) (c : Nat) (b : List Byte) : State :=
  (List.range 32).foldl (fun s i =>
    let x := b.drop (16 + 144 * i)
    let link := natAt x 128 1
    setSten s c i { desc := if (natAt b 4 4).testBit i then some (x.take 128) else none,
                    link := if link.testBit 7 then some (link % 32) else none, cursor := BitVec.ofNat 32 (natAt x 132 4) }) s

/-- A flat address of the annex under the region's own clusters. -/
def absFlat (r : Region) (v : Nat) : Nat :=
  if v.testBit 63 then
    match r.dies.getD (v / 2 ^ 32 % 8) none, r.absolute (v / 2 ^ 21 % 512) with
    | some d, some c => spAddr (clusterKey d c) (v % 2 ^ 21)
    | _, _ => v
  else v

/-- The facts that the annex holds of a copy: kind and three numbers. -/
def copyFacts (l : List SheetSect) (ord : Nat) : List (Nat × Nat × Nat × Nat) :=
  ((sheetRows l 0x80000010).filter fun a => natAt a 0 4 == ord).map fun a =>
    (natAt a 4 1, natAt a 8 8, natAt a 16 8, natAt a 24 8)

/-- Put back what the annex holds of a copy. -/
def putCopy (r : Region) (facts : List (Nat × Nat × Nat × Nat)) (a : List Byte) (x : SFiring) : SFiring :=
  let fl := natAt a 4 1
  let line (v : Nat) : Nat := let f := absFlat r v - 2 ^ 47; f / 2 ^ 21 * 2 ^ 14 + f % 2 ^ 21 / 128
  { x with
    error := if fl.testBit 1 then some (word (natAt a 16 8)) else none, begun := fl.testBit 2,
    tile := if fl.testBit 3 then some (moveOwner (toAbsolute r) (word (natAt a 24 8)), natAt a 32 8) else none,
    bad := fl.testBit 4, tileFail := if fl.testBit 5 then some (natAt a 8 4, BitVec.ofNat 8 (natAt a 6 1)) else none,
    failNext := if fl.testBit 6 then some (BitVec.ofNat 8 (natAt a 5 1)) else none, tiled := fl.testBit 7,
    marked := (facts.filter fun e => e.1 == 0).map fun e => (line e.2.1, BitVec.ofNat 4 e.2.2.1),
    wrote := (facts.filter fun e => e.1 == 1).map fun e => (absFlat r e.2.1, e.2.2.2, e.2.2.1),
    filled := (facts.filter fun e => e.1 == 2).map fun e => (e.2.1, e.2.2.1 + 2 ^ 64 * e.2.2.2) }

/-- A sheet without an annex: the elements performed mark their rows again. -/
def remark (s : State) (x : SFiring) : State × SFiring :=
  if x.tiled then (s, x)
  else (List.range x.next).foldl (fun (a : State × SFiring) e => markTile a.1 a.2 e) (s, x)

/-- A stream's pool lines are not in the sheet: its tile step starts again. A ring's step goes on in the slot it took. -/
def resumeTile (s : State) (x : SFiring) : SFiring :=
  let c := x.firing.cluster
  match if sOpc x = 0x02 then armed s c x.slot else none with
  | none => x
  | some t =>
    if t.dkind = 2 then
      let start := (x.tile.map fun e => e.2 - t.tileSize).getD (x.next - x.next % max 1 t.tileSize)
      { x with next := start, tile := none, bad := false, tileFail := none, filled := [] }
    else if t.dkind = 3 ∧ x.tile = none ∧ x.next % max 1 t.tileSize ≠ 0 then
      let base := ringLines t (((getSten s c x.slot).cursor - 1).toNat % max 1 t.rdepth)
      { x with tile := some (stepHandle x t base (getLine s c base).gen.toNat 1, x.next - x.next % max 1 t.tileSize + t.tileSize) }
    else x

def putSFiring (s : State) (rid : Nat) (r : Region) (l : List SheetSect) (c ord : Nat) (b : List Byte) : State :=
  let h := heldOf l 7 ord
  let tag := tagOf (natAt b 40 4)
  let k := getCluster s c
  let no := heldNat h 20 k.accepted
  let s := setCluster s c { k with accepted := max k.accepted (no + 1) }
  let slot := BitVec.ofNat 11 (natAt b 4 2)
  let f := nodeFiring s rid c slot tag
    (heldToks r h (wordPorts (getSlot s c slot).word) tag [natAt b 16 8, natAt b 24 8, natAt b 32 8])
  let next := natAt b 8 4
  let x : SFiring :=
    { newSFiring k f (natAt b 1 1) with
      no := no, next := next, marks := natAt b 12 4, done := heldNat h 12 next, bytes := heldNat h 24 0,
      tiles := heldNat h 28 0, fail := heldFail h, cancelled := (natAt b 3 1).testBit 7,
      shaken := (h.map fun h => (natAt h 1 1).testBit 0).getD false, error := fireError s f }
  let state := natAt b 3 1
  let own := (sheetRows l 0x8000000F).find? fun a => natAt a 0 4 == ord
  let left := state.testBit 7 && !state.testBit 0 || ((own.map fun a => (natAt a 4 1).testBit 0).getD false)
  let (s, x) := match own with
    | some a => (s, putCopy r (copyFacts l ord) a x)
    | none => remark s { x with tiled := tilesNow s x }
  let x := resumeTile s x
  let q := natAt b 0 1 % 4
  let y := getSQueue s c q
  if left then modCluster s c fun k => { k with finishing := k.finishing ++ [(q, { x with tiled := x.tiled || tilesNow s x })] }
  else if state.testBit 0 && y.issued.isNone then setSQueue s c q { y with issued := some x }
  else setSQueue s c q { y with pending := y.pending ++ [x] }

/-- An SORDER note: its noted entries by place among the record's firings. -/
def putNote (s : State) (rid : Nat) (l : List SheetSect) (c first ord : Nat) (b : List Byte) : State :=
  let k := getCluster s c
  let v := natAt b 16 8
  let noted := ((List.range 56).filter fun i => v.testBit (8 + i)).map fun i => heldNat (heldOf l 7 (first + i)) 20 i
  let no := heldNat (heldOf l 7 ord) 20 k.accepted
  setCluster s c { k with accepted := max k.accepted (no + 1),
                          notes := k.notes ++ [{ no := no, onto := BitVec.ofNat 4 (v / 16), noted := noted, region := rid,
                                                 slot := BitVec.ofNat 11 (natAt b 4 2), tag := tagOf (natAt b 40 4) }] }

/-- The STENCIL records in order, counting their firing entries. -/
def putStencils (rid : Nat) (r : Region) (l : List SheetSect) : List (List Byte) → Nat → State → State
  | [], _, s => s
  | b :: rest, ord, s =>
    let n := natAt b 8 2
    match recCluster s r (natAt b 0 1) (natAt b 2 2) with
    | none => putStencils rid r l rest (ord + n) s
    | some c =>
      let s := putSlots s c b
      let s := (List.range n).foldl (fun s i =>
        let e := (b.drop (16 + 32 * 144 + 48 * i)).take 48
        if natAt e 2 1 = 8 then putNote s rid l c ord (ord + i) e else putSFiring s rid r l c (ord + i) e) s
      putStencils rid r l rest (ord + n) s

/-! ### Memory ports -/

/-- Form a class-4 firing's elements again: what its issue hands to its port (09 R288). -/
def portIssue (o : Op) (opc : Nat) (s : State) : State :=
  outcomeState s (match opc with
    | 0x00 => execLd o s | 0x01 => execSt o s | 0x02 => execLdi o s | 0x03 => execSti o s | 0x04 => execLds o s
    | 0x05 => execSts o s | 0x06 => execPortLdw o s | 0x07 => execPortStw o s | 0x08 => execPref o s
    | 0x0A => execMstart o s | 0x0B => execMmode o s | _ => .next s)

/-- The elements that a firing hands to port p: its issue under XFM keep in a machine whose port is empty. -/
def elemsOf (s : State) (p : Nat) (f : Firing) (tag : Tag) : List Elem :=
  let w := setField f.word 104 3 0
  let g := { f with word := w, tag := tag }
  let s := portIssue (opWord w) (wordOpc w) { modPort s p (fun q => { q with incoming := [] }) with firing := g }
  ((getPort s p).incoming.head?.map Job.elems).getD []

/-- A load reads its elements again; a store goes on with the next. -/
def loadsElems (opc : Nat) : Bool := [0, 2, 4, 6].contains opc

def putJob (s : State) (rid : Nat) (r : Region) (l : List SheetSect) (p ord : Nat) (b : List Byte) : State :=
  let h := heldOf l 8 ord
  let d := dstOf (natAt b 0 4)
  match (r.absolute d.cluster.toNat).bind fun c => regionCluster s r d.die.toNat c with
  | none => s
  | some c =>
    let tag := tagOf (natAt b 48 4)
    let mine := heldTag h tag
    let ps := (List.range 4).map fun i => natAt b (16 + 8 * i) 8
    let f := nodeFiring s rid c d.slot mine (heldToks r h (wordPorts (getSlot s c d.slot).word) mine ps)
    let again := loadsElems (wordOpc f.word)
    let q := getPort s p
    let no := heldNat h 20 q.accepted
    let next := natAt b 8 4
    let j : Job :=
      { no := no, firing := f, tag := tag, started := natAt b 4 1 == 1,
        elems := (elemsOf s p f tag).filter fun e => again || decide (next ≤ e.ix), got := [], fail := heldFail h,
        count := if again then 0 else natAt b 12 4, bytes := if again then 0 else heldNat h 24 0, held := none,
        handshake := (h.map fun h => (natAt h 1 1).testBit 0).getD false, ranges := none }
    let q := { q with accepted := max q.accepted (no + 1) }
    let mine := natAt b 5 1 % 8
    match natAt b 4 1, if (genJob q mine).isNone then some mine else freeGen q with
    | 1, some g => setPort s p { setGen q g (some j) with seqs := Tab.set 0 q.seqs g (Tab.get 0 q.seqs g + 1) }
    | 2, _ => setPort s p { q with waiting := q.waiting ++ [j] }
    | _, _ => setPort s p { q with queue := q.queue ++ [j] }

def putWave (rid : Nat) (b : List Byte) : Wave :=
  { region := rid, last := BitVec.ofNat 8 (natAt b 4 1), lastSucc := BitVec.ofNat 8 (natAt b 5 1),
    tag := { ctx := BitVec.ofNat 8 (natAt b 0 1), gen := BitVec.ofNat 4 (natAt b 1 1), col := BitVec.ofNat 12 (natAt b 2 2) } }

/-- The PORTS records in order, counting their firing entries. -/
def putPorts (rid : Nat) (r : Region) (l : List SheetSect) : List (List Byte) → Nat → State → State
  | [], _, s => s
  | b :: rest, ord, s =>
    let nw := natAt b 4 2
    let n := natAt b 6 2
    match recPort s rid r b with
    | none => putPorts rid r l rest (ord + n) s
    | some p =>
      let s := modPort s p fun q =>
        { q with mode := BitVec.ofNat 2 (natAt b 2 1), ahead := [], demand := natAt b 8 8, aheadTo := natAt b 8 8, waves := q.waves ++ (List.range nw).map fun i => putWave rid (b.drop (32 + 16 * i)),
                 range := if (natAt b 3 1).testBit 1 then some (word (natAt b 8 8), word (natAt b 16 8)) else none }
      let s := (List.range n).foldl (fun s i => putJob s rid r l p (ord + i) ((b.drop (32 + 16 * nw + 64 * i)).take 64)) s
      putPorts rid r l rest (ord + n) s

/-! ### Bank waiters -/

/-- Append a waiter to the list of the word at its OFFSET on the die now mapped (10 R345). -/
def putWaiter (s : State) (rid : Nat) (r : Region) (l : List SheetSect) (ord : Nat) (b : List Byte) : State :=
  let h := heldOf l 9 ord
  let d := dstOf (natAt b 8 4)
  match r.dies.getD (natAt b 0 1) none, (r.absolute d.cluster.toNat).bind fun c => regionCluster s r d.die.toNat c with
  | some die, some c =>
    let a := bankAddr die (natAt b 4 4 % 2 ^ 26)
    let tag := tagOf (natAt b 12 4)
    let f := nodeFiring s rid c d.slot tag (heldToks r h (wordPorts (getSlot s c d.slot).word) tag
      [bankWindow + natAt b 0 1 * 2 ^ 26 + natAt b 4 4, natAt b 16 8])
    let fl := natAt b 2 1
    let kind : WKind := match natAt b 1 1 with | 0 => .reader | 1 => .wait | 2 => .pusher | _ => .popper
    let w : Waiter :=
      { word := a / 8 * 8, sub := a % 8, no := heldNat h 20 0, entry := (freeEntry s (bankOf a)).getD 255, kind := kind,
        firing := f, tag := heldTag h tag, operand := word (natAt b 16 8), lim := natAt b 3 1, ext := fl.testBit 0,
        err := fl.testBit 1, eq := fl.testBit 2, raised := fl.testBit 3, waited := natAt b 24 4 }
    { s with waiters := s.waiters ++ [w] }
  | _, _ => s

/-! ### Crews -/

def factsOf (l : List SheetSect) (crew no kind : Nat) : List Nat :=
  ((sheetRows l 0x80000004).filter fun b => natAt b 0 1 == crew && natAt b 1 1 == kind && natAt b 2 2 == no).map fun b => natAt b 4 4

/-- The rounds of a crew record. -/
def sheetRounds (s : State) (r : Region) (l : List SheetSect) (crew : Nat) (members : List Nat) (frozenAt : Nat) :
    Nat → List Byte → List Round
  | 0, _ => []
  | n + 1, b =>
    let w := natAt b 12 4
    let map := (w + 63) / 64 * 8
    let k := 32 + map + if natAt b 0 1 = 3 then 8 * w else 0
    let no := natAt b 2 2
    let kind : RoundKind := match natAt b 0 1 with | 1 => .barrier | 2 => .broadcast | 3 => .reduction | _ => .tileReduction
    let red := kind == .reduction || kind == .tileReduction
    let fact := factsOf l crew no
    let known := (sheetRows l 0x80000004).any fun x => natAt x 0 1 == crew && natAt x 2 2 == no
    let bits := natAt b 32 map
    let arrived := (List.range w).filter fun i => bits.testBit i
    let v := natAt b 16 8
    let fmt := natAt b 24 4
    let leaf (i : Nat) : Leaf :=
      let tile := (fact 10).idxOf i
      let value := if kind = .tileReduction then
          moveOwner (toAbsolute r) (word ((fact 11).getD tile 0 * 2 ^ 32 + (fact 12).getD tile 0))
        else word (natAt b (32 + map + 8 * i) 8)
      { member := i, value := value, poison := (fact 3).contains i, onTime := !(fact 2).contains i }
    let evaluated := red && (if known then (fact 8).any fun x => x.testBit 0 else v == 0)
    let flags := (fact 8).headD 0
    let put (m : Option Nat) : Waits := { firing := Firing.none, member := m, late := (m.map fun i => (fact 2).contains i).getD false }
    let waits := if known then (fact 4).map fun x => put (if x = 0 then none else some (x - 1))
      else arrived.map (fun i => put (some i)) ++ (if kind = .barrier then [] else [put none])
    let tok (f : Nat) : Tok := { Tok.none with kind := kindOfCode (f / 32), flag := flagOf f, payload := word v }
    let x : Round :=
      { kind := kind, no := no, set := if known then fact 0 else members.take (natAt b 4 4), arrived := arrived, gone := fact 1,
        waits := waits, latest := s.htime, releaseAt := none, sent := (fact 9).head?.map tok, op := natAt b 1 1 % 8,
        fmt := (Fmt.ofCode (fmt % 32)).getD .raw, rnd := (Rnd.ofCode (fmt / 32 % 8)).getD .rne, sat := flags.testBit 1,
        rows := (fact 5).headD 0, epr := (fact 6).headD 0,
        cluster := ((fact 7).head?.bind fun c => recCluster s r (c / 512) (c % 512)).getD 0, width := if red then w else 0,
        deadline := frozenAt + v, evaluated := evaluated, leaves := if red then arrived.map leaf else [],
        result := { member := 0, value := 0, poison := false }, flags := BitVec.ofNat 6 (fmt / 256),
        packets := ((sheetRows l 0x8000000A).filter fun p => natAt p 0 1 == crew && natAt p 2 2 == no).map fun p =>
          { member := natAt p 4 4, value := packetWord (toAbsolute r) (kind == .tileReduction) (word (natAt p 8 8)),
            poison := natAt p 1 1 == 1 },
        finalAt := none, retired := false }
    let x := if evaluated then { x with result := (roundPacket s x (x.leaves.filter Leaf.onTime) 0).1, retired := x.covered } else x
    x :: sheetRounds s r l crew members frozenAt n (b.drop k)

/-- Put a crew back at its number and GEN. -/
def putCrew (s : State) (rid : Nat) (r : Region) (l : List SheetSect) (frozenAt : Nat) (b : List Byte) : State :=
  let n := natAt b 0 1
  let nm := natAt b 4 4
  let die := (r.dies.getD (natAt b 3 1) none).getD 0
  let member (i : Nat) : Member :=
    let m := b.drop (32 + 8 * i)
    let col := BitVec.ofNat 12 (natAt m 4 2)
    let live := (getCtx r (natAt m 2 1)).live.find? fun c => c.col == col
    { index := natAt m 0 2, owed := [],
      tag := { ctx := BitVec.ofNat 8 (natAt m 2 1), col := col, gen := (live.map Colour.gen).getD 0 },
      key := (live.map Colour.key).getD col }
  let ms := (List.range nm).map member
  let rounds := sheetRounds s r l n (ms.map Member.index) frozenAt (natAt b 16 2) (b.drop (32 + 8 * nm))
  let facts (k : Nat) : List (List Byte) := (sheetRows l 0x80000004).filter fun x => natAt x 0 1 == n && natAt x 1 1 == k
  let ms := (ms.zip (List.range nm)).map fun e =>
    let told := (facts 13).filter fun x => natAt x 4 4 == e.1.index
    if !told.isEmpty then { e.1 with owed := told.map fun x => natAt x 2 2 }
    else if (natAt b (32 + 8 * e.2 + 3) 1).testBit 0 then
      { e.1 with owed := (rounds.filter fun x => x.arrived.contains e.1.index && !x.retired).map Round.no }
    else e.1
  let isOpen (x : Round) : Bool := !x.evaluated && !(x.set.all fun m => x.arrived.contains m || x.gone.contains m)
  let pkg := natAt b 2 1 == 1
  let c : Crew :=
    { used := true, region := rid, pkg := pkg, die := die, gen := BitVec.ofNat 8 (natAt b 1 1), quorum := natAt b 8 4,
      joins := natAt b 12 4, members := ms, nextRound := natAt b 18 2,
      open_ := rounds.find? fun x => isOpen x || (x.isReduction && !x.evaluated),
      rounds := rounds.filter fun x => !(isOpen x || (x.isReduction && !x.evaluated)), freeing := !(facts 15).isEmpty,
      noticed := (rounds.filter Round.isReduction).map Round.no,
      kept := (facts 14).map fun x => (natAt x 4 4, [natAt x 2 2]) }
  let c := { c with rounds := c.rounds.map fun (x : Round) => if x.isReduction then x else { x with releaseAt := some s.htime } }
  setCrew s n c

/-! ### Accumulators and bindings -/

/-- A sparse binding's metadata handle from its values handle (07 R249). -/
def metaHandle (v : Word) (base gen : Nat) : Word :=
  let h := handleOf v
  let epr := h.epr / 4
  ({ newHandle .n8 h.rows epr base gen h.res h.owner with res := h.res } : Handle).word

def putMacc (s : State) (r : Region) (b : Bytes) : State :=
  let h := (b.take 32).map Prod.fst
  match recCluster s r (natAt h 0 1) (natAt h 2 2) with
  | none => s
  | some c =>
    let body := b.drop 32
    let bind (bits : Nat) (w : Nat) (base gen : Nat) : Binding :=
      let v := moveOwner (toAbsolute r) (word w)
      if !bits.testBit 0 then .unbound
      else if bits.testBit 1 then .sparse v (metaHandle v base gen) else .dense v
    let elem (i : Nat) : BitVec 32 := BitVec.ofNat 32 (leNat (((body.drop (4 * i)).take 4).map Prod.fst))
    let bad (i : Nat) : Bool := ((body.drop (8 * i)).take 8).any Prod.snd
    modCluster s c fun k =>
      { k with acc := ((List.range 8192).map fun i => (i, elem i)).filter (fun e => e.2 != 0),
               accBad := ((List.range 4096).filter bad).map fun i => (2 * i, true),
               w0 := bind (natAt h 4 1) (natAt h 8 8) (natAt h 24 2) (natAt h 5 1 % 16),
               w1 := bind (natAt h 4 1 / 4) (natAt h 16 8) (natAt h 26 2) (natAt h 6 1 % 16) }

/-! ### What the annex puts back (R125) -/

/-- Change the slot that a record of the annex names. -/
def putSlot (s : State) (r : Region) (b : List Byte) (g : Slot → Slot) : State :=
  match recCluster s r (natAt b 0 1) (natAt b 2 2) with
  | none => s
  | some c => setSlot s c (BitVec.ofNat 11 (natAt b 4 2)) (g (getSlot s c (BitVec.ofNat 11 (natAt b 4 2))))

def putSlotMarks (s : State) (r : Region) (b : List Byte) : State :=
  let m := natAt b 6 1
  putSlot s r b fun x => { x with bad := m.testBit 0, broken := m.testBit 1, opwr := m.testBit 2, foreign := m.testBit 3,
                                  last := BitVec.ofNat 4 (natAt b 7 1) }

def putFired (s : State) (r : Region) (b : List Byte) : State :=
  putSlot s r b fun x => { x with fired := x.fired ++ [tagOf (natAt b 8 4)] }

def putAge (frozenAt : Nat) (s : State) (r : Region) (b : List Byte) : State :=
  putSlot s r b fun x => { x with blocked := natAt b 6 2 == 1, since := frozenAt - natAt b 8 8 }

def putSunk (s : State) (r : Region) (b : List Byte) : State :=
  match recCluster s r (natAt b 0 1) (natAt b 2 2) with
  | none => s
  | some c => modCluster s c fun k => { k with sunk := Tab.set 0 k.sunk (natAt b 4 2) (natAt b 8 8) }

def putLog (r : Region) (s : State) (b : List Byte) : State :=
  match r.dies.getD (natAt b 0 1) none with
  | none => s
  | some d => { s with plumb := { s.plumb with logs := s.plumb.logs ++
      [{ die := d, crew := natAt b 1 1, gen := BitVec.ofNat 8 (natAt b 2 1), round := natAt b 4 2, ix := natAt b 6 2,
         packet := { member := natAt b 8 4, value := word (natAt b 16 8), poison := natAt b 3 1 == 1 } }] } }

/-- The splice load whose entries are still to be injected. -/
def sheetSplice (s : State) (r : Region) (l : List SheetSect) : Option Splice :=
  match sheetRows l 0x80000007 with
  | [] => none
  | b :: rest => (recCluster s r (natAt b 0 1) (natAt b 2 2)).map fun c =>
    { cluster := c, hops := [], entries := (b :: rest).map fun x => moveTok (toAbsolute r) (tokRecOf (x.drop 8)) }

/-- The annex's records: slots, sink ring, splice load, twin purges and packet logs. -/
def putAnnex (s : State) (rid tick : Nat) (l : List SheetSect) : State :=
  let r := getRegion s rid
  let s := (sheetRows l 0x80000008).foldl (fun s b => putSlotMarks s r b) s
  let s := (sheetRows l 0x80000009).foldl (fun s b => putFired s r b) s
  let s := (sheetRows l 0x8000000D).foldl (fun s b => putAge tick s r b) s
  let s := (sheetRows l 0x8000000E).foldl (fun s b => putSunk s r b) s
  let s := (sheetRows l 0x8000000B).foldl (putLog r) s
  modRegion s rid fun x =>
    { x with sinks := (sheetRows l 0x80000006).map fun b => moveTok (toAbsolute r) (tokRecOf b),
             splice := sheetSplice s r l,
             twinPurges := (sheetRows l 0x8000000C).map fun b =>
               (BitVec.ofNat 8 (natAt b 0 1), BitVec.ofNat 12 (natAt b 2 2), word (natAt b 8 8)) }

/-! ### The whole sheet -/

/-- RESTORE's refusal code, 0 for none. -/
def sheetRefusal (s : State) (rid : Nat) (bs : Bytes) : Nat :=
  match parseSheet bs with
  | none => loadBadimg
  | some l =>
    if natAt (bs.map Prod.fst) 8 8 ≠ (shapeWord (getRegion s rid)).toNat then loadShape
    else if !sheetPlaced s rid l then loadPlace else 0

/-- Put an accepted sheet onto the region, for the thread that restores it: the region is FROZEN. -/
def loadSheet (s : State) (rid th : Nat) (bs : Bytes) (l : List SheetSect) : State :=
  let h := (bs.take 128).map Prod.fst
  let scratch := (sheetRows l 12).flatten
  let tick := natAt h 16 8
  let s := modRegion s rid fun r =>
    { r with state := .frozen, stopped := true, frozenAt := tick, wdStart := tick, hsinks := BitVec.ofNat 32 (natAt h 24 4), owner := th,
             scratch := scratch, succs := (sheetRows l 0x80000005).map fun b => BitVec.ofNat 8 (natAt b 0 1) }
  let s := putCtxs s rid l
  let s := splitRegion s rid ((sheetRows l 12).map scrRecOf)
  let r := getRegion s rid
  let s := (sheetBytes l 6).foldl (fun s b => putLines s r b) s
  let s := (sheetRows l 0x80000002).foldl (fun s b => putMarks s r b) s
  let s := putOps s r ((sheetRows l 1).map opRecOf)
  let s := putAnnex (putColours s rid l) rid tick l
  let r := getRegion s rid
  let s := (sheetBytes l 11).foldl (fun s b => putMacc s r b) s
  let s := (sheetRows l 4).foldl (fun s b => putCell s rid r b) s
  let s := (sheetBytes l 5).foldl (fun s b => putCaptured s rid r b) s
  let s := putStencils rid r l (sheetRows l 7) 0 s
  let s := putPorts rid r l (sheetRows l 8) 0 s
  let ws := sheetRows l 9
  let s := (ws.zip (List.range ws.length)).foldl (fun s e => putWaiter s rid r l e.2 e.1) s
  (sheetRows l 10).foldl (fun s b => putCrew s rid r l tick b) s

end Sys2Proof.Machine
end

