-- ==== Sys2Proof/Machine/Graph.lean ====
section
/-! DEFINITION. The graph instructions of the Hawk, what resumes the ones that block, and SPLICE (04 R116, R120 to R124;
05 R167, R168). -/

namespace Sys2Proof.Machine

/-! ### What every graph instruction checks (R116, R120) -/

/-- The region that a thread's HREGION names, in a state from which the instruction is allowed; a span member answers to no
graph instruction of its own package (01 R32). -/
def graphRegion (s : State) (th : Nat) (ok : List RState) : Option Nat :=
  let t := getThread s th
  let rid := bits t.region 62 56
  let r := getRegion s rid
  if t.region.getLsbD 63 && r.handle == t.region && !r.member && ok.contains r.state then some rid else none

def blockOn (s : State) (th : Nat) (b : Block) : State := setThread s th { getThread s th with block := b }

/-- Another thread's GLOAD.entry on the region has entries still to inject. -/
def loadUnderWay (s : State) (rid th : Nat) : Bool :=
  (getRegion s rid).state == .loaded &&
  s.threads.any fun e => e.1 != th && e.2.block.isEntries && e.2.region == (getRegion s rid).handle

/-- A graph instruction of the moving thread: PRIV in guest mode where it is privileged, ILLEGAL with DETAIL 2 where its
region's state does not allow it, otherwise its own effect on that thread and region, once a GLOAD of another thread that
has begun on the region is over (R116). -/
def graph (s : State) (priv : Bool) (ok : List RState) (i : Instr) (k : Nat → Nat → State) : State :=
  let th := cur s
  if priv && !(getThread s th).mode then trap s th cPRIV 0 (wordOf i)
  else match graphRegion s th ok with
    | none => trap s th cILLEGAL 2 (wordOf i)
    | some rid => if loadUnderWay s rid th then blockOn s th .graphTurn else k th rid

/-- An operand outside its limits (R120). -/
def badOperand (s : State) (th : Nat) (i : Instr) : State := trap s th cILLEGAL 3 (wordOf i)

/-- FEN: every buffered copy on the SP, SC, MP, BK and LK paths is discarded (02 R61). -/
def dropCopies (s : State) : State := discardBuffers (discardBuffers s 2 fun _ => true) 3 fun _ => true

/-! ### GLOAD -/

def fetchSound (s : State) (th : Nat) (a : Word) (n : Nat) (w : Word) : Hawk (List Byte) :=
  (fetchBytes s th a n w).andThen fun s b => soundBytes s a b

/-- The bytes of the image at an address; a wrong MAGIC ends the reading at the header. -/
def fetchImage (s : State) (th : Nat) (a w : Word) : Hawk (List Byte) :=
  (fetchSound s th a 64 w).andThen fun s hdr =>
    if natAt hdr 0 4 ≠ 0x4947584B then .ok s hdr
    else
      let n := natAt hdr 14 2
      (fetchSound s th (a + 64) (16 * n) w).andThen fun s tab =>
        let len := extentOf 64 (sectTable tab n)
        (fetchSound s th (a + 64 + word (16 * n)) (len - (64 + 16 * n)) w).andThen fun s rest => .ok s (hdr ++ tab ++ rest)

/-- Store the HAWK sections at their load addresses (03 R104). -/
def storeHawk (th : Nat) (w : Word) : List (Word × List Byte) → State → Hawk Unit
  | [], s => .ok s ()
  | (a, bs) :: l, s => (storeBytes s th a (sound bs) w).andThen fun s _ => storeHawk th w l s

/-- Inject the entries that are left, each as INJ.fen.new would; the thread waits while a colour is refused, and the word
ends after the last. -/
def injectRest (s : State) (rid th : Nat) (r : Reg) (ts : List Tok) : State :=
  match injectEntries rid th ts (dropCopies s) with
  | (s, []) => reissue (finishX (blockOn s th .none) th r 0) rid fun b => b == .graphTurn
  | (s', left) => blockOn (if left.length = ts.length then s else s') th (.entries r left)

/-- The status of a load, and the image to load when it is accepted. -/
def checkedImage (s : State) (rid th : Nat) (a w : Word) : Hawk (Nat × Option Image) :=
  (fetchImage s th a w).andThen fun s bs =>
    match parseImage bs with
    | none => .ok s (loadBadimg, none)
    | some m =>
      let code := imageRefusal s rid m false
      if code ≠ 0 then .ok s (code, none) else (storeHawk th w m.hawk s).andThen fun s _ => .ok s (0, some m)

def execGload (r ra : Reg) (entry : Bool) (s : State) : Host.Outcome State Fault Refusal :=
  .next (graph s true [.granted] (.gload r ra entry) fun th rid =>
    (checkedImage s rid th (rx s ra) (wordOf (.gload r ra entry))).finish s th fun s' x =>
      match x.2 with
      | none => finishX s' th r (word x.1)
      | some m =>
        let s' := loadImage s' rid th m
        if entry then injectRest s' rid th r (m.entries.map (entryToken (getRegion s' rid)))
        else finishX s' th r 0)

/-! ### INJ -/

/-- The limits of INJ's operands. -/
def injOk (s : State) (rid : Nat) (h : Word) (new : Bool) : Bool :=
  let t := tokOf h 0
  let r := getRegion s rid
  t.dst.valid && t.dst.rwi == 0 && decide (kindCode t.kind < 6) && placeOk s r t.dst.die.toNat t.dst.cluster.toNat &&
  (!new || (getCtx r t.tag.ctx.toNat).declared)

/-- Send the token of an INJ and end the word with its header, or wait for a colour. -/
def inject (s : State) (rid th : Nat) (r ra rb : Reg) (new fen : Bool) : State :=
  let t := getThread s th
  let reg := getRegion s rid
  let tok := entryToken reg (tokOf (t.getX ra) (t.getX rb))
  let header (x : Tok) : Word := headerBits { x with dst := moveDst (toRelative reg) x.dst }
  let s0 := if fen then dropCopies s else s
  if !new then finishX (hawkSend s0 rid th tok) th r (header tok)
  else match injectNew s0 rid th tok with
    | none => blockOn s th (.inj r ra rb fen)
    | some (s, x) => finishX (blockOn s th .none) th r (header x)

def execInj (r ra rb : Reg) (new fen : Bool) (s : State) : Host.Outcome State Fault Refusal :=
  .next (graph s false [.loaded] (.inj r ra rb new fen) fun th rid =>
    if injOk s rid (rx s ra) new then inject s rid th r ra rb new fen else badOperand s th (.inj r ra rb new fen))

/-- A thread that waits for a colour, in INJ.new or in GLOAD.entry, asks again. -/
def execInjColourResume (th : Nat) (s : State) : Host.Outcome State Fault Refusal :=
  .next (match graphRegion s th [.loaded] with
    | none => s
    | some rid =>
      if isStopped s rid then s
      else match (getThread s th).block with
        | .inj r ra rb fen => inject s rid th r ra rb true fen
        | .entries r left => injectRest s rid th r left
        | _ => s)

/-! ### SNKPOP -/

/-- Take the oldest token of a ring: the payload as it is, then the header, whose cluster is relative. -/
def popSink (s : State) (rid th : Nat) (r rb : Reg) (t : Tok) (rest : List Tok) : State :=
  let reg := getRegion s rid
  let s := setRegion s rid { reg with sinks := rest, hsinks := if reg.hsinks = 0 then 0 else reg.hsinks - 1 }
  let x := ((getThread s th).setX r t.payload).setX rb
    (headerBits { t with dst := moveDst (toRelative reg) t.dst })
  setThread s th { x with pc := x.pc + 4, block := .none }

def execSnkpop (r rb : Reg) (wait : Bool) (s : State) : Host.Outcome State Fault Refusal :=
  .next (graph s false [.loaded] (.snkpop r rb wait) fun th rid =>
    match (getRegion s rid).sinks with
    | t :: rest => popSink s rid th r rb t rest
    | [] =>
      if wait then blockOn s th (.snkpop r rb)
      else
        let x := ((getThread s th).setX r 0).setX rb 0
        setThread s th { x with pc := x.pc + 4 })

/-- A thread that waits for a sink token takes one once its region is LOADED and has one (notes/assumptions/110.md). -/
def execSnkpopWaitResume (th : Nat) (s : State) : Host.Outcome State Fault Refusal :=
  .next (match (getThread s th).block, graphRegion s th [.loaded] with
    | .snkpop r rb, some rid =>
      (match (getRegion s rid).sinks with
      | t :: rest => popSink s rid th r rb t rest
      | [] => s)
    | _, _ => s)

/-! ### FREEZE and THAW -/

/-- FREEZE: the request enters Plumb in this tick, unless a freeze is under way; the thread waits for the drain. -/
def execFreeze (r : Reg) (s : State) : Host.Outcome State Fault Refusal :=
  .next (graph s true [.loaded] (.freeze r) fun th rid => blockOn (raiseFreeze s rid s.htime) th (.freeze r))

/-- THAW: the region is LOADED, and resumes on one tick; one whose member is out of reach stays FROZEN (01 R32). -/
def execThaw (r : Reg) (s : State) : Host.Outcome State Fault Refusal :=
  .next (graph s true [.frozen] (.thaw r) fun th rid =>
    if (getRegion s rid).lost then trap s th cILLEGAL 2 (wordOf (.thaw r))
    else blockOn (modRegion s rid fun x => { x with state := .loaded, thawAt := some (s.htime + signalDelay x) }) th (.thaw r))

/-! ### SCAN and RESTORE -/

def execScan (r ra : Reg) (s : State) : Host.Outcome State Fault Refusal :=
  .next (graph s true [.frozen] (.scan r ra) fun th rid =>
    let a := rx s ra
    if (getRegion s rid).lost then trap s th cILLEGAL 2 (wordOf (.scan r ra))
    else if a.toNat % 4096 ≠ 0 then badOperand s th (.scan r ra)
    else
      let sheet := sheetOf s rid
      (storeBytes s th a sheet (wordOf (.scan r ra))).finish s th fun s' refused =>
        finishX s' th r (word (sheet.length + if refused then 2 ^ 63 else 0)))

/-- The bytes of the sheet at an address, each with the poison it was read with. -/
def fetchSheet (s : State) (th : Nat) (a w : Word) : Hawk Bytes :=
  (fetchSound s th a 128 w).andThen fun s hdr =>
    if natAt hdr 0 4 ≠ 0x54535544 then .ok s (sound hdr)
    else
      let n := natAt hdr 6 2
      (fetchSound s th (a + 128) (16 * n) w).andThen fun s tab =>
        let len := extentOf 128 (sectTable tab n)
        (fetchBytes s th (a + 128 + word (16 * n)) (len - (128 + 16 * n)) w).andThen fun s rest =>
          .ok s (sound hdr ++ sound tab ++ rest)

def execRestore (r ra : Reg) (s : State) : Host.Outcome State Fault Refusal :=
  .next (graph s true [.granted] (.restore r ra) fun th rid =>
    let a := rx s ra
    ((fetchSheet s th a (wordOf (.restore r ra))).andThen fun s bs =>
      match parseSheet bs with
      | none => .ok s (bs, [])
      | some l =>
        if carriesPoison l then .trap cPOISON 0 (a + word ((bs.findIdx? Prod.snd).getD 0)) else .ok s (bs, l)).finish s th
      fun s' x =>
        let code := sheetRefusal s' rid x.1
        finishX (if code = 0 then loadSheet s' rid th x.1 x.2 else s') th r (word code))

/-! ### OPWR (R120, 03 R76 to R78, 05 R168) -/

/-- Discard and count the predecessor's entries for a slot, and raise TOKEN_LEAK whatever the threshold (05 R168). -/
def forceReplace (s : State) (rid c : Nat) (slot : BitVec 11) : State :=
  let gone (e : Entry) : Bool := e.slot == slot && e.region == rid && !awaitsPacket s rid c slot e.tag
  let n := ((getCluster s c).entries.filter gone).length
  let s := modCluster s c fun k => waitAnew s.htime (k.entries.filter gone) { k with entries := k.entries.filter fun e => !gone e }
  let s := addDiscarded s rid (nodeField (getRegion s rid) c slot) n
  raiseCause s rid aTOKEN_LEAK c slot 0 (leakDetail (getRegion s rid) 2)

/-- What a slot's word is: an operator, or a route word with some entries in use. -/
def roleOf (s : State) (c : Nat) (slot : BitVec 11) : Option Nat :=
  if (getSlot s c slot).rw then some (rwiBefore s c slot) else none

/-- Move the CLUSTER fields of a word according to what it is (03 R76). -/
def moveAs (o : BitVec 9) (role : Option Nat) (w : Word128) : Word128 :=
  match role with
  | none => moveWord o w
  | some n => moveRoute o n w

/-- A slot becomes a route word with n entries in use, or ceases to be one: its CLUSTER fields are those of what it is
now (notes/assumptions/107.md). -/
def giveRole (s : State) (c : Nat) (slot : BitVec 11) (r : Region) (was now : Option Nat) : State :=
  let x := getSlot s c slot
  let y := { x with rw := now.isSome, occ := now.isNone && was.isNone && x.occ,
                    word := moveAs (toAbsolute r) now (moveAs (toRelative r) was x.word) }
  if was = now then s else rematch (setSlot s c slot y) c slot

/-- The slot after an operator holds its route word, or no longer does; an operator that stood there gives up its own
(03 R74). -/
def shapeNext (s : State) (r : Region) (c : Nat) (slot : BitVec 11) (n : Nat) : State :=
  if slot.toNat = 2047 then s
  else
    let next := slot + 1
    let x := getSlot s c next
    let s := if n ≠ 0 ∧ next.toNat ≠ 2047 ∧ x.occ ∧ wordRwi x.word ≠ 0 then
        giveRole s c (next + 1) r (roleOf s c (next + 1)) none
      else s
    giveRole s c next r (roleOf s c next) (if n = 0 then none else some n)

/-- Write a slot: the origin added to the word's destinations; BAD cleared; the context kept. -/
def writeSlot (s : State) (rid c : Nat) (slot : BitVec 11) (w : Word128) : State :=
  let r := getRegion s rid
  let x := getSlot s c slot
  let s := if x.waiting.isSome then forceReplace s rid c slot else s
  if x.rw then
    setSlot s c slot
      { x with word := moveRoute (toAbsolute r) (rwiBefore s c slot) w, bad := false, broken := false, opwr := true, waiting := none }
  else
    let s := shapeNext s r c slot (wordRwi w)
    rematch (setSlot s c slot
      { x with occ := true, word := moveWord (toAbsolute r) w, bad := false, broken := false, opwr := true, foreign := false,
               waiting := none, since := 0, blocked := false }) c slot

def execOpwr (r ra rb : Reg) (s : State) : Host.Outcome State Fault Refusal :=
  .next (graph s true [.loaded, .frozen] (.opwr r ra rb) fun th rid =>
    let v := rx s rb
    let d := dstOf v.toNat
    let reg := getRegion s rid
    if v &&& 0xFFFFFFFFE000003F ≠ 0 ∨ !placeOk s reg d.die.toNat d.cluster.toNat then badOperand s th (.opwr r ra rb)
    else (fetchSound s th (rx s ra) 16 (wordOf (.opwr r ra rb))).finish s th fun s' bs =>
      let s' := match recCluster s' reg d.die.toNat d.cluster.toNat with
        | none => s'
        | some c => writeSlot s' rid c d.slot (BitVec.ofNat 128 (leNat bs))
      finishX s' th r 0)

/-! ### DIAGST (R120; 09 R313; 10 R323) -/

/-- The columns of a code with w low bits: the values with at least two bits set, ascending. -/
def columns (w nbits : Nat) : List Nat := ((List.range (2 ^ w)).filter fun v => decide (2 ≤ popcount v)).take nbits

/-- Check(data) of a code with w low bits and one parity bit. -/
def checkBits (w nbits data : Nat) : Nat :=
  let low := ((List.range nbits).zip (columns w nbits)).foldl (fun m e => if data.testBit e.1 then m ^^^ e.2 else m) 0
  let ones := (List.range nbits).foldl (fun p k => p != data.testBit k) false
  low + if ones != decide (popcount low % 2 = 1) then 2 ^ w else 0

/-- Write eight bytes and the stored check bits of their protection unit. -/
def diagWrite (s : State) (p : Nat) (v c : Word) : State :=
  let k := kindOf p
  let u := p / unitOf k * unitOf k
  let s := setMem s (Mem.write s.mem p (leBytes 8 v.toNat))
  let data := peek s u (unitOf k)
  let x : BitVec 16 := match k with
    | .hbm | .far => c.setWidth 16 ^^^ BitVec.ofNat 16 (checkBits 9 256 data)
    | .bank => BitVec.ofNat 16 (bits c 7 0 ^^^ checkBits 7 64 data)
    | _ =>
      let d := c.setWidth 8 ^^^ Config.scratchCode (BitVec.ofNat 64 data)
      if d = 0 then 0 else 0x200 ||| d.setWidth 16
  setChk s u x

/-- DIAGST at the place that its TARGET gives an address: it needs no region of its own (R115), but a scratchpad address
lies in the window of one. -/
def diagst (s : State) (place : Nat → Nat → Option Nat) (r ra rb : Reg) (i : Instr) : State :=
  let th := cur s
  let t := getThread s th
  let a := rx s ra
  if !t.mode then trap s th cPRIV 0 (wordOf i)
  else if a.toNat % 8 ≠ 0 then trap s th cMISALIGN 0 a
  else match place th a.toNat with
    | none => trap s th cHPAGE 3 a
    | some p => advance (diagWrite s p (rx s rb) (rx s r)) th

def execDiagstHbm (r ra rb : Reg) (s : State) : Host.Outcome State Fault Refusal :=
  .next (diagst s (fun th a => match upperLoc s (th / 8) a with
    | some (.mem p) => if kindOf p == .hbm && !inSinkArea p then some p else none
    | _ => none) r ra rb (.diagstHbm r ra rb))

def execDiagstBank (r ra rb : Reg) (s : State) : Host.Outcome State Fault Refusal :=
  .next (diagst s (fun th a => match upperLoc s (th / 8) a with
    | some (.bank p _) => some p
    | _ => none) r ra rb (.diagstBank r ra rb))

def execDiagstSp (r ra rb : Reg) (s : State) : Host.Outcome State Fault Refusal :=
  .next (diagst s (fun th a => match locate s (hregion s (getThread s th)) a 8 with
    | .scratch c off => some (spAddr c off)
    | _ => none) r ra rb (.diagstSp r ra rb))

/-! ### SPLICE (05 R167) -/

/-- What a cluster's configuration unit reads. -/
inductive Reading where
  | ok (s : State) (bs : List Byte)
  | miss (v : Nat)
  | fail (code : BitVec 8)

def Reading.andThen (x : Reading) (f : State → List Byte → Reading) : Reading :=
  match x with
  | .ok s bs => f s bs
  | .miss v => .miss v
  | .fail e => .fail e

/-- Read some chunks at global addresses, with the Hawk translator of a die and an ASID. -/
def readChunksAs (r : Region) (d : Nat) (asid : BitVec 32) : List (Nat × Nat) → State → Reading
  | [], s => .ok s []
  | (a, n) :: rest, s =>
    match locate s r a n with
    | .fail e => .fail e
    | .global v => (match translate s (getDie s d).xlate asid v n false with
      | .parts ps =>
        let (s, bs, bad) := readParts s ps
        if bad then .fail ePOISON
        else (readChunksAs r d asid rest s).andThen fun s t => .ok s (bs ++ t)
      | .miss v => .miss v
      | _ => .fail ePAGE_FAIL)
    | _ => .fail eADDR_RANGE

/-- The bytes of the successor image at an address; a wrong MAGIC ends the reading at the header. -/
def readImage (s : State) (r : Region) (d : Nat) (asid : BitVec 32) (a : Nat) : Reading :=
  let get (s : State) (o n : Nat) : Reading := readChunksAs r d asid (granuleChunks (a + o) n) s
  (get s 0 64).andThen fun s hdr =>
    if natAt hdr 0 4 ≠ 0x4947584B then .ok s hdr
    else
      let n := natAt hdr 14 2
      (get s 64 (16 * n)).andThen fun s tab =>
        let len := extentOf 64 (sectTable tab n)
        (get s (64 + 16 * n) (len - (64 + 16 * n))).andThen fun s rest => .ok s (hdr ++ tab ++ rest)

/-- Read the successor image of a two-port SPLICE firing, with the ASID of the region's owner thread. -/
def spliceImage (s : State) (f : Firing) : Reading :=
  let r := getRegion s f.region
  readImage s r (f.cluster / 512) (getThread s r.owner).asid (tokAt f 1).payload.toNat

/-- A two-port firing that reads an image now: nothing in error, and no splice load under way. -/
def spliceReads (s : State) (f : Firing) : Bool :=
  wordPorts f.word == 2 && !f.stale && !(f.toks.any fun t => t.kind == .error) && isScalar (tokAt f 1) &&
  !(tokAt f 1).flag.poison && (getRegion s f.region).splice.isNone

/-- Ask the pager for a page of the image, once for each missing byte and 65,536 ticks (notes/assumptions/55.md). -/
def askSplicePage (s : State) (f : Firing) (v : Nat) : State :=
  let r := getRegion s f.region
  let asked := match r.splicePage with
    | some (b, t) => b == v && decide (s.htime < t + 65536)
    | none => false
  if asked then s
  else
    let th := getThread s r.owner
    match raiseMiss s (ticketWord (f.cluster / 512) true (r.owner % 8) 0 (th.faultSeq + 1).toNat (missKind false false) th.asid) v with
    | none => s
    | some s => modRegion s f.region fun r => { r with splicePage := some (v, s.htime) }

/-- A configuration packet on its way to the slot of an OPS record: it enters its row at the west edge (01 R35). -/
def opHop (s : State) (rid : Nat) (ops : List OpRec) (x : OpRec) : List Hop :=
  let r := getRegion s rid
  match recCluster s r x.die x.cl with
  | none => []
  | some c => [{ region := rid, die := c / 512, row := c % 512 / 16, col := 0, count := c % 16, slot := BitVec.ofNat 11 x.slot,
                 what := recConfig r ops x }]

/-- Begin an accepted splice load: HSINKS, the contexts, and the packets and entries still to send. -/
def beginSplice (s : State) (f : Firing) (m : Image) : State :=
  let r := getRegion s f.region
  setRegion s f.region
    { declareCtxs r m.ctxs with hsinks := r.hsinks + BitVec.ofNat 32 m.nsink, splicePage := none,
                                succs := m.ctxs.map fun k => BitVec.ofNat 8 k.ctx, imageAt := (tokAt f 1).payload,
                                splice := some { cluster := f.cluster, hops := m.ops.flatMap (opHop s f.region m.ops),
                                                 entries := m.entries.map (entryToken r) } }

/-- SPLICE_BLOCKED for a refused image: reason 1, the refusal code and the image's address; no node waits, so the SPLICE node
stands in the field (05 R179; notes/assumptions/115.md). -/
def refuseSplice (s : State) (f : Firing) (code : Nat) : State :=
  raiseCause s f.region aSPLICE_BLOCKED f.cluster f.slot (tagBits f.tag .scalar Flag.none)
    (leBytes 1 1 ++ leBytes 1 code ++ leBytes 2 0 ++ leBytes 4 (nodeField (getRegion s f.region) f.cluster f.slot) ++
     leBytes 8 (tokAt f 1).payload.toNat)

/-- Check the image of a firing and begin its load, or report its refusal. -/
def spliceWith (s : State) (f : Firing) (bs : List Byte) : State :=
  match parseImage bs with
  | none => refuseSplice s f loadBadimg
  | some m =>
    let code := imageRefusal s f.region m true
    if code = 0 then beginSplice s f m else refuseSplice s f code

def execSplice (o : Op) (s : State) : Host.Outcome State Fault Refusal :=
  let f := s.firing
  .next (match spliceReads s f, spliceImage s f with
    | true, .miss v => requeue (askSplicePage s f v) f
    | reads, image => fire s o fun s f =>
      let t := tokAt f 0
      let outs := passTo (destinations s f o) { t with flag := { t.flag with last := true } }
      if wordPorts f.word ≠ 2 then guarded [dataError s f o t] [] fun _ => .done s outs 0 0
      else guarded [dataError s f o t, scalarError (tokAt f 1)] [tokAt f 1] fun _ =>
        match reads, image with
        | true, .ok _ bs => .done (spliceWith s f bs) outs 0 0
        | true, .fail e => .error e 0
        | _, _ => .hold)

/-- LAST tokens of a splicing firing are still on their way from its cluster. -/
def lastOnWay (s : State) (rid : Nat) (x : Splice) : Bool :=
  s.net.any fun p => p.region == rid && p.src == x.cluster && p.tok.flag.last

/-- A running splice load goes on: its packets leave after the LAST tokens of its firing (01 R33); once they have passed,
the entries are injected in order as colours are granted; the load ends with the last (05 R167). -/
def spliceOn (s : State) (rid : Nat) : State :=
  let r := getRegion s rid
  match r.splice with
  | none => s
  | some x =>
    if !x.hops.isEmpty then
      if lastOnWay s rid x then s
      else { setRegion s rid { r with splice := some { x with hops := [] } } with hops := s.hops ++ x.hops }
    else if r.stopped || s.hops.any (fun h => h.region == rid) then s
    else
      let (s, left) := injectEntries rid r.owner x.entries s
      modRegion s rid fun r => { r with splice := if left.isEmpty then none else some { x with entries := left } }

end Sys2Proof.Machine
end

