-- ==== Sys2Proof/Machine/Dispatcher.lean ====
section
/-! DEFINITION. The dispatcher of a cluster, words that are no instructions, and the freeze, the thaw and the relay of a
region's signals (01 R18, R32, R41, R44; 03 R77; 04 R120 to R122; 05 R145 to R148, R180; 09 R316; 11 R374 to R376, R380). -/

namespace Sys2Proof.Machine

/-! ### Choosing a firing (05 R147) -/

/-- The place in the matched order of an entry that can issue in this tick. -/
def issueOrder (s : State) (e : Entry) : Option Nat :=
  if isStopped s e.region then none
  else match e.st with
    | .ready n _ => some n
    | .held n _ t => if t < s.htime then some n else none
    | _ => none

/-- The lines of the binding that a product names now have filled (07 R236). -/
def boundReady (s : State) (c : Nat) (w : Word128) : Bool :=
  handlesAre s c ((boundHandles s c w).filter (leftToLines s c)) != .waiting

/-- A firing of the cluster's Matrix Engine waits for lines over the quad link: the engine, which performs its firings in
issue order, takes no later one (07 R225). Another engine takes none of the node whose ORD firing waits there, or whose
ORD stream runs (03 R71). -/
def engineWaits (s : State) (c eng : Nat) (e : Entry) : Bool :=
  let same (f : Firing) : Bool := f.slot == e.slot && f.region == e.region && f.word.getLsbD 101
  (s.clusters.any fun k => k.2.quad.any fun f => f.cluster == c && wordEcl f.word == eng && (eng == 2 || same f)) ||
  (getCluster s c).streams.any fun x => same x.firing

/-- An entry that an engine can issue. -/
def canIssue (s : State) (c eng : Nat) (e : Entry) : Bool :=
  let x := getSlot s c e.slot
  x.occ && !x.rw && wordEcl x.word == eng && (issueOrder s e).isSome && boundReady s c x.word && !engineWaits s c eng e

/-- Round robin over contexts after the one last served, then the oldest colour, then the earliest matched: the least of
these is the next to issue. -/
def issueRank (s : State) (c eng : Nat) (e : Entry) : Nat × Nat × Nat :=
  let last := Tab.get 255 (getCluster s c).lastCtx eng
  ((e.tag.ctx.toNat + 255 - last) % 256, ageOf (getCtx (getRegion s e.region) e.tag.ctx.toNat) e.tag.col,
   (issueOrder s e).getD 0)

def rankBelow (a b : Nat × Nat × Nat) : Bool :=
  decide (a.1 < b.1) || (a.1 == b.1 && (decide (a.2.1 < b.2.1) || (a.2.1 == b.2.1 && decide (a.2.2 < b.2.2))))

/-- The entry that an engine's dispatcher takes next: its place. -/
def nextIssue (s : State) (c eng : Nat) : Option Nat :=
  let es := (getCluster s c).entries
  ((es.zip (List.range es.length)).filter fun x => canIssue s c eng x.1).foldl (fun m x => match m with
    | none => some x.2
    | some j =>
      match es[j]? with
      | some y => if rankBelow (issueRank s c eng x.1) (issueRank s c eng y) then some x.2 else some j
      | none => some x.2) none

/-! ### Issuing it (05 R145, R146) -/

/-- An entry is handed to its engine, which takes it once it performs the firing (R145). -/
def markIssued (s : State) (c i : Nat) (f : Firing) : State :=
  modCluster s c fun k => { k with entries := k.entries.modify i fun e => { e with st := .issued f.agent f.stale } }

/-- An issued firing's tokens leave the store; its KEEP cells have stayed when it was matched (putEntry). -/
def takeEntry (s : State) (c i : Nat) : State :=
  modCluster s c fun k => waitAnew s.htime (k.entries[i]?).toList { k with entries := removeAt k.entries i }

/-- A node that has saved and not forwarded records what its firings consume (11 R376). -/
def recordConsumed (s : State) (c : Nat) (e : Entry) : State :=
  if (savingAt (getRegion s e.region) c e.slot).isNone then s
  else (List.range 4).foldl (fun s p => match e.cells.getD p none with
    | some t => if t.flag.keep then s else snapRecord s e.region c e.slot 4 p (some t) 0 e.seq
    | none => s) s

/-- The firing of an entry: its operands, and the word and route word as they stand at its issue. -/
def firingOf (s : State) (c : Nat) (e : Entry) : Firing :=
  let x := getSlot s c e.slot
  let stale := match e.st with | .ready _ b | .held _ b _ | .issued _ b => b | _ => false
  { region := e.region, cluster := c, slot := e.slot, tag := e.tag, toks := tokensOf e (wordPorts x.word), word := x.word,
    route := nextWord s c e.slot, rmode := modeOf (getRegion s e.region) e.tag, stale := stale,
    agent := (issueOrder s e).getD 0 }

/-- A firing that performs nothing: an error token on every valid destination, under a tag. -/
def emitNothing (s : State) (f : Firing) (x : Xfm) (code : BitVec 8) : State :=
  let o := rawOp f.word
  match tagUnder s f x with
  | .refused => requeue s f
  | tg =>
    let s' := match tg with | .tag s' _ => s' | _ => s
    emitError s' f o x tg (destinations s f o) (errorPayload (getRegion s f.region) f.cluster f.slot 0 code)

/-- Raise OP_ILLEGAL for a node (05 R179). -/
def raiseIllegal (s : State) (f : Firing) : State :=
  raiseCause s f.region aOP_ILLEGAL f.cluster f.slot (tagBits f.tag .scalar Flag.none) (leBytes 16 f.word.toNat)

/-- A destination that a word may name (03 R73, R77; 01 R15): in the region, no route word, and a port that the operator
there has. -/
def destinationOk (s : State) (rid : Nat) (d : Dst) : Bool :=
  let r := getRegion s rid
  match regionCluster s r d.die.toNat d.cluster.toNat with
  | none => Tab.get 0 r.span d.die.toNat != 0
  | some c =>
    let x := getSlot s c d.slot
    !x.rw && (!x.occ || decide (d.port.toNat < wordPorts x.word))

/-- A word, or its route word, came by OPWR and breaks R72 to R74 or R15 at its firing (03 R77). -/
def brokenByOpwr (s : State) (f : Firing) : Bool :=
  let o := rawOp f.word
  let n := wordRwi f.word
  let next := getSlot s f.cluster (f.slot + 1)
  ((getSlot s f.cluster f.slot).opwr || (n != 0 && next.opwr)) &&
  (!isOpWord f.word || (n != 0 && (f.slot.toNat == 2047 || !next.rw || !routeWordOk f.route n)) ||
   !(destinations s f o).all fun d => destinationOk s f.region d.2)

/-- A firing of a word that is no instruction (03 R77): the first of a slot raises OP_ILLEGAL; XFM is applied unless it is
reserved. -/
def fireIllegal (s : State) (f : Firing) : State :=
  let x := getSlot s f.cluster f.slot
  let s' := if x.bad then s else raiseIllegal (setSlot s f.cluster f.slot { x with bad := true }) f
  emitNothing s' f ((Xfm.ofCode (bits f.word 106 104)).getD .keep) eOP_ILLEGAL

/-- A node of one context under a tag of another (01 R18); a node that needs a context and has none belongs to none. -/
def foreignTag (x : Slot) (t : Tag) : Bool :=
  !isCtxEnter x.word && needsCtx x.word && decide (x.ctx ≠ some t.ctx)

/-- A firing whose word's check bits report an error performs nothing (05 R146). -/
def fireBroken (s : State) (f : Firing) : State :=
  raiseCause (emitNothing s f .keep ePOISON) f.region cPOISON f.cluster f.slot (tagBits f.tag .scalar Flag.none) []

def fireForeign (s : State) (f : Firing) : State :=
  let x := getSlot s f.cluster f.slot
  let s := if x.foreign then s else raiseIllegal (setSlot s f.cluster f.slot { x with foreign := true }) f
  emitNothing s f .keep eOP_ILLEGAL

/-- What a node and its region remember of a firing (01 R38; 11 R380). -/
def noteFiring (s : State) (f : Firing) : State :=
  let x := getSlot s f.cluster f.slot
  let last := (f.toks.zip (List.range 4)).foldl (fun m e => if e.1.flag.last then m ||| BitVec.ofNat 4 (2 ^ e.2) else m) x.last
  let fired := if x.fired.contains f.tag then x.fired else x.fired ++ [f.tag]
  modRegion (setSlot s f.cluster f.slot { x with last := last, fired := fired }) f.region fun r =>
    { r with lastFire := s.htime, wdSeen := true }

/-- An engine has taken a firing unless it passed it over: its tokens leave the store, the dispatcher's round moves past
its context, and its node notes it (05 R145, R147; 01 R38; 11 R376). -/
def takeFiring (s : State) (f : Firing) : State :=
  match issuedEntry (getCluster s f.cluster) f with
  | none => s
  | some i => match (getCluster s f.cluster).entries[i]? with
    | none => s
    | some e =>
      let s := takeEntry (recordConsumed s f.cluster e) f.cluster i
      noteFiring (modCluster s f.cluster fun k =>
        { k with lastCtx := Tab.set 255 k.lastCtx (wordEcl f.word) f.tag.ctx.toNat }) f

/-- The word or the route word of a firing's node reports an uncorrectable error (05 R146). -/
def wordBroken (s : State) (f : Firing) : Bool :=
  (getSlot s f.cluster f.slot).broken || (wordRwi f.word != 0 && (getSlot s f.cluster (f.slot + 1)).broken)

/-- A firing issues: to its engine, to the first owner of its lines (07 R241), or as one that performs nothing. -/
def sendToEngine (s : State) (f : Firing) : State :=
  let x := getSlot s f.cluster f.slot
  if wordBroken s f then takeFiring (fireBroken s f) f
  else if x.bad || brokenByOpwr s f then takeFiring (fireIllegal s f) f
  else if foreignTag x f.tag then takeFiring (fireForeign s f) f
  else match (quadOwners s f).head? with
    | some owner => modCluster (takeFiring s f) owner fun k => { k with quad := k.quad ++ [f] }
    | none => { s with issued := s.issued ++ [f] }

/-- One engine of a cluster issues its next firing; after a thermal shutdown nothing issues (13 R422). -/
def execFiringDispatch (c eng : Nat) (s : State) : Host.Outcome State Fault Refusal :=
  .next (if s.service.fatal then s
    else match nextIssue s c eng with
      | none => s
      | some i => match (getCluster s c).entries[i]? with
        | none => s
        | some e =>
          let f := firingOf s c e
          sendToEngine (markIssued s c i f) f)

/-! ### The freeze (01 R44; 04 R120 to R122) -/

/-- Threads whose HREGION names a region, with what they wait for. -/
def waitingThreads (s : State) (rid : Nat) : List (Nat × Block) :=
  (s.threads.filter fun e => e.2.region.getLsbD 63 && bits e.2.region 62 56 == rid && e.2.block != .none).map fun e =>
    (e.1, e.2.block)

/-- End the blocked word of every thread that waits for the region, with a result. -/
def endWaits (s : State) (rid : Nat) (v : Word) (rd : Block → Option Reg) : State :=
  (waitingThreads s rid).foldl (fun s e => match rd e.2 with
    | some r => finishX (blockOn s e.1 .none) e.1 r v
    | none => s) s

/-- An INJ.new that waits for a colour is abandoned, with HXPC naming it. -/
def abandonInjections (s : State) (rid : Nat) : State :=
  (waitingThreads s rid).foldl (fun s e => match e.2 with
    | .inj r ra rb fen => trap (blockOn s e.1 .none) e.1 cILLEGAL 2 (wordOf (.inj r ra rb true fen))
    | _ => s) s

/-- Tokens on their way and in ejection buffers go to capture buffers. -/
def captureTokens (s : State) (rid : Nat) : State :=
  let mine := s.net.filter fun p => p.region == rid
  let s := { s with net := s.net.filter fun p => p.region != rid }
  let s := { s with clusters := s.clusters.map fun e =>
    let a := e.2.arrivals.filter fun x => x.region == rid
    if a.isEmpty then e
    else (e.1, { e.2 with arrivals := e.2.arrivals.filter (fun x => x.region != rid), capture := e.2.capture ++ a }) }
  mine.foldl (fun s p => modCluster s p.dst fun k =>
    { k with capture := k.capture ++ [{ region := rid, src := p.src, tok := p.tok, data := p.data }] }) s

/-- On tick T no firing of the region issues any more. -/
def stopRegion (s : State) (rid t : Nat) : State :=
  let s := modRegion s rid fun r => { r with stopped := true, frozenAt := t, freezeAt := none, reports := [] }
  abandonInjections (returnNacked (flushCombining (captureTokens s rid) rid) rid) rid

/-- What issued before T has completed, apart from what waits on something outside itself. -/
def drained (s : State) (rid : Nat) : Bool :=
  let mine (f : Firing) : Bool := f.region == rid && f != Firing.none
  !(s.issued.any mine) && !(s.net.any fun p => p.region == rid) && !(s.hops.any fun h => h.region == rid) &&
  (((getRegion s rid).splice.map fun x => x.hops.isEmpty).getD true) &&
  (s.clusters.all fun e =>
    !(e.2.arrivals.any fun a => a.region == rid) && !(e.2.cmpx.any fun x => mine x.firing) && !(e.2.quad.any mine) &&
    (e.2.finishing.all fun x => !mine x.2.firing || queueStuck s e.1 x.1) &&
    e.2.queues.all fun q => match q.2.issued with
      | some x => !mine x.firing || x.held.isSome || queueStuck s e.1 q.1
      | none => true) &&
  (s.ports.all fun e => !(e.2.incoming.any fun j => mine j.firing) &&
    e.2.gens.all fun g => match g.2 with | some j => !mine j.firing || j.held.isSome | none => true) &&
  (s.banks.all fun e => !(e.2.reqs.any fun q => mine q.firing) && !(e.2.late.any fun l => mine l.firing)) &&
  !(s.plumb.ups.any fun u => mine u.firing && !u.held) &&
  !(s.plumb.downs.any fun l => downMine s rid l.what && !landingStopped s l.what) &&
  s.link.reqs.all fun e => match e.2 with | some q => !mine q.firing || q.retryAt.isSome | none => true

def isFreezing (r : Region) : Bool := r.state == .loaded && r.stopped && r.thawAt.isNone

/-- The freeze takes effect, and then, once the region has drained, it is FROZEN and the FREEZEs that wait end with T. -/
def execFreezeEffect (rid : Nat) (s : State) : Host.Outcome State Fault Refusal :=
  let r := getRegion s rid
  .next (match r.freezeAt with
    | some t => if s.htime < t ∨ r.state ≠ .loaded ∨ r.stopped then s else stopRegion s rid t
    | none =>
      if isFreezing r && drained s rid then
        endWaits (reissue (setRegion s rid { r with state := .frozen }) rid fun b => b == .graphTurn) rid (word r.frozenAt)
          fun b => match b with
            | .freeze rd => some rd
            | _ => none
      else s)

/-! ### The thaw -/

/-- A held element is translated again after a thaw, under a new fault sequence (09 R316, 08 R283). -/
def releaseHeld (s : State) (rid : Nat) : State :=
  { s with ports := s.ports.map (fun e => (e.1, { e.2 with gens := e.2.gens.map fun g => (g.1, g.2.map fun j =>
             if j.firing.region = rid then { j with held := none } else j) })),
           clusters := s.clusters.map fun e => (e.1, { e.2 with queues := e.2.queues.map fun q => (q.1, { q.2 with
             issued := q.2.issued.map fun x => if x.firing.region = rid then { x with held := none } else x }) }) }

/-- A purge that was pending and not yet on Plumb at the freeze raises its signal (05 R180). -/
def raisePending (s : State) (rid : Nat) : State :=
  let r := getRegion s rid
  let underWay (t : Tag) : Bool := r.signals.any fun g => match g.2 with
    | .purge u _ => u == t
    | .fail u .. => u == t
    | .marker _ => false
  ((liveTags r).filter fun t => isPending s r t && !underWay t).foldl (fun s t => raisePurge s rid t) s

/-- The time that a configuration packet has waited counts no frozen ticks (05 R168; 04 R125). -/
def agePackets (s : State) (rid ticks : Nat) : State :=
  (regionClusters s (getRegion s rid)).foldl (fun s c =>
    if (getCluster s c).slots.any fun e => e.2.waiting.isSome then
      modCluster s c fun k => { k with slots := k.slots.map fun e =>
        if e.2.waiting.isSome then (e.1, { e.2 with since := e.2.since + ticks }) else e }
    else s) s

/-- On tick U the region runs again: limits and deadlines go on, captured tokens are released, waiters are rechecked, and
the THAWs that wait end with U. -/
def thawRegion (s : State) (rid u : Nat) : State :=
  let ticks := u - (getRegion s rid).frozenAt
  let s := modRegion s rid fun r =>
    { r with state := .loaded, stopped := false, thawAt := none, wdStart := r.wdStart + ticks,
             snapshot := r.snapshot.map fun p => { p with due := p.due + ticks } }
  let s := agePackets s rid ticks
  let s := linkThaw (bankThaw (plumbThaw (raisePending (releaseHeld (thawTokens s rid) rid) rid) rid ticks) rid) rid
  endWaits s rid (word u) fun b => match b with
    | .thaw rd => some rd
    | _ => none

def execThawEffect (rid : Nat) (s : State) : Host.Outcome State Fault Refusal :=
  .next (match (getRegion s rid).thawAt with
    | none => s
    | some u => if s.htime < u ∨ (getRegion s rid).state ≠ .loaded then s else thawRegion s rid u)

/-! ### Spanning regions (01 R32) -/

/-- The latest tick that a signal of the region names. -/
def signalTick (r : Region) : Nat :=
  (r.signals.map Prod.fst ++ r.freezeAt.toList ++ r.thawAt.toList).foldl max 0

/-- A spanning region has a signal that its member packages have not been told. -/
def relayDue (r : Region) : Bool := !r.span.isEmpty && decide (r.relayed < signalTick r)

/-- The Scewen ports lead to every member package. -/
def membersReached (s : State) (r : Region) : Bool := (memberPackages r).all fun p => p.toNat == ownPackage || (portToward s p).isSome

/-- Relay a signal, or, where a member is out of reach, freeze the region at the tick the signal names, be it a thaw's, and
raise SPAN_LOST with the entry of the first unreachable die index. -/
def execSpanSignalRelay (rid : Nat) (reached : Bool) (s : State) : Host.Outcome State Fault Refusal :=
  let r := getRegion s rid
  let t := signalTick r
  .next (if !relayDue r then s
    else
      let s := send (setRegion s rid { r with relayed := t }) (.relay rid t)
      if reached || r.lost then s
      else
        let out := (r.span.find? fun e => bits e.2 15 4 != ownPackage && (portToward s (e.2.extractLsb' 4 12)).isNone).getD ((r.span.head?).getD (0, 0))
        let s := modRegion s rid fun r =>
          { r with lost := true, freezeAt :=
              if r.state = .loaded ∧ (!r.stopped || r.thawAt.isSome) ∧ r.freezeAt.isNone then some t else r.freezeAt }
        raiseRegion s rid aSPAN_LOST (leBytes 8 out.2.toNat))

end Sys2Proof.Machine
end

