-- ==== Sys2Proof/Machine/HawkAlu.lean ====
section
/-! DEFINITION. The Hawk's integer and branch words (04 R133, R134, R136). -/

namespace Sys2Proof.Machine

/-- An integer word ends: rd receives a value and the next word follows. -/
def alu (s : State) (r : Reg) (v : Word) : Host.Outcome State Fault Refusal := .next (finishX s (cur s) r v)

def ofBool (b : Bool) : Word := if b then 1 else 0

/-- Quotients and remainders (R133). -/
def quotS (a b : Word) : Word := if b = 0 then 0xFFFFFFFFFFFFFFFF else BitVec.ofInt 64 (a.toInt.tdiv b.toInt)
def quotU (a b : Word) : Word := if b = 0 then 0xFFFFFFFFFFFFFFFF else a / b
def remS (a b : Word) : Word := if b = 0 then a else BitVec.ofInt 64 (a.toInt - b.toInt * a.toInt.tdiv b.toInt)
def remU (a b : Word) : Word := if b = 0 then a else a % b

def execAdd (r ra rb : Reg) (s : State) : Host.Outcome State Fault Refusal := alu s r (rx s ra + rx s rb)
def execSub (r ra rb : Reg) (s : State) : Host.Outcome State Fault Refusal := alu s r (rx s ra - rx s rb)
def execAnd (r ra rb : Reg) (s : State) : Host.Outcome State Fault Refusal := alu s r (rx s ra &&& rx s rb)
def execOr (r ra rb : Reg) (s : State) : Host.Outcome State Fault Refusal := alu s r (rx s ra ||| rx s rb)
def execXor (r ra rb : Reg) (s : State) : Host.Outcome State Fault Refusal := alu s r (rx s ra ^^^ rx s rb)
def execAndn (r ra rb : Reg) (s : State) : Host.Outcome State Fault Refusal := alu s r (rx s ra &&& ~~~(rx s rb))
def execShl (r ra rb : Reg) (s : State) : Host.Outcome State Fault Refusal := alu s r (rx s ra <<< ((rx s rb).toNat % 64))
def execShr (r ra rb : Reg) (s : State) : Host.Outcome State Fault Refusal := alu s r (rx s ra >>> ((rx s rb).toNat % 64))
def execSar (r ra rb : Reg) (s : State) : Host.Outcome State Fault Refusal :=
  alu s r ((rx s ra).sshiftRight ((rx s rb).toNat % 64))
def execSlt (r ra rb : Reg) (s : State) : Host.Outcome State Fault Refusal := alu s r (ofBool ((rx s ra).slt (rx s rb)))
def execSltn (r ra rb : Reg) (s : State) : Host.Outcome State Fault Refusal := alu s r (ofBool ((rx s ra).ult (rx s rb)))
def execMul (r ra rb : Reg) (s : State) : Host.Outcome State Fault Refusal := alu s r (rx s ra * rx s rb)
def execMulh (r ra rb : Reg) (s : State) : Host.Outcome State Fault Refusal :=
  alu s r (BitVec.ofInt 64 ((rx s ra).toInt * (rx s rb).toInt / 2 ^ 64))
def execMulhn (r ra rb : Reg) (s : State) : Host.Outcome State Fault Refusal :=
  alu s r (BitVec.ofNat 64 ((rx s ra).toNat * (rx s rb).toNat / 2 ^ 64))
def execDiv (r ra rb : Reg) (s : State) : Host.Outcome State Fault Refusal := alu s r (quotS (rx s ra) (rx s rb))
def execDivn (r ra rb : Reg) (s : State) : Host.Outcome State Fault Refusal := alu s r (quotU (rx s ra) (rx s rb))
def execRem (r ra rb : Reg) (s : State) : Host.Outcome State Fault Refusal := alu s r (remS (rx s ra) (rx s rb))
def execRemn (r ra rb : Reg) (s : State) : Host.Outcome State Fault Refusal := alu s r (remU (rx s ra) (rx s rb))

/-! ### Immediate forms (R134) -/

def execAddi (r ra : Reg) (imm : BitVec 16) (s : State) : Host.Outcome State Fault Refusal :=
  alu s r (rx s ra + imm.signExtend 64)
def execAndi (r ra : Reg) (imm : BitVec 16) (s : State) : Host.Outcome State Fault Refusal :=
  alu s r (rx s ra &&& imm.setWidth 64)
def execOri (r ra : Reg) (imm : BitVec 16) (s : State) : Host.Outcome State Fault Refusal :=
  alu s r (rx s ra ||| imm.setWidth 64)
def execXori (r ra : Reg) (imm : BitVec 16) (s : State) : Host.Outcome State Fault Refusal :=
  alu s r (rx s ra ^^^ imm.setWidth 64)
def execShli (r ra : Reg) (sh : BitVec 6) (s : State) : Host.Outcome State Fault Refusal := alu s r (rx s ra <<< sh.toNat)
def execShri (r ra : Reg) (sh : BitVec 6) (s : State) : Host.Outcome State Fault Refusal := alu s r (rx s ra >>> sh.toNat)
def execSari (r ra : Reg) (sh : BitVec 6) (s : State) : Host.Outcome State Fault Refusal :=
  alu s r ((rx s ra).sshiftRight sh.toNat)
def execSlti (r ra : Reg) (imm : BitVec 16) (s : State) : Host.Outcome State Fault Refusal :=
  alu s r (ofBool ((rx s ra).slt (imm.signExtend 64)))
def execLdhi (r : Reg) (imm : BitVec 16) (s : State) : Host.Outcome State Fault Refusal :=
  alu s r (imm.signExtend 64 <<< 16)
def execAddpc (r : Reg) (imm : BitVec 16) (s : State) : Host.Outcome State Fault Refusal :=
  alu s r ((getThread s (cur s)).pc + (imm.signExtend 64 <<< 16))

/-! ### Branches and jumps (R136) -/

def jumpTo (s : State) (th : Nat) (a : Word) : State := setThread s th { getThread s th with pc := a }

/-- A branch: to 4 × imm from its own address, or on. -/
def branch (s : State) (taken : Bool) (imm : BitVec 16) : Host.Outcome State Fault Refusal :=
  .next (if taken then jumpTo s (cur s) ((getThread s (cur s)).pc + (imm.signExtend 64 <<< 2)) else advance s (cur s))

def execBeq (r ra : Reg) (imm : BitVec 16) (s : State) : Host.Outcome State Fault Refusal :=
  branch s (rx s r == rx s ra) imm
def execBne (r ra : Reg) (imm : BitVec 16) (s : State) : Host.Outcome State Fault Refusal :=
  branch s (rx s r != rx s ra) imm
def execBlt (r ra : Reg) (imm : BitVec 16) (s : State) : Host.Outcome State Fault Refusal :=
  branch s ((rx s r).slt (rx s ra)) imm
def execBge (r ra : Reg) (imm : BitVec 16) (s : State) : Host.Outcome State Fault Refusal :=
  branch s (!(rx s r).slt (rx s ra)) imm
def execBltn (r ra : Reg) (imm : BitVec 16) (s : State) : Host.Outcome State Fault Refusal :=
  branch s ((rx s r).ult (rx s ra)) imm
def execBgen (r ra : Reg) (imm : BitVec 16) (s : State) : Host.Outcome State Fault Refusal :=
  branch s (!(rx s r).ult (rx s ra)) imm

def execJmpl (off : BitVec 26) (s : State) : Host.Outcome State Fault Refusal :=
  let th := cur s
  let t := (getThread s th).setX 30 ((getThread s th).pc + 4)
  .next (setThread s th { t with pc := t.pc + (off.signExtend 64 <<< 2) })

/-- A jump to xa; a target that is not a multiple of 4 traps MISALIGN. -/
def execJmpr (r ra : Reg) (s : State) : Host.Outcome State Fault Refusal :=
  let th := cur s
  let a := rx s ra
  .next (if a.toNat % 4 ≠ 0 then trap s th cMISALIGN 0 a
    else
      let t := (getThread s th).setX r ((getThread s th).pc + 4)
      setThread s th { t with pc := a })

/-- A word that no format, opcode or sub-code assigns traps ILLEGAL with no state changed (03 R83). -/
def execIllegalEncoding (w : BitVec 32) (s : State) : Host.Outcome State Fault Refusal :=
  .next (trap s (cur s) cILLEGAL 1 (w.setWidth 64))

end Sys2Proof.Machine
end

