-- ==== Sys2Proof/Machine/HawkFp.lean ====
section
/-! DEFINITION. The Hawk's floating-point words (04 R140). -/

namespace Sys2Proof.Machine

def fpHawk (single : Bool) : FP := if single then fpF32 else fpF64

/-- The rounding mode a word names, or HRMODE. -/
def hawkRound (s : State) : HRm → Rnd
  | .rne => .rne
  | .rtz => .rtz
  | .rup => .rup
  | .rdn => .rdn
  | .rna => .rna
  | .dyn => match (getThread s (cur s)).rmode.toNat with
    | 1 => .rtz
    | 2 => .rup
    | 3 => .rdn
    | 4 => .rna
    | _ => .rne

/-- The bits of a floating operand: an f32 operand ignores bits 63..32. -/
def fpBits (single : Bool) (w : Word) : Nat := if single then w.toNat % 2 ^ 32 else w.toNat

def fpArg (s : State) (single : Bool) (r : Reg) : Val := unpack (fpHawk single) (fpBits single (rd s r))

/-- End a floating-point word: FP_TRAP before anything is written when a raised flag's enable is set, otherwise the flags
are ORed into HFLAGS and the result is written. -/
def fpFinish (s : State) (raised : Flags) (put : State → State) : State :=
  let th := cur s
  let t := getThread s th
  let fl : BitVec 5 := raised.setWidth 5
  if fl &&& t.en ≠ 0 then trap s th cFP_TRAP 0 (fl.setWidth 64)
  else put (setThread s th { t with flags := t.flags ||| fl })

/-- A result in dd. -/
def fpD (s : State) (r : Reg) (x : Nat × Flags) : Host.Outcome State Fault Refusal :=
  .next (fpFinish s x.2 fun s => finishD s (cur s) r (BitVec.ofNat 64 x.1))

/-- A result in xd. -/
def fpX (s : State) (r : Reg) (x : Nat × Flags) : Host.Outcome State Fault Refusal :=
  .next (fpFinish s x.2 fun s => finishX s (cur s) r (BitVec.ofNat 64 x.1))

def execFadd (r ra rb : Reg) (rm : HRm) (sp : Bool) (s : State) : Host.Outcome State Fault Refusal :=
  fpD s r (fpAdd (fpHawk sp) (hawkRound s rm) false 0 (fpArg s sp ra) (fpArg s sp rb))
def execFsub (r ra rb : Reg) (rm : HRm) (sp : Bool) (s : State) : Host.Outcome State Fault Refusal :=
  fpD s r (fpSub (fpHawk sp) (hawkRound s rm) false 0 (fpArg s sp ra) (fpArg s sp rb))
def execFmul (r ra rb : Reg) (rm : HRm) (sp : Bool) (s : State) : Host.Outcome State Fault Refusal :=
  fpD s r (fpMul (fpHawk sp) (hawkRound s rm) false 0 (fpArg s sp ra) (fpArg s sp rb))
def execFdiv (r ra rb : Reg) (rm : HRm) (sp : Bool) (s : State) : Host.Outcome State Fault Refusal :=
  fpD s r (fpDiv (fpHawk sp) (hawkRound s rm) false 0 (fpArg s sp ra) (fpArg s sp rb))
def execFsqrt (r ra : Reg) (rm : HRm) (sp : Bool) (s : State) : Host.Outcome State Fault Refusal :=
  fpD s r (fpSqrt (fpHawk sp) (hawkRound s rm) false 0 (fpArg s sp ra))
def execFfma (r ra rb rc : Reg) (rm : HRm) (sp : Bool) (s : State) : Host.Outcome State Fault Refusal :=
  fpD s r (fpFma (fpHawk sp) (hawkRound s rm) false 0 (fpArg s sp ra) (fpArg s sp rb) (fpArg s sp rc))

/-- Minimum and maximum, which do not round. -/
def execFminIeee (r ra rb : Reg) (sp : Bool) (s : State) : Host.Outcome State Fault Refusal :=
  fpD s r (fpMinMax (fpHawk sp) false (fpBits sp (rd s ra)) (fpBits sp (rd s rb)))
def execFmaxIeee (r ra rb : Reg) (sp : Bool) (s : State) : Host.Outcome State Fault Refusal :=
  fpD s r (fpMinMax (fpHawk sp) true (fpBits sp (rd s ra)) (fpBits sp (rd s rb)))
def execFminNum (r ra rb : Reg) (sp : Bool) (s : State) : Host.Outcome State Fault Refusal :=
  fpD s r (fpMinMaxNum (fpHawk sp) false (fpBits sp (rd s ra)) (fpBits sp (rd s rb)))
def execFmaxNum (r ra rb : Reg) (sp : Bool) (s : State) : Host.Outcome State Fault Refusal :=
  fpD s r (fpMinMaxNum (fpHawk sp) true (fpBits sp (rd s ra)) (fpBits sp (rd s rb)))

/-- The predicates of FCMP: codes 0 EQ, 2 LT, 3 LE, 6 UN of fpCompare. -/
def fcmp (s : State) (fn : Nat) (ra rb : Reg) (sp : Bool) : Nat × Flags :=
  let c := fpCompare fn (fpArg s sp ra) (fpArg s sp rb)
  (if c.1 then 1 else 0, c.2)

def execFcmpEq (r ra rb : Reg) (sp : Bool) (s : State) : Host.Outcome State Fault Refusal := fpX s r (fcmp s 0 ra rb sp)
def execFcmpLt (r ra rb : Reg) (sp : Bool) (s : State) : Host.Outcome State Fault Refusal := fpX s r (fcmp s 2 ra rb sp)
def execFcmpLe (r ra rb : Reg) (sp : Bool) (s : State) : Host.Outcome State Fault Refusal := fpX s r (fcmp s 3 ra rb sp)
def execFcmpUn (r ra rb : Reg) (sp : Bool) (s : State) : Host.Outcome State Fault Refusal := fpX s r (fcmp s 6 ra rb sp)

/-- FCVT.ff: SP names the result's format. -/
def execFcvtFf (r ra : Reg) (rm : HRm) (sp : Bool) (s : State) : Host.Outcome State Fault Refusal :=
  fpD s r (fpConvert (fpHawk sp) (hawkRound s rm) false 0 (fpArg s (!sp) ra))
def execFcvtFromi (r ra : Reg) (rm : HRm) (sp : Bool) (s : State) : Host.Outcome State Fault Refusal :=
  fpD s r (intToFp (fpHawk sp) (hawkRound s rm) false 0 (rx s ra).toInt)
def execFcvtFromn (r ra : Reg) (rm : HRm) (sp : Bool) (s : State) : Host.Outcome State Fault Refusal :=
  fpD s r (intToFp (fpHawk sp) (hawkRound s rm) false 0 (rx s ra).toNat)
def execFcvtToi (r ra : Reg) (rm : HRm) (sp : Bool) (s : State) : Host.Outcome State Fault Refusal :=
  fpX s r (fpToInt .i64 (hawkRound s rm) false 0 (fpArg s sp ra))
def execFcvtTon (r ra : Reg) (rm : HRm) (sp : Bool) (s : State) : Host.Outcome State Fault Refusal :=
  fpX s r (fpToInt .n64 (hawkRound s rm) false 0 (fpArg s sp ra))
def execFcvtInt (r ra : Reg) (rm : HRm) (sp : Bool) (s : State) : Host.Outcome State Fault Refusal :=
  let x := fpIntegral (fpHawk sp) (hawkRound s rm) 0 (fpArg s sp ra)
  fpD s r (x.1, if x.2.1 then x.2.2 ||| fNX else x.2.2)

/-! ### FMOV: bits move, no flag is raised -/

def fpSign (single : Bool) : Nat := if single then 2 ^ 31 else 2 ^ 63

def execFmovMov (r ra : Reg) (sp : Bool) (s : State) : Host.Outcome State Fault Refusal :=
  fpD s r (fpBits sp (rd s ra), 0)
def execFmovFromx (r ra : Reg) (sp : Bool) (s : State) : Host.Outcome State Fault Refusal :=
  fpD s r (fpBits sp (rx s ra), 0)
def execFmovTox (r ra : Reg) (sp : Bool) (s : State) : Host.Outcome State Fault Refusal :=
  fpX s r (fpBits sp (rd s ra), 0)
def execFmovNeg (r ra : Reg) (sp : Bool) (s : State) : Host.Outcome State Fault Refusal :=
  fpD s r (fpBits sp (rd s ra) ^^^ fpSign sp, 0)
def execFmovAbs (r ra : Reg) (sp : Bool) (s : State) : Host.Outcome State Fault Refusal :=
  fpD s r (fpBits sp (rd s ra) % fpSign sp, 0)
def execFmovCpys (r ra rb : Reg) (sp : Bool) (s : State) : Host.Outcome State Fault Refusal :=
  fpD s r (fpBits sp (rd s ra) % fpSign sp + fpBits sp (rd s rb) / fpSign sp * fpSign sp, 0)

def execFclass (r ra : Reg) (sp : Bool) (s : State) : Host.Outcome State Fault Refusal :=
  fpX s r (fpClass (fpHawk sp) (fpBits sp (rd s ra)), 0)

end Sys2Proof.Machine
end

