-- ==== Sys2Proof/Machine/HawkSys.lean ====
section
/-! DEFINITION. The Hawk's system registers, traps, waits and causes (04 R108 to R111, R122, R127 to R130, R139). -/

namespace Sys2Proof.Machine

/-! ### System registers (R108 to R111) -/

inductive SysReg where
  | hstat | hcause | hxpc | hxval | hvec | hscratch | hflags | hrmode | htime | htimecmp | hwake | hregion | hasid | hsinks
  | hthread | capbase | hfring
  deriving DecidableEq, Repr

def sysReg (n : BitVec 16) : Option SysReg :=
  match n.toNat with
  | 0x00 => some .hstat
  | 0x01 => some .hcause
  | 0x02 => some .hxpc
  | 0x03 => some .hxval
  | 0x04 => some .hvec
  | 0x05 => some .hscratch
  | 0x08 => some .hflags
  | 0x09 => some .hrmode
  | 0x10 => some .htime
  | 0x11 => some .htimecmp
  | 0x12 => some .hwake
  | 0x18 => some .hregion
  | 0x19 => some .hasid
  | 0x1A => some .hsinks
  | 0x1B => some .hthread
  | 0x20 => some .capbase
  | 0x21 => some .hfring
  | _ => none

def SysReg.readOnly : SysReg → Bool
  | .htime | .hsinks | .hthread | .capbase | .hfring => true
  | _ => false

/-- Whether a guest may read or write the register. -/
def SysReg.guest (r : SysReg) (write : Bool) : Bool :=
  match r with
  | .hflags | .hrmode | .htimecmp => true
  | .hstat | .htime | .hregion | .hsinks | .hthread | .capbase => !write
  | _ => false

def pcbBase : Word := 0xFF00000002000000

/-- HSTAT (R109). -/
def hstatWord (t : Thread) : Word :=
  word (b2n t.halt * 32 + b2n t.wait * 16 + b2n t.pie * 8 + b2n t.ie * 4 + b2n t.pmode * 2 + b2n t.mode)

/-- What a system register reads as. -/
def readSys (s : State) (th : Nat) (r : SysReg) : Word :=
  let t := getThread s th
  match r with
  | .hstat => hstatWord t
  | .hcause => t.cause
  | .hxpc => t.xpc
  | .hxval => t.xval
  | .hvec => t.vec
  | .hscratch => t.scratch
  | .hflags => word (t.en.toNat * 256 + t.flags.toNat)
  | .hrmode => word t.rmode.toNat
  | .htime => word s.htime
  | .htimecmp => t.timecmp
  | .hwake => writeOnly s
  | .hregion => t.region
  | .hasid => word t.asid.toNat
  | .hsinks => word (hregion s t).hsinks.toNat
  | .hthread => word th
  | .capbase => pcbBase + 0xF400
  | .hfring => fringBase

/-- A write of 1 to bit i of HWAKE wakes thread i of the die (R108). -/
def hwakeWrite (s : State) (d : Nat) (v : Word) : State :=
  (List.range 8).foldl (fun s i => if v.getLsbD i then wakeThread s (8 * d + i) else s) s

/-- A write to HTIMECMP clears the timer event (R127). -/
def htimecmpWrite (s : State) (th : Nat) (v : Word) : State :=
  setThread s th { getThread s th with timecmp := v, timer := false }

def writeSys (s : State) (th : Nat) (r : SysReg) (v : Word) : State :=
  let t := getThread s th
  match r with
  | .hstat => setThread s th { t with pie := v.getLsbD 3, ie := v.getLsbD 2, pmode := v.getLsbD 1, mode := v.getLsbD 0 }
  | .hcause => setThread s th { t with cause := v &&& 0xFFFF01FF }
  | .hxpc => setThread s th { t with xpc := v }
  | .hxval => setThread s th { t with xval := v }
  | .hvec => setThread s th { t with vec := v &&& 0xFFFFFFFFFFFFFFFC }
  | .hscratch => setThread s th { t with scratch := v }
  | .hflags => setThread s th { t with en := v.extractLsb' 8 5, flags := v.extractLsb' 0 5 }
  | .hrmode => setThread s th { t with rmode := if bits v 2 0 ≤ 4 then v.extractLsb' 0 3 else t.rmode }
  | .htimecmp => htimecmpWrite s th v
  | .hwake => hwakeWrite s (th / 8) v
  | .hregion => setThread s th { t with region := v }
  | .hasid => setThread s th { t with asid := v.extractLsb' 0 32 }
  | _ => s

def execSysr (r : Reg) (n : BitVec 16) (s : State) : Host.Outcome State Fault Refusal :=
  let th := cur s
  .next (match sysReg n with
    | none => trap s th cILLEGAL 1 (wordOf (.sysr r n))
    | some x =>
      if !(getThread s th).mode && !x.guest false then trap s th cPRIV 0 (wordOf (.sysr r n))
      else finishX s th r (readSys s th x))

def execSysw (r : Reg) (n : BitVec 16) (s : State) : Host.Outcome State Fault Refusal :=
  let th := cur s
  .next (match sysReg n with
    | none => trap s th cILLEGAL 1 (wordOf (.sysw r n))
    | some x =>
      if x.readOnly then trap s th cILLEGAL 1 (wordOf (.sysw r n))
      else if !(getThread s th).mode && !x.guest true then trap s th cPRIV 0 (wordOf (.sysw r n))
      else advance (writeSys s th x (rx s r)) th)

def execHwakeWrite (d : Nat) (v : Word) (s : State) : Host.Outcome State Fault Refusal := .next (hwakeWrite s d v)
def execHtimecmpWrite (th : Nat) (v : Word) (s : State) : Host.Outcome State Fault Refusal := .next (htimecmpWrite s th v)

/-! ### Traps and their return (R128, R130) -/

def execTrap (imm : BitVec 16) (s : State) : Host.Outcome State Fault Refusal :=
  .next (trap s (cur s) cSWTRAP 0 (imm.signExtend 64))

def execSvc (imm : BitVec 16) (s : State) : Host.Outcome State Fault Refusal :=
  .next (trap s (cur s) cSVCALL 0 (imm.signExtend 64))

def execTret (s : State) : Host.Outcome State Fault Refusal :=
  .next (if (getThread s (cur s)).mode then leaveTrap s (cur s) else trap s (cur s) cPRIV 0 (wordOf .tret))

/-! ### Waiting (R127, R139) -/

/-- A cause that the thread would take at an instruction boundary. -/
def deliverable (t : Thread) : Bool := t.ie && !t.pending.isEmpty

/-- An event that ends a wait. -/
def hasEvent (t : Thread) : Bool := t.wake || t.timer || deliverable t

/-- WFE: an event not yet consumed ends it at once; otherwise the thread waits, with the next word to issue. -/
def execWfe (s : State) : Host.Outcome State Fault Refusal :=
  let th := cur s
  let t := getThread s th
  .next (setThread s th (if hasEvent t then { t with wake := false, pc := t.pc + 4 } else { t with wait := true, pc := t.pc + 4 }))

def execWfeWake (th : Nat) (s : State) : Host.Outcome State Fault Refusal :=
  let t := getThread s th
  .next (if t.wait && hasEvent t then setThread s th { t with wait := false, wake := false } else s)

def execTimerEvent (th : Nat) (s : State) : Host.Outcome State Fault Refusal :=
  let t := getThread s th
  .next (if t.timecmp.toNat ≤ s.htime then setThread s th { t with timer := true } else s)

/-! ### Asynchronous causes (R122, R129) -/

/-- The thread stands at an instruction boundary, or in a word that a cause abandons (R122). -/
def interruptible (t : Thread) : Bool :=
  match t.block with
  | .none | .snkpop .. | .inj .. => !t.halt
  | _ => false

/-- Deliver the oldest pending cause, which ends a wait: HXPC names the next word, or the word abandoned. -/
def execAsyncCauseDelivery (th : Nat) (s : State) : Host.Outcome State Fault Refusal :=
  let t := getThread s th
  .next (if !(deliverable t && interruptible t) then s
    else match t.pending with
      | [] => s
      | c :: rest =>
        let s := if c.record = 0 then s else setDie s (th / 8) { getDie s (th / 8) with undelivered := (getDie s (th / 8)).undelivered - 1 }
        let s := setThread s th { t with pending := rest, wait := false, wake := t.wake && !t.wait }
        enterTrap (nextCause s (th / 8)) th c.code.toNat true c.region t.pc c.record)

end Sys2Proof.Machine
end

