-- ==== Sys2Proof/Machine/Matrix.lean ====
section
/-! DEFINITION. The Matrix Engine (07 R221 to R248): products, weight bindings, the accumulators and the network mode. -/

namespace Sys2Proof.Machine

/-! ### Accumulators (R221, R247) -/

/-- The place of an accumulator element in its table. -/
def accKey (a row col : Nat) : Nat := a * 4096 + row * 64 + col

/-- A block of an accumulator. -/
structure AccBlock where
  a : Nat
  row : Nat
  col : Nat
  rows : Nat
  cols : Nat
  deriving DecidableEq, Repr

def AccBlock.cells (b : AccBlock) : List (Nat × Nat) :=
  (List.range b.rows).flatMap fun i => (List.range b.cols).map fun j => (b.row + i, b.col + j)

def AccBlock.fits (b : AccBlock) : Bool := decide (b.row + b.rows ≤ 64) && decide (b.col + b.cols ≤ 64)

def AccBlock.holds (b : AccBlock) (r c : Nat) : Bool :=
  decide (b.row ≤ r) && decide (r < b.row + b.rows) && decide (b.col ≤ c) && decide (c < b.col + b.cols)

def readAcc (k : Cluster) (a row col : Nat) : Nat := (Tab.get 0 k.acc (accKey a row col)).toNat

/-- Some word of the block reports an uncorrectable error. -/
def blockBad (k : Cluster) (b : AccBlock) : Bool :=
  b.cells.any fun x => Tab.get false k.accBad (accKey b.a x.1 (x.2 / 2 * 2))

/-- Write a block, element by element; the words it covers whole report no error any more (R247). -/
def writeBlock (k : Cluster) (b : AccBlock) (v : Nat → Nat → Nat) : Cluster :=
  let acc := b.cells.foldl (fun t x =>
    Tab.set 0 t (accKey b.a x.1 x.2) (BitVec.ofNat 32 (v (x.1 - b.row) (x.2 - b.col)))) k.acc
  let bad := b.cells.foldl (fun t x =>
    let c := x.2 / 2 * 2
    if b.holds x.1 c && b.holds x.1 (c + 1) then Tab.set false t (accKey b.a x.1 c) false else t) k.accBad
  { k with acc := acc, accBad := bad }

/-- The block named by IMM's ACC, AR and AC. -/
def blockAt (o : Op) (rows cols : Nat) : AccBlock :=
  { a := immBits o 30 30, row := immBits o 29 24, col := immBits o 23 18, rows := rows, cols := cols }

/-- The block of MACC.RD and MACC.CLR. -/
def immBlock (o : Op) : AccBlock := blockAt o (immBits o 17 12 + 1) (immBits o 11 6 + 1)

/-! ### Accumulation (R229 to R231) -/

def nan32 : Nat := 0x7FC00000

/-- The value of a tile's element (R231). -/
def Tile.value (t : Tile) (i j : Nat) : Val :=
  if t.fmt.isMx then mxValue t.fmt (t.at_ i j) (t.scaleAt i (j / 32)) else unpack (fpFor t.fmt) (t.at_ i j)

/-- A product of two elements: none for infinity times zero. -/
inductive Prod1 where
  | nan
  | inf (s : Bool)
  | fin (s : Bool) (m : Nat) (e : Int)
  deriving DecidableEq, Repr

/-- One product and the NV it raises: a signalling operand, or infinity times zero. -/
def product (a b : Val) : Prod1 × Flags :=
  let sg : Flags := if a.isSignalling || b.isSignalling then fNV else 0
  match a, b with
  | .nan .., _ | _, .nan .. => (.nan, sg)
  | .inf s, .inf t => (.inf (s != t), sg)
  | .inf s, .fin t m _ | .fin t m _, .inf s => if m = 0 then (.nan, fNV) else (.inf (s != t), sg)
  | .fin s m e, .fin t n g => (.fin (s != t) (m * n) (e + g), sg)

/-- The exact sum of finite products, with its sign: an exact zero is -0 only when every product is negative. -/
def exactSum (ps : List Prod1) : Bool × Nat × Int :=
  let fins := ps.filterMap fun p => match p with | .fin s m e => some (s, m, e) | _ => none
  let e := (fins.map fun p => p.2.2).foldl min ((fins.head?.map fun p => p.2.2).getD 0)
  let x : Int := (fins.map fun p =>
    let v : Int := Int.ofNat (p.2.1 * 2 ^ (p.2.2 - e).toNat)
    if p.1 then -v else v).foldl (· + ·) 0
  if x = 0 then (!fins.isEmpty && fins.all fun p => p.1, 0, e) else (decide (x < 0), x.natAbs, e)

/-- A block sum rounded to f32, with its flags (R229, R230). -/
def blockSum (m : Rnd) (sat : Bool) (ps : List (Prod1 × Flags)) : Nat × Flags :=
  let fl := orFlags (ps.map Prod.snd)
  let qs := ps.map Prod.fst
  let isNan := qs.contains .nan
  let pos := qs.contains (.inf false)
  let neg := qs.contains (.inf true)
  if isNan || (pos && neg) then (nan32, if pos && neg then fl ||| fNV else fl)
  else if pos || neg then (packInf fpF32 neg, fl)
  else
    let x := exactSum qs
    let r := roundPack fpF32 m sat 0 x.1 x.2.1 x.2.2 false
    (r.1, fl ||| r.2)

/-- acc + t (R230): every NaN is the array's own. -/
def accAdd (m : Rnd) (sat : Bool) (a t : Nat × Flags) : Nat × Flags :=
  let x := unpack fpF32 a.1
  let y := unpack fpF32 t.1
  let fl := a.2 ||| t.2
  if x.isNan || y.isNan then (nan32, fl)
  else
    let r := fpAdd fpF32 m sat 0 x y
    if (unpack fpF32 r.1).isNan then (nan32, fl ||| r.2) else (r.1, fl ||| r.2)

/-- One element of the result block: the old value unless INIT, then the K-blocks in order. A pruned position holds no
second factor. -/
def accumulate (m : Rnd) (sat : Bool) (old : Option Nat) (row : List (Val × Option Val)) : Nat × Flags :=
  let sums := (chunksOf 16 row).map fun blk => blockSum m sat (blk.filterMap fun e => e.2.map (product e.1))
  match old, sums with
  | some v, l => l.foldl (accAdd m sat) (v, 0)
  | none, [] => (0, 0)
  | none, s :: l => l.foldl (accAdd m sat) s

/-- The values of a row of A, and of a row of Bt. -/
def Tile.rowVals (t : Tile) (i : Nat) : List Val := (List.range t.epr).map (t.value i)

/-- A dense Bt's row, every position kept. -/
def denseRow (t : Tile) (i : Nat) : List (Option Val) := (t.rowVals i).map some

/-- Row i of the Bt that values and metadata stand for (R234). -/
def sparseRow (v d : Tile) (i : Nat) : List (Option Val) :=
  let ix := rowIndices true (d.elems.getD i [])
  (List.range (2 * v.epr)).map fun k =>
    if ix.getD (k / 4 * 2) 4 = k % 4 then some (v.value i (k / 4 * 2))
    else if ix.getD (k / 4 * 2 + 1) 4 = k % 4 then some (v.value i (k / 4 * 2 + 1))
    else none

/-- Accumulate a product into a block of the firing cluster, and complete with a payload. -/
def accumulateBlock (s : State) (f : Firing) (o : Op) (b : AccBlock) (payload : Nat) (row : Nat → List Val)
    (col : Nat → List (Option Val)) : Act :=
  let k := getCluster s f.cluster
  let init := immBit o 31
  if !init && blockBad k b then .purge
  else
    let res := (List.range b.rows).map fun i => (List.range b.cols).map fun j =>
      accumulate (rndOf f o) o.sat (if init then none else some (readAcc k b.a (b.row + i) (b.col + j)))
        ((row i).zip (col j))
    let fl := res.flatMap fun r => r.map Prod.snd
    let k := writeBlock k b fun i j => ((res.getD i []).getD j (0, 0)).1
    .done (setCluster s f.cluster k) (outAll s f o .scalar Flag.none (BitVec.ofNat 64 payload)) (orFlags fl)
      (firstTrap s f fl)

/-! ### Products (R223, R224, R232 to R236) -/

/-- The K limit of a format's class, dense (R224). -/
def kLimit (f : Fmt) : Nat :=
  match matrixClass f with
  | 0 => 64
  | 1 | 2 => 128
  | _ => 256

/-- BFMT, or FMT (R227). -/
def bFmt (o : Op) : Fmt := (matrixBfmt o).getD o.fmt

/-- The binding that WSEL names. -/
def selected (k : Cluster) (o : Op) : Binding := if immBits o 17 16 = 1 then k.w0 else k.w1

/-- Where a dense Bt comes from: a port, or the binding. none: no dense tile is bound. -/
def denseB (s : State) (f : Firing) (o : Op) : Option Word :=
  if immBits o 17 16 = 0 then (if isTile (tokAt f 1) then some (tokAt f 1).payload else none)
  else match selected (getCluster s f.cluster) o with
    | .dense h => some h
    | _ => none

/-- The values and metadata of a sparse Bt. -/
def sparseB (s : State) (f : Firing) (o : Op) : Option (Word × Word) :=
  if immBits o 17 16 = 0 then
    (if isTile (tokAt f 1) && isTile (tokAt f 2) then some ((tokAt f 1).payload, (tokAt f 2).payload) else none)
  else match selected (getCluster s f.cluster) o with
    | .sparse v d => some (v, d)
    | _ => none

/-- A condition of step 1. -/
def bounds (ok : Bool) : Option (BitVec 8) := if ok then none else some eBOUNDS

/-- The handle of a port's tile, if its token is one. -/
def handleAt (f : Firing) (i : Nat) : Option Handle := if isTile (tokAt f i) then some (handleOf (tokAt f i).payload) else none

/-- A condition on a tile; a port that has none breaks no condition. -/
def ifTile (h : Option Handle) (p : Handle → Bool) : Bool := (h.map p).getD true

/-- A condition on two tiles. -/
def ifTiles (g h : Option Handle) (p : Handle → Handle → Bool) : Bool := ifTile g fun a => ifTile h (p a)

/-- Step 1 of every handle of the binding in use, of whichever kind it is (R236). -/
def boundChecks (s : State) (f : Firing) : List (Option (BitVec 8)) :=
  (boundHandles s f.cluster f.word).map fun e => bounds (handleOk s f.cluster (handleOf e.1))

/-- The token flags of the ports in use. -/
def usedPoison (f : Firing) : Bool := f.toks.any fun t => t.flag.poison

def execMma (o : Op) (s : State) : Host.Outcome State Fault Refusal :=
  .next (fire s o fun s f =>
    let c := f.cluster
    let aw := (tokAt f 0).payload
    let a := handleAt f 0
    let bw := denseB s f o
    let b := bw.map handleOf
    let shapes := bounds (ifTile a (fun h => decide (h.rows ≤ 64) && decide (h.epr ≤ kLimit o.fmt) && (blockAt o h.rows 1).fits) &&
      ifTile b (fun h => decide (h.rows ≤ 64) && decide (h.epr ≤ kLimit o.fmt) && (blockAt o 1 h.rows).fits) &&
      ifTiles a b fun g h => g.epr == h.epr)
    let ea := if isTile (tokAt f 0) then checkTile s c aw (some [o.fmt]) else some eTYPE_MISMATCH
    let eb := match bw with
      | none => some eTYPE_MISMATCH
      | some w => checkTile s c w (some [bFmt o])
    match firstError ([shapes, ea, eb] ++ boundChecks s f) with
    | some e => .error e 0
    | none =>
      if usedPoison f then .purge
      else
        let (s, a, pa) := readTile s c aw
        let (s, b, pb) := readTile s c (bw.getD 0)
        if pa || pb then .purge
        else accumulateBlock s f o (blockAt o a.rows b.rows) a.epr a.rowVals (denseRow b))

/-- The shapes of values and metadata against each other (R234). -/
def sparseShapes (vh dh : Handle) : Bool :=
  dh.rows == vh.rows && vh.epr % 4 == 0 && dh.epr == vh.epr / 4

def execMmaSp (o : Op) (s : State) : Host.Outcome State Fault Refusal :=
  .next (fire s o fun s f =>
    let c := f.cluster
    let aw := (tokAt f 0).payload
    let a := handleAt f 0
    let bw := sparseB s f o
    let fromPorts := immBits o 17 16 == 0
    let v := if fromPorts then handleAt f 1 else bw.map fun w => handleOf w.1
    let d := if fromPorts then handleAt f 2 else bw.map fun w => handleOf w.2
    let shapes := bounds (ifTile a (fun h => decide (h.rows ≤ 64) && h.epr % 8 == 0 && decide (h.epr ≤ 2 * kLimit o.fmt) &&
        (blockAt o h.rows 1).fits) &&
      ifTile v (fun h => decide (h.rows ≤ 64) && h.epr % 4 == 0 && decide (h.epr ≤ kLimit o.fmt) && (blockAt o 1 h.rows).fits) &&
      ifTiles a v (fun g h => g.epr == 2 * h.epr) && ifTiles v d sparseShapes)
    let ea := if isTile (tokAt f 0) then checkTile s c aw (some [o.fmt]) else some eTYPE_MISMATCH
    let port (i : Nat) (g : Fmt) : Option (BitVec 8) :=
      if isTile (tokAt f i) then checkTile s c (tokAt f i).payload (some [g]) else some eTYPE_MISMATCH
    let eb := match bw with
      | none => if fromPorts then [port 1 (bFmt o), port 2 .n8] else [some eTYPE_MISMATCH]
      | some w => [checkTile s c w.1 (some [bFmt o]), checkTile s c w.2 (some [.n8])]
    match firstError ([shapes, ea] ++ eb ++ boundChecks s f) with
    | some e => .error e 0
    | none =>
      if usedPoison f then .purge
      else
        let (s, a, pa) := readTile s c aw
        let (s, v, pv) := readTile s c (bw.getD (0, 0)).1
        let (s, d, pd) := readTile s c (bw.getD (0, 0)).2
        if pa || pv || pd then .purge
        else match badMeta 4 2 true v.epr d.elems with
          | some e => .error eBOUNDS e
          | none => accumulateBlock s f o (blockAt o a.rows v.rows) a.epr a.rowVals (sparseRow v d))

def execMouter (o : Op) (s : State) : Host.Outcome State Fault Refusal :=
  .next (fire s o fun s f =>
    let c := f.cluster
    let (at_, bt) := (tokAt f 0, tokAt f 1)
    let shapes := bounds (ifTile (handleAt f 0) (fun h => h.rows == 1 && decide (h.epr ≤ 64) && (blockAt o h.epr 1).fits) &&
      ifTile (handleAt f 1) fun h => h.rows == 1 && decide (h.epr ≤ 64) && (blockAt o 1 h.epr).fits)
    let one (t : Tok) (g : Fmt) : Option (BitVec 8) :=
      if isTile t then checkTile s c t.payload (some [g]) else some eTYPE_MISMATCH
    match firstError [shapes, one at_ o.fmt, one bt (bFmt o)] with
    | some e => .error e 0
    | none =>
      if usedPoison f then .purge
      else
        let (s, a, pa) := readTile s c at_.payload
        let (s, b, pb) := readTile s c bt.payload
        if pa || pb then .purge
        else accumulateBlock s f o (blockAt o a.epr b.epr) 1 (fun i => [a.value 0 i]) (fun j => [some (b.value 0 j)]))

/-! ### Weight bindings (R235) -/

def bind (s : State) (c : Nat) (o : Op) (b : Binding) : State :=
  modCluster s c fun k => if immBit o 0 then { k with w1 := b } else { k with w0 := b }

/-- A handle that may be bound: pinned or quad-remote, of at most 64 rows. -/
def bindable (h : Handle) : Bool := (h.res == 1 || h.res == 2) && decide (h.rows ≤ 64)

def execMwload (o : Op) (s : State) : Host.Outcome State Fault Refusal :=
  .next (fire s o fun s f =>
    let c := f.cluster
    let t := tokAt f 0
    let d := tokAt f 1
    let done (s : State) (w : Word) : Act := .done s (outAll s f o .scalar Flag.none w) 0 0
    if !isTile t then
      if !isScalar t || t.payload != 0 then
        .error ((firstError [bounds (!immBit o 1 || ifTile (handleAt f 1) (handleOk s c)), some eTYPE_MISMATCH]).getD eBOUNDS) 0
      else if t.flag.poison then .purge
      else done (bind s c o .unbound) 0
    else
      let h := handleOf t.payload
      if !immBit o 1 then
        match firstError [bounds (bindable h), checkTile s c t.payload (some [o.fmt])] with
        | some e => .error e 0
        | none => if t.flag.poison then .purge else done (bind s c o (.dense t.payload)) t.payload
      else
        let ok := bindable h && h.epr % 4 == 0 && decide (h.epr ≤ kLimit o.fmt) &&
          ifTile (handleAt f 1) fun dh =>
            sparseShapes h dh && h.res == dh.res && h.owner == dh.owner && dh.pitch == pitchFor .n8 dh.epr
        let ed := if isTile d then checkTile s c d.payload (some [.n8]) else some eTYPE_MISMATCH
        match firstError [bounds ok, checkTile s c t.payload (some [o.fmt]), ed] with
        | some e => .error e 0
        | none =>
          if usedPoison f then .purge
          else
            let (s, m, pd) := readTile s c d.payload
            if pd then .purge
            else match badMeta 4 2 true h.epr m.elems with
              | some e => .error eBOUNDS e
              | none => done (bind s c o (.sparse t.payload d.payload)) t.payload)

/-! ### Reading and writing the accumulators (R237 to R239) -/

def execMaccRd (o : Op) (s : State) : Host.Outcome State Fault Refusal :=
  .next (fire s o fun s f =>
    let g := (immFmt o 36 32).getD .f32
    let b := immBlock o
    let k := getCluster s f.cluster
    if !shapeFits g b.rows b.cols then .error eBOUNDS 0
    else if blockBad k b then .purge
    else
      let res := (List.range b.rows).map fun i => (List.range b.cols).map fun j =>
        convertElem .f32 g (rndOf f o) o.sat (rstBits s f (i * b.cols + j)) (readAcc k b.a (b.row + i) (b.col + j))
      let s := if immBit o 31 then setCluster s f.cluster (writeBlock k b fun _ _ => 0) else s
      tileResult s f o { fmt := g, epr := b.cols, elems := res.map fun r => r.map Prod.fst, scales := [] }
        (res.flatMap fun r => r.map Prod.snd) false)

def execMaccWr (o : Op) (s : State) : Host.Outcome State Fault Refusal :=
  .next (fire s o fun s f =>
    let t := tokAt f 0
    let h := handleOf t.payload
    let b := blockAt o h.rows h.epr
    let ok := decide (h.rows ≤ 64) && decide (h.epr ≤ 64) && b.fits
    match (if isTile t then firstError [bounds ok, checkTile s f.cluster t.payload (some [o.fmt])]
           else some eTYPE_MISMATCH) with
    | some e => .error e 0
    | none =>
      if t.flag.poison then .purge
      else
        let (s, x, bad) := readTile s f.cluster t.payload
        if bad then .purge
        else
          let res := x.elems.map fun r => r.map fun e => fpConvert fpF32 .rne false 0 (unpack (fpFor o.fmt) e)
          let fl := res.flatMap fun r => r.map Prod.snd
          let s := modCluster s f.cluster fun k => writeBlock k b fun i j => ((res.getD i []).getD j (0, 0)).1
          .done s (outAll s f o .scalar Flag.none 0) (orFlags fl) (firstTrap s f fl))

def execMaccClr (o : Op) (s : State) : Host.Outcome State Fault Refusal :=
  .next (fire s o fun s f =>
    .done (modCluster s f.cluster fun k => writeBlock k (immBlock o) fun _ _ => 0)
      (outAll s f o .scalar Flag.none 0) 0 0)

/-! ### The network mode (R242 to R246) -/

/-- The order of keys: integers by value, floating patterns by Tot. -/
def keyOrder (f : Fmt) (p : Nat) : Int :=
  if f.isInt then intOf f p
  else
    let half := 2 ^ (fmtBits f - 1)
    if p < half then Int.ofNat (p + half) else Int.ofNat half - 1 - Int.ofNat (p % half)

def keyBefore (f : Fmt) (desc : Bool) (x y : Nat) : Bool :=
  if desc then decide (keyOrder f y < keyOrder f x) else decide (keyOrder f x < keyOrder f y)

/-- Insert a key after every key that it does not go before. -/
def insertKey (f : Fmt) (desc : Bool) (x : Nat × Nat) : List (Nat × Nat) → List (Nat × Nat)
  | [] => [x]
  | y :: l => if keyBefore f desc x.1 y.1 then x :: y :: l else y :: insertKey f desc x l

/-- A row's keys with their indices, stably sorted. -/
def sortRow (f : Fmt) (desc : Bool) (row : List Nat) : List (Nat × Nat) :=
  (row.zip (List.range row.length)).foldl (fun acc x => insertKey f desc x acc) []

/-- Keys on DST0, and indices on DST1 where it is valid. -/
def keysResult (s : State) (f : Firing) (o : Op) (rows : List (List (Nat × Nat))) : Act :=
  let n := (rows.headD []).length
  let keys : Tile := { fmt := o.fmt, epr := n, elems := rows.map fun r => r.map Prod.fst, scales := [] }
  let ix : Tile := { fmt := .n16, epr := n, elems := rows.map fun r => r.map Prod.snd, scales := [] }
  if !shapeFits o.fmt rows.length n || !shapeFits .n16 rows.length n then .error eBOUNDS 0
  else
    let parts := [(keys, atPlace s f o 0)] ++ if o.dst1.valid then [(ix, atPlace s f o 1)] else []
    match putTiles s f false parts with
    | none => .hold
    | some (s, outs) => .done s outs 0 0

def fireSort (s : State) (o : Op) (desc : Bool) (keep : Nat → Option Nat) : State :=
  fire s o fun s f => withArgs s f o [tileOnly o.fmt] fun s as _ =>
    match as with
    | [.tile t] =>
      if 64 < t.rows ∨ 64 < t.epr then .error eBOUNDS 0
      else match keep t.epr with
        | none => .error eBOUNDS 0
        | some n => keysResult s f o (t.elems.map fun r => (sortRow o.fmt desc r).take n)
    | _ => .error eTYPE_MISMATCH 0

def execMsort (o : Op) (s : State) : Host.Outcome State Fault Refusal := .next (fireSort s o (immBit o 0) some)
def execMtopk (o : Op) (s : State) : Host.Outcome State Fault Refusal :=
  .next (fireSort s o (immBit o 0) fun n => if n < immBits o 8 1 + 1 then none else some (immBits o 8 1 + 1))

/-- The merge of R245: B goes first only where its key is strictly before A's. -/
def mergeRows (f : Fmt) (desc : Bool) : Nat → List (Nat × Nat) → List (Nat × Nat) → List (Nat × Nat)
  | 0, _, _ => []
  | n + 1, a, b =>
    match a, b with
    | [], [] => []
    | x :: a, [] => x :: mergeRows f desc n a []
    | [], y :: b => y :: mergeRows f desc n [] b
    | x :: a, y :: b =>
      if keyBefore f desc y.1 x.1 then y :: mergeRows f desc n (x :: a) b else x :: mergeRows f desc n a (y :: b)

def execMmerge (o : Op) (s : State) : Host.Outcome State Fault Refusal :=
  let key : VPort := { tileOnly o.fmt with shaped := false }
  let ind : VPort := { tileOnly .n16 with shaped := false }
  let four := o.nports == 4
  .next (fire s o fun s f => withArgs s f o (if four then [key, ind, key, ind] else [key, key]) fun s as _ =>
    let go (a b : Tile) (ia ib : Nat → Nat → Nat) : Act :=
      if a.rows ≠ b.rows ∨ 64 < a.rows ∨ 64 < a.epr ∨ 64 < b.epr then .error eBOUNDS 0
      else
        let row (t : Tile) (ix : Nat → Nat → Nat) (i : Nat) : List (Nat × Nat) :=
          (List.range t.epr).map fun j => (t.at_ i j, ix i j)
        keysResult s f o ((List.range a.rows).map fun i =>
          mergeRows o.fmt (immBit o 0) (a.epr + b.epr) (row a ia i) (row b ib i))
    match as with
    | [.tile a, .tile b] => go a b (fun _ j => j) (fun _ j => a.epr + j)
    | [.tile a, .tile x, .tile b, .tile y] =>
      if x.rows ≠ a.rows ∨ x.epr ≠ a.epr ∨ y.rows ≠ b.rows ∨ y.epr ≠ b.epr then .error eBOUNDS 0
      else go a b x.at_ y.at_
    | _ => .error eTYPE_MISMATCH 0)

def execMtrans (o : Op) (s : State) : Host.Outcome State Fault Refusal :=
  .next (fire s o fun s f => withArgs s f o [tileOnly o.fmt] fun s as _ =>
    match as with
    | [.tile a] =>
      if 64 < a.rows ∨ 64 < a.epr then .error eBOUNDS 0
      else tileResult s f o (tileFrom o.fmt a.epr a.rows fun i j => a.at_ j i) [] false
    | _ => .error eTYPE_MISMATCH 0)

end Sys2Proof.Machine
end

