-- ==== Sys2Proof/Machine/Dispatch.lean ====
section
/-! DEFINITION. The meaning of every instruction: one arm for each, one direct call of its meaning. -/

namespace Sys2Proof.Machine

def exec (i : Instr) (s : State) : Host.Outcome State Fault Refusal :=
  match i with
  | .add rd ra rb => Sys2Proof.Machine.execAdd rd ra rb s
  | .sub rd ra rb => Sys2Proof.Machine.execSub rd ra rb s
  | .and rd ra rb => Sys2Proof.Machine.execAnd rd ra rb s
  | .or rd ra rb => Sys2Proof.Machine.execOr rd ra rb s
  | .xor rd ra rb => Sys2Proof.Machine.execXor rd ra rb s
  | .andn rd ra rb => Sys2Proof.Machine.execAndn rd ra rb s
  | .shl rd ra rb => Sys2Proof.Machine.execShl rd ra rb s
  | .shr rd ra rb => Sys2Proof.Machine.execShr rd ra rb s
  | .sar rd ra rb => Sys2Proof.Machine.execSar rd ra rb s
  | .slt rd ra rb => Sys2Proof.Machine.execSlt rd ra rb s
  | .sltn rd ra rb => Sys2Proof.Machine.execSltn rd ra rb s
  | .mul rd ra rb => Sys2Proof.Machine.execMul rd ra rb s
  | .mulh rd ra rb => Sys2Proof.Machine.execMulh rd ra rb s
  | .mulhn rd ra rb => Sys2Proof.Machine.execMulhn rd ra rb s
  | .div rd ra rb => Sys2Proof.Machine.execDiv rd ra rb s
  | .divn rd ra rb => Sys2Proof.Machine.execDivn rd ra rb s
  | .rem rd ra rb => Sys2Proof.Machine.execRem rd ra rb s
  | .remn rd ra rb => Sys2Proof.Machine.execRemn rd ra rb s
  | .addi rd ra imm => Sys2Proof.Machine.execAddi rd ra imm s
  | .andi rd ra imm => Sys2Proof.Machine.execAndi rd ra imm s
  | .ori rd ra imm => Sys2Proof.Machine.execOri rd ra imm s
  | .xori rd ra imm => Sys2Proof.Machine.execXori rd ra imm s
  | .shli rd ra sh => Sys2Proof.Machine.execShli rd ra sh s
  | .shri rd ra sh => Sys2Proof.Machine.execShri rd ra sh s
  | .sari rd ra sh => Sys2Proof.Machine.execSari rd ra sh s
  | .slti rd ra imm => Sys2Proof.Machine.execSlti rd ra imm s
  | .ldhi rd imm => Sys2Proof.Machine.execLdhi rd imm s
  | .addpc rd imm => Sys2Proof.Machine.execAddpc rd imm s
  | .ldb rd ra imm => Sys2Proof.Machine.execLdb rd ra imm s
  | .ldh rd ra imm => Sys2Proof.Machine.execLdh rd ra imm s
  | .ldw rd ra imm => Sys2Proof.Machine.execLdw rd ra imm s
  | .ldd rd ra imm => Sys2Proof.Machine.execLdd rd ra imm s
  | .ldbn rd ra imm => Sys2Proof.Machine.execLdbn rd ra imm s
  | .ldhn rd ra imm => Sys2Proof.Machine.execLdhn rd ra imm s
  | .ldwn rd ra imm => Sys2Proof.Machine.execLdwn rd ra imm s
  | .stb rd ra imm => Sys2Proof.Machine.execStb rd ra imm s
  | .sth rd ra imm => Sys2Proof.Machine.execSth rd ra imm s
  | .stw rd ra imm => Sys2Proof.Machine.execStw rd ra imm s
  | .std rd ra imm => Sys2Proof.Machine.execStd rd ra imm s
  | .beq rd ra imm => Sys2Proof.Machine.execBeq rd ra imm s
  | .bne rd ra imm => Sys2Proof.Machine.execBne rd ra imm s
  | .blt rd ra imm => Sys2Proof.Machine.execBlt rd ra imm s
  | .bge rd ra imm => Sys2Proof.Machine.execBge rd ra imm s
  | .bltn rd ra imm => Sys2Proof.Machine.execBltn rd ra imm s
  | .bgen rd ra imm => Sys2Proof.Machine.execBgen rd ra imm s
  | .jmpl off => Sys2Proof.Machine.execJmpl off s
  | .jmpr rd ra => Sys2Proof.Machine.execJmpr rd ra s
  | .fadd rd ra rb rm single => Sys2Proof.Machine.execFadd rd ra rb rm single s
  | .fsub rd ra rb rm single => Sys2Proof.Machine.execFsub rd ra rb rm single s
  | .fmul rd ra rb rm single => Sys2Proof.Machine.execFmul rd ra rb rm single s
  | .fdiv rd ra rb rm single => Sys2Proof.Machine.execFdiv rd ra rb rm single s
  | .fsqrt rd ra rm single => Sys2Proof.Machine.execFsqrt rd ra rm single s
  | .fminIeee rd ra rb single => Sys2Proof.Machine.execFminIeee rd ra rb single s
  | .fminNum rd ra rb single => Sys2Proof.Machine.execFminNum rd ra rb single s
  | .fmaxIeee rd ra rb single => Sys2Proof.Machine.execFmaxIeee rd ra rb single s
  | .fmaxNum rd ra rb single => Sys2Proof.Machine.execFmaxNum rd ra rb single s
  | .fcmpEq rd ra rb single => Sys2Proof.Machine.execFcmpEq rd ra rb single s
  | .fcmpLt rd ra rb single => Sys2Proof.Machine.execFcmpLt rd ra rb single s
  | .fcmpLe rd ra rb single => Sys2Proof.Machine.execFcmpLe rd ra rb single s
  | .fcmpUn rd ra rb single => Sys2Proof.Machine.execFcmpUn rd ra rb single s
  | .fcvtFf rd ra rm single => Sys2Proof.Machine.execFcvtFf rd ra rm single s
  | .fcvtFromi rd ra rm single => Sys2Proof.Machine.execFcvtFromi rd ra rm single s
  | .fcvtFromn rd ra rm single => Sys2Proof.Machine.execFcvtFromn rd ra rm single s
  | .fcvtToi rd ra rm single => Sys2Proof.Machine.execFcvtToi rd ra rm single s
  | .fcvtTon rd ra rm single => Sys2Proof.Machine.execFcvtTon rd ra rm single s
  | .fcvtInt rd ra rm single => Sys2Proof.Machine.execFcvtInt rd ra rm single s
  | .fmovMov rd ra single => Sys2Proof.Machine.execFmovMov rd ra single s
  | .fmovFromx rd ra single => Sys2Proof.Machine.execFmovFromx rd ra single s
  | .fmovTox rd ra single => Sys2Proof.Machine.execFmovTox rd ra single s
  | .fmovNeg rd ra single => Sys2Proof.Machine.execFmovNeg rd ra single s
  | .fmovAbs rd ra single => Sys2Proof.Machine.execFmovAbs rd ra single s
  | .fmovCpys rd ra rb single => Sys2Proof.Machine.execFmovCpys rd ra rb single s
  | .fclass rd ra single => Sys2Proof.Machine.execFclass rd ra single s
  | .ffma rd ra rb rc rm single => Sys2Proof.Machine.execFfma rd ra rb rc rm single s
  | .fld rd ra imm => Sys2Proof.Machine.execFld rd ra imm s
  | .fst rd ra imm => Sys2Proof.Machine.execFst rd ra imm s
  | .atomSwap rd ra rb scope word32 => Sys2Proof.Machine.execAtomSwap rd ra rb scope word32 s
  | .atomAdd rd ra rb scope word32 => Sys2Proof.Machine.execAtomAdd rd ra rb scope word32 s
  | .atomAnd rd ra rb scope word32 => Sys2Proof.Machine.execAtomAnd rd ra rb scope word32 s
  | .atomOr rd ra rb scope word32 => Sys2Proof.Machine.execAtomOr rd ra rb scope word32 s
  | .atomXor rd ra rb scope word32 => Sys2Proof.Machine.execAtomXor rd ra rb scope word32 s
  | .atomMin rd ra rb scope word32 => Sys2Proof.Machine.execAtomMin rd ra rb scope word32 s
  | .atomMax rd ra rb scope word32 => Sys2Proof.Machine.execAtomMax rd ra rb scope word32 s
  | .atomMinn rd ra rb scope word32 => Sys2Proof.Machine.execAtomMinn rd ra rb scope word32 s
  | .atomMaxn rd ra rb scope word32 => Sys2Proof.Machine.execAtomMaxn rd ra rb scope word32 s
  | .atomCas rd ra rb scope word32 => Sys2Proof.Machine.execAtomCas rd ra rb scope word32 s
  | .fence scope => Sys2Proof.Machine.execFence scope s
  | .sysr rd num => Sys2Proof.Machine.execSysr rd num s
  | .sysw rd num => Sys2Proof.Machine.execSysw rd num s
  | .trap imm => Sys2Proof.Machine.execTrap imm s
  | .tret => Sys2Proof.Machine.execTret s
  | .wfe => Sys2Proof.Machine.execWfe s
  | .svc imm => Sys2Proof.Machine.execSvc imm s
  | .gload rd ra entry => Sys2Proof.Machine.execGload rd ra entry s
  | .inj rd ra rb new fen => Sys2Proof.Machine.execInj rd ra rb new fen s
  | .snkpop rd rb wait => Sys2Proof.Machine.execSnkpop rd rb wait s
  | .freeze rd => Sys2Proof.Machine.execFreeze rd s
  | .scan rd ra => Sys2Proof.Machine.execScan rd ra s
  | .restore rd ra => Sys2Proof.Machine.execRestore rd ra s
  | .opwr rd ra rb => Sys2Proof.Machine.execOpwr rd ra rb s
  | .diagstHbm rd ra rb => Sys2Proof.Machine.execDiagstHbm rd ra rb s
  | .diagstBank rd ra rb => Sys2Proof.Machine.execDiagstBank rd ra rb s
  | .diagstSp rd ra rb => Sys2Proof.Machine.execDiagstSp rd ra rb s
  | .thaw rd => Sys2Proof.Machine.execThaw rd s
  | .pass op => Sys2Proof.Machine.execPass op s
  | .const op => Sys2Proof.Machine.execConst op s
  | .dup op => Sys2Proof.Machine.execDup op s
  | .route op => Sys2Proof.Machine.execRoute op s
  | .steer op => Sys2Proof.Machine.execSteer op s
  | .gate op => Sys2Proof.Machine.execGate op s
  | .sel op => Sys2Proof.Machine.execSel op s
  | .join op => Sys2Proof.Machine.execJoin op s
  | .drop op => Sys2Proof.Machine.execDrop op s
  | .sink op => Sys2Proof.Machine.execSink op s
  | .src op => Sys2Proof.Machine.execSrc op s
  | .tagx op => Sys2Proof.Machine.execTagx op s
  | .ctxEnter op => Sys2Proof.Machine.execCtxEnter op s
  | .ctxNext op => Sys2Proof.Machine.execCtxNext op s
  | .ctxExit op => Sys2Proof.Machine.execCtxExit op s
  | .invSet op => Sys2Proof.Machine.execInvSet op s
  | .invGet op => Sys2Proof.Machine.execInvGet op s
  | .flagsGet op => Sys2Proof.Machine.execFlagsGet op s
  | .flagsClr op => Sys2Proof.Machine.execFlagsClr op s
  | .sadd op => Sys2Proof.Machine.execSadd op s
  | .ssub op => Sys2Proof.Machine.execSsub op s
  | .smul op => Sys2Proof.Machine.execSmul op s
  | .smad op => Sys2Proof.Machine.execSmad op s
  | .scmp op => Sys2Proof.Machine.execScmp op s
  | .slog op => Sys2Proof.Machine.execSlog op s
  | .sshf op => Sys2Proof.Machine.execSshf op s
  | .sminmax op => Sys2Proof.Machine.execSminmax op s
  | .pfence op => Sys2Proof.Machine.execPfence op s
  | .splice op => Sys2Proof.Machine.execSplice op s
  | .cmpx op => Sys2Proof.Machine.execCmpx op s
  | .mark op => Sys2Proof.Machine.execMark op s
  | .vadd op => Sys2Proof.Machine.execVadd op s
  | .vsub op => Sys2Proof.Machine.execVsub op s
  | .vmul op => Sys2Proof.Machine.execVmul op s
  | .vfma op => Sys2Proof.Machine.execVfma op s
  | .vfms op => Sys2Proof.Machine.execVfms op s
  | .vdiv op => Sys2Proof.Machine.execVdiv op s
  | .vsqrt op => Sys2Proof.Machine.execVsqrt op s
  | .vrsqrt op => Sys2Proof.Machine.execVrsqrt op s
  | .vmin op => Sys2Proof.Machine.execVmin op s
  | .vmax op => Sys2Proof.Machine.execVmax op s
  | .vminn op => Sys2Proof.Machine.execVminn op s
  | .vmaxn op => Sys2Proof.Machine.execVmaxn op s
  | .vabs op => Sys2Proof.Machine.execVabs op s
  | .vneg op => Sys2Proof.Machine.execVneg op s
  | .vcpys op => Sys2Proof.Machine.execVcpys op s
  | .vscale op => Sys2Proof.Machine.execVscale op s
  | .vrnd op => Sys2Proof.Machine.execVrnd op s
  | .vclass op => Sys2Proof.Machine.execVclass op s
  | .vcmp op => Sys2Proof.Machine.execVcmp op s
  | .vcvt op => Sys2Proof.Machine.execVcvt op s
  | .vsplit op => Sys2Proof.Machine.execVsplit op s
  | .vexp op => Sys2Proof.Machine.execVexp op s
  | .vexpm1 op => Sys2Proof.Machine.execVexpm1 op s
  | .vlog op => Sys2Proof.Machine.execVlog op s
  | .vlog1p op => Sys2Proof.Machine.execVlog1p op s
  | .verf op => Sys2Proof.Machine.execVerf op s
  | .verfc op => Sys2Proof.Machine.execVerfc op s
  | .vexp2 op => Sys2Proof.Machine.execVexp2 op s
  | .vlog2 op => Sys2Proof.Machine.execVlog2 op s
  | .viadd op => Sys2Proof.Machine.execViadd op s
  | .visub op => Sys2Proof.Machine.execVisub op s
  | .vimul op => Sys2Proof.Machine.execVimul op s
  | .vimulh op => Sys2Proof.Machine.execVimulh op s
  | .vimad op => Sys2Proof.Machine.execVimad op s
  | .vimin op => Sys2Proof.Machine.execVimin op s
  | .vimax op => Sys2Proof.Machine.execVimax op s
  | .vicmp op => Sys2Proof.Machine.execVicmp op s
  | .vand op => Sys2Proof.Machine.execVand op s
  | .vor op => Sys2Proof.Machine.execVor op s
  | .vxor op => Sys2Proof.Machine.execVxor op s
  | .vshl op => Sys2Proof.Machine.execVshl op s
  | .vshr op => Sys2Proof.Machine.execVshr op s
  | .vsar op => Sys2Proof.Machine.execVsar op s
  | .vpopc op => Sys2Proof.Machine.execVpopc op s
  | .vclz op => Sys2Proof.Machine.execVclz op s
  | .vbcast op => Sys2Proof.Machine.execVbcast op s
  | .vsel op => Sys2Proof.Machine.execVsel op s
  | .vperm op => Sys2Proof.Machine.execVperm op s
  | .vtrans op => Sys2Proof.Machine.execVtrans op s
  | .viota op => Sys2Proof.Machine.execViota op s
  | .vextr op => Sys2Proof.Machine.execVextr op s
  | .vins op => Sys2Proof.Machine.execVins op s
  | .vslice op => Sys2Proof.Machine.execVslice op s
  | .vreduce op => Sys2Proof.Machine.execVreduce op s
  | .vscan op => Sys2Proof.Machine.execVscan op s
  | .vcompr op => Sys2Proof.Machine.execVcompr op s
  | .vexpnd op => Sys2Proof.Machine.execVexpnd op s
  | .vrng op => Sys2Proof.Machine.execVrng op s
  | .vquant op => Sys2Proof.Machine.execVquant op s
  | .vdeq op => Sys2Proof.Machine.execVdeq op s
  | .mma op => Sys2Proof.Machine.execMma op s
  | .mmaSp op => Sys2Proof.Machine.execMmaSp op s
  | .mwload op => Sys2Proof.Machine.execMwload op s
  | .maccRd op => Sys2Proof.Machine.execMaccRd op s
  | .maccWr op => Sys2Proof.Machine.execMaccWr op s
  | .maccClr op => Sys2Proof.Machine.execMaccClr op s
  | .mouter op => Sys2Proof.Machine.execMouter op s
  | .msort op => Sys2Proof.Machine.execMsort op s
  | .mtopk op => Sys2Proof.Machine.execMtopk op s
  | .mmerge op => Sys2Proof.Machine.execMmerge op s
  | .mtrans op => Sys2Proof.Machine.execMtrans op s
  | .scopy op => Sys2Proof.Machine.execScopy op s
  | .sarm op => Sys2Proof.Machine.execSarm op s
  | .sfire op => Sys2Proof.Machine.execSfire op s
  | .schain op => Sys2Proof.Machine.execSchain op s
  | .sdisarm op => Sys2Proof.Machine.execSdisarm op s
  | .sempty op => Sys2Proof.Machine.execSempty op s
  | .sfill op => Sys2Proof.Machine.execSfill op s
  | .sgen op => Sys2Proof.Machine.execSgen op s
  | .sorder op => Sys2Proof.Machine.execSorder op s
  | .scancel op => Sys2Proof.Machine.execScancel op s
  | .ld op => Sys2Proof.Machine.execLd op s
  | .st op => Sys2Proof.Machine.execSt op s
  | .ldi op => Sys2Proof.Machine.execLdi op s
  | .sti op => Sys2Proof.Machine.execSti op s
  | .lds op => Sys2Proof.Machine.execLds op s
  | .sts op => Sys2Proof.Machine.execSts op s
  | .portLdw op => Sys2Proof.Machine.execPortLdw op s
  | .portStw op => Sys2Proof.Machine.execPortStw op s
  | .pref op => Sys2Proof.Machine.execPref op s
  | .mresume op => Sys2Proof.Machine.execMresume op s
  | .mstart op => Sys2Proof.Machine.execMstart op s
  | .mmode op => Sys2Proof.Machine.execMmode op s
  | .bld op => Sys2Proof.Machine.execBld op s
  | .bst op => Sys2Proof.Machine.execBst op s
  | .bankAtom op => Sys2Proof.Machine.execBankAtom op s
  | .acas op => Sys2Proof.Machine.execAcas op s
  | .red op => Sys2Proof.Machine.execRed op s
  | .rflush op => Sys2Proof.Machine.execRflush op s
  | .bupd op => Sys2Proof.Machine.execBupd op s
  | .fget op => Sys2Proof.Machine.execFget op s
  | .fput op => Sys2Proof.Machine.execFput op s
  | .fclr op => Sys2Proof.Machine.execFclr op s
  | .qinit op => Sys2Proof.Machine.execQinit op s
  | .qpush op => Sys2Proof.Machine.execQpush op s
  | .qpop op => Sys2Proof.Machine.execQpop op s
  | .wait op => Sys2Proof.Machine.execWait op s
  | .wake op => Sys2Proof.Machine.execWake op s
  | .bcall op => Sys2Proof.Machine.execBcall op s
  | .pbar op => Sys2Proof.Machine.execPbar op s
  | .pbcast op => Sys2Proof.Machine.execPbcast op s
  | .predOpen op => Sys2Proof.Machine.execPredOpen op s
  | .predPut op => Sys2Proof.Machine.execPredPut op s
  | .pcorr op => Sys2Proof.Machine.execPcorr op s
  | .tred op => Sys2Proof.Machine.execTred op s
  | .crewNew op => Sys2Proof.Machine.execCrewNew op s
  | .crewJoin op => Sys2Proof.Machine.execCrewJoin op s
  | .crewLeave op => Sys2Proof.Machine.execCrewLeave op s
  | .crewFree op => Sys2Proof.Machine.execCrewFree op s
  | .ptime op => Sys2Proof.Machine.execPtime op s
  | .pquiet op => Sys2Proof.Machine.execPquiet op s
  | .psig op => Sys2Proof.Machine.execPsig op s
  | .lput op => Sys2Proof.Machine.execLput op s
  | .lget op => Sys2Proof.Machine.execLget op s
  | .latom op => Sys2Proof.Machine.execLatom op s
  | .lsend op => Sys2Proof.Machine.execLsend op s
  | .lrecv op => Sys2Proof.Machine.execLrecv op s
  | .lfence op => Sys2Proof.Machine.execLfence op s
  | .packageReset b => Sys2Proof.Machine.execPackageReset b s
  | .asyncCauseDelivery th => Sys2Proof.Machine.execAsyncCauseDelivery th s
  | .timerEvent th => Sys2Proof.Machine.execTimerEvent th s
  | .wfeWake th => Sys2Proof.Machine.execWfeWake th s
  | .snkpopWaitResume th => Sys2Proof.Machine.execSnkpopWaitResume th s
  | .injColourResume th => Sys2Proof.Machine.execInjColourResume th s
  | .hwakeWrite die v => Sys2Proof.Machine.execHwakeWrite die v s
  | .htimecmpWrite th v => Sys2Proof.Machine.execHtimecmpWrite th v s
  | .registerWrite host off size v => Sys2Proof.Machine.execRegisterWrite host off size v s
  | .launchPeek th rd => Sys2Proof.Machine.execLaunchPeek th rd s
  | .launchCommit th lease => Sys2Proof.Machine.execLaunchCommit th lease s
  | .launchRelease th lease => Sys2Proof.Machine.execLaunchRelease th lease s
  | .effectivePriorityAging q => Sys2Proof.Machine.execEffectivePriorityAging q s
  | .allocReq th rd req => Sys2Proof.Machine.execAllocReq th rd req s
  | .allocFree handle => Sys2Proof.Machine.execAllocFree handle s
  | .spanmapBind rid ix entry => Sys2Proof.Machine.execSpanmapBind rid ix entry s
  | .spanmapUnbind rid ix => Sys2Proof.Machine.execSpanmapUnbind rid ix s
  | .twinPair v => Sys2Proof.Machine.execTwinPair v s
  | .twinUnpair v => Sys2Proof.Machine.execTwinUnpair v s
  | .tctlClr rid => Sys2Proof.Machine.execTctlClr rid s
  | .leakthrWrite rid v => Sys2Proof.Machine.execLeakthrWrite rid v s
  | .prtabLoad port addr => Sys2Proof.Machine.execPrtabLoad port addr s
  | .hrtabLoad die addr => Sys2Proof.Machine.execHrtabLoad die addr s
  | .tlbinvPage va asid => Sys2Proof.Machine.execTlbinvPage va asid s
  | .tlbinvAsid asid => Sys2Proof.Machine.execTlbinvAsid asid s
  | .tlbinvAll => Sys2Proof.Machine.execTlbinvAll s
  | .kcmdRereadKey ix => Sys2Proof.Machine.execKcmdRereadKey ix s
  | .kcmdRevoke ix => Sys2Proof.Machine.execKcmdRevoke ix s
  | .kcmdRereadConn ix => Sys2Proof.Machine.execKcmdRereadConn ix s
  | .msggo th => Sys2Proof.Machine.execMsggo th s
  | .msgack => Sys2Proof.Machine.execMsgack s
  | .hostMessageArrival => Sys2Proof.Machine.execHostMessageArrival s
  | .opreqWrite hi v => Sys2Proof.Machine.execOpreqWrite hi v s
  | .operatingPointChange island => Sys2Proof.Machine.execOperatingPointChange island s
  | .hostRead bar off size => Sys2Proof.Machine.execHostRead bar off size s
  | .hostWrite bar off data poisoned => Sys2Proof.Machine.execHostWrite bar off data poisoned s
  | .cxlSnoop addr => Sys2Proof.Machine.execCxlSnoop addr s
  | .getId => Sys2Proof.Machine.execGetId s
  | .getMeas nonce => Sys2Proof.Machine.execGetMeas nonce s
  | .writeFw off data => Sys2Proof.Machine.execWriteFw off data s
  | .packetRouting k => Sys2Proof.Machine.execPacketRouting k s
  | .configPacketHop k => Sys2Proof.Machine.execConfigPacketHop k s
  | .tokenArrival c => Sys2Proof.Machine.execTokenArrival c s
  | .tilePacketDelivery c => Sys2Proof.Machine.execTilePacketDelivery c s
  | .ejectionWaitPlacement c => Sys2Proof.Machine.execEjectionWaitPlacement c s
  | .matchOverflow c => Sys2Proof.Machine.execMatchOverflow c s
  | .tileOperandReady c k => Sys2Proof.Machine.execTileOperandReady c k s
  | .firingDispatch c eng => Sys2Proof.Machine.execFiringDispatch c eng s
  | .colourAllocation rid ctx => Sys2Proof.Machine.execColourAllocation rid ctx s
  | .irrevocableHandshake rid tag => Sys2Proof.Machine.execIrrevocableHandshake rid tag s
  | .flagUpdate rid tag flags => Sys2Proof.Machine.execFlagUpdate rid tag flags s
  | .frameRequest rid tag req => Sys2Proof.Machine.execFrameRequest rid tag req s
  | .purgeRequest rid tag => Sys2Proof.Machine.execPurgeRequest rid tag s
  | .purgeEffect rid => Sys2Proof.Machine.execPurgeEffect rid s
  | .quarantineExpiry rid => Sys2Proof.Machine.execQuarantineExpiry rid s
  | .replay rid => Sys2Proof.Machine.execReplay rid s
  | .activationFailEffect rid => Sys2Proof.Machine.execActivationFailEffect rid s
  | .sinkRingEntry rid => Sys2Proof.Machine.execSinkRingEntry rid s
  | .spliceReplacement c slot => Sys2Proof.Machine.execSpliceReplacement c slot s
  | .spliceTimeLimit c slot => Sys2Proof.Machine.execSpliceTimeLimit c slot s
  | .markerArrival c => Sys2Proof.Machine.execMarkerArrival c s
  | .srcStreamEmit c k => Sys2Proof.Machine.execSrcStreamEmit c k s
  | .cmpxDigestArrival c k => Sys2Proof.Machine.execCmpxDigestArrival c k s
  | .cmpxTimeout c k => Sys2Proof.Machine.execCmpxTimeout c k s
  | .freezeEffect rid => Sys2Proof.Machine.execFreezeEffect rid s
  | .thawEffect rid => Sys2Proof.Machine.execThawEffect rid s
  | .spanSignalRelay rid reached => Sys2Proof.Machine.execSpanSignalRelay rid reached s
  | .quadLineStateQuery owner k => Sys2Proof.Machine.execQuadLineStateQuery owner k s
  | .quadReadServe owner => Sys2Proof.Machine.execQuadReadServe owner s
  | .stencilQueueIssue c q => Sys2Proof.Machine.execStencilQueueIssue c q s
  | .streamTileStep c q => Sys2Proof.Machine.execStreamTileStep c q s
  | .ringTileStep c q => Sys2Proof.Machine.execRingTileStep c q s
  | .retainedRingStep c q => Sys2Proof.Machine.execRetainedRingStep c q s
  | .portRequestAccept p => Sys2Proof.Machine.execPortRequestAccept p s
  | .generatorStart p => Sys2Proof.Machine.execGeneratorStart p s
  | .elementPerform p g => Sys2Proof.Machine.execElementPerform p g s
  | .waveAccessPerform p k => Sys2Proof.Machine.execWaveAccessPerform p k s
  | .readAhead p => Sys2Proof.Machine.execReadAhead p s
  | .bankRequestAccept b => Sys2Proof.Machine.execBankRequestAccept b s
  | .combiningEntryApply b k => Sys2Proof.Machine.execCombiningEntryApply b k s
  | .waiterLimitExpiry k => Sys2Proof.Machine.execWaiterLimitExpiry k s
  | .routineFetch b addr => Sys2Proof.Machine.execRoutineFetch b addr s
  | .nackRetry k => Sys2Proof.Machine.execNackRetry k s
  | .memberIndexLookup k => Sys2Proof.Machine.execMemberIndexLookup k s
  | .rootSignalTake k => Sys2Proof.Machine.execRootSignalTake k s
  | .roundRelease crew => Sys2Proof.Machine.execRoundRelease crew s
  | .reductionNoticeLanding crew rnd => Sys2Proof.Machine.execReductionNoticeLanding crew rnd s
  | .deadlineEvaluation crew rnd => Sys2Proof.Machine.execDeadlineEvaluation crew rnd s
  | .lateContribution k => Sys2Proof.Machine.execLateContribution k s
  | .finalPacket crew rnd => Sys2Proof.Machine.execFinalPacket crew rnd s
  | .resultLanding k => Sys2Proof.Machine.execResultLanding k s
  | .ptimeExpiry c k => Sys2Proof.Machine.execPtimeExpiry c k s
  | .markerSignalEffect rid => Sys2Proof.Machine.execMarkerSignalEffect rid s
  | .snapshotComplete rid => Sys2Proof.Machine.execSnapshotComplete rid s
  | .snapshotTimeout rid => Sys2Proof.Machine.execSnapshotTimeout rid s
  | .censusTick rid => Sys2Proof.Machine.execCensusTick rid s
  | .pquietWaitEmit rid => Sys2Proof.Machine.execPquietWaitEmit rid s
  | .deadlock rid => Sys2Proof.Machine.execDeadlock rid s
  | .wdog rid => Sys2Proof.Machine.execWdog rid s
  | .incomingRemoteAccess a => Sys2Proof.Machine.execIncomingRemoteAccess a s
  | .incomingSend m => Sys2Proof.Machine.execIncomingSend m s
  | .linkWaitLimitExpiry k => Sys2Proof.Machine.execLinkWaitLimitExpiry k s
  | .scewenFlitReceive port hdr flit crcOk => Sys2Proof.Machine.execScewenFlitReceive port hdr flit crcOk s
  | .slotSync port => Sys2Proof.Machine.execSlotSync port s
  | .scewenPortDown port lanes => Sys2Proof.Machine.execScewenPortDown port lanes s
  | .ethernetRetransmit k => Sys2Proof.Machine.execEthernetRetransmit k s
  | .telemetryUpdate r => Sys2Proof.Machine.execTelemetryUpdate r s
  | .thermalClamp die temp => Sys2Proof.Machine.execThermalClamp die temp s
  | .thermalShutdown die temp => Sys2Proof.Machine.execThermalShutdown die temp s
  | .clusterFailing die cluster router => Sys2Proof.Machine.execClusterFailing die cluster router s
  | .illegalEncoding w => Sys2Proof.Machine.execIllegalEncoding w s
  | .memoryFailure bank ix => Sys2Proof.Machine.execMemoryFailure bank ix s
  | .ethernetPortDown port => Sys2Proof.Machine.execEthernetPortDown port s
  | .linkResponseArrival k a => Sys2Proof.Machine.execLinkResponseArrival k a s

end Sys2Proof.Machine
end

