-- ==== Sys2Proof/Machine/Fetch.lean ====
section
/-! DEFINITION. What each turn does: a Hawk thread fetches and performs its next word, an issued firing performs its
operator word, an event acts, or time advances (04 R106, R110, R132; 03 R77; 02 R66). -/

namespace Sys2Proof.Machine
noncomputable section

/-! ### A Hawk thread's next word -/

/-- The thread performs its next word: it is not halted, not waiting and not blocked, and no cause is to be delivered to it
first (04 R106, R127, R129). -/
def runnable (t : Thread) : Bool :=
  !t.halt && !t.wait && t.block == .none && !deliverable t

/-- Read the word at a thread's pc; register blocks hold no words (notes/assumptions/20.md), and a pc that is no multiple of
4 traps MISALIGN (notes/assumptions/109.md). -/
def fetchWord (s : State) (th : Nat) : Hawk (BitVec 32) :=
  let pc := (getThread s th).pc
  if pc.toNat % 4 ≠ 0 then .trap cMISALIGN 0 pc
  else (hawkLoc s th pc 4 false pc).andThen fun s l =>
    match l with
    | .mem p =>
      let (s, bs, bad) := readMem s p 4
      if bad then .trap cPOISON 0 pc else .ok s (BitVec.ofNat 32 (leNat bs))
    | .bank p _ =>
      (match loadBank s p 4 with
      | none => .trap cHPAGE 3 pc
      | some (s, bs, bad) => if bad then .trap cPOISON 0 pc else .ok s (BitVec.ofNat 32 (leNat bs)))
    | .pcb _ | .dcb _ => .trap cHPAGE 3 pc

/-- The instruction of a Hawk word; a word that is none takes the illegal-encoding exception (04 R110). -/
def hawkInstr (w : BitVec 32) : Instr :=
  match decodeHawk w with
  | .ok i => i
  | .error _ => .illegalEncoding w

/-- A thread fetches and performs one word. -/
def hawkTurn (s : State) (th : Nat) : Host.Outcome State Fault Refusal :=
  if runnable (getThread s th) then
    match fetchWord s th with
    | .ok s w => exec (hawkInstr w) s
    | .trap c d v => .next (trap s th c d v)
    | .wait s => .next s
  else .next s

/-! ### The other turns -/

/-- After an engine has performed a firing, or passed it over, the store is brought up to date (05 R145). -/
def taken (f : Firing) (x : Host.Outcome State Fault Refusal) : Host.Outcome State Fault Refusal :=
  match x with
  | .next s => .next (takeFiring s f)
  | _ => x

/-- An issued firing performs its operator word, or what R77 says of a word that is none. -/
def firingTurn (s : State) : Host.Outcome State Fault Refusal :=
  match decodeOp s.firing.word with
  | .ok i => taken s.firing (exec i s)
  | .error _ => .next (takeFiring (fireIllegal s s.firing) s.firing)

/-- One unfrozen tick of a region's quarantined colour numbers (05 R172). -/
def quarantineTick (r : Region) : Region :=
  if r.stopped then r
  else { r with ctxs := r.ctxs.map fun e =>
    (e.1, { e.2 with quarantine := e.2.quarantine.map fun q => (q.1, q.2 - 1) }) }

/-- One tick: time, quarantine, and the limits of waiters whose regions run (02 R66; 10 R344; 12 R408). -/
def tickTurn (s : State) : State :=
  let s := { s with htime := s.htime + 1, regions := s.regions.map (fun e => (e.1, quarantineTick e.2)),
                    waiters := s.waiters.map fun w => if isStopped s w.firing.region then w else { w with waited := w.waited + 1 } }
  linkTick s

/-- What the agent whose turn it is does. -/
def move (s : State) : Host.Outcome State Fault Refusal :=
  match s.turn with
  | .hawk th => hawkTurn s th
  | .firing => firingTurn s
  | .event i => exec i s
  | .tick => .next (tickTurn s)

/-! ### Placing an instruction to be run next -/

/-- The thread that a placed word runs on: the one whose turn it is, or thread 0. -/
def placedThread (s : State) : Nat := match s.turn with | .hawk th => th | _ => 0

/-- The SRAM offset of a placed word: the thread's own pc where that names an aligned word of SRAM, else the reset
vector. -/
def placedPc (t : Thread) : Word :=
  if t.pc.toNat % 4 = 0 ∧ inRange t.pc.toNat 0xFF00000000000000 (2 ^ 20) then t.pc else resetVector

/-- Put a Hawk word where a thread fetches next, and make that thread's turn come (notes/assumptions/3.md). -/
def placeHawk (s : State) (w : Nat) : State :=
  let th := placedThread s
  let t := getThread s th
  let pc := placedPc t
  let a := sramAddr (th / 8) (pc.toNat % 2 ^ 20)
  let s := { s with mem := Mem.write s.mem a (leBytes 4 w), chk := Tab.set 0 s.chk (a / 8 * 8) 0, turn := .hawk th }
  setThread s th { t with pc := pc, mode := true, halt := false, wait := false, block := .none, ie := t.ie && t.pending.isEmpty }

/-- Put an operator word in the issued firing, which performs next. -/
def placeOp (s : State) (w : Nat) : State :=
  { s with firing := { s.firing with word := BitVec.ofNat 128 w }, turn := .firing }

end
end Sys2Proof.Machine
end

