-- ==== Sys2Proof/Machine/Pool.lean ====
section
/-! DEFINITION. The release of tile-pool lines: an allocation goes back to the pool when nothing holds it (05 R150;
02 R47). -/

namespace Sys2Proof.Machine

/-- Tile handles of a token list. -/
def tilesOf (ts : List Tok) : List Word := (ts.filter isTile).map Tok.payload

/-- Handles in a cluster's matching store, ejection and capture buffers, and in the step that a stencil works on. -/
def Cluster.handles (k : Cluster) : List Word :=
  tilesOf (k.entries.flatMap fun e => e.cells.filterMap id) ++
  tilesOf (((k.arrivals ++ k.capture).filter fun a => a.data.isNone).map Arrival.tok) ++
  k.queues.flatMap fun q => (q.2.pending ++ q.2.issued.toList).filterMap fun x => x.tile.map Prod.fst

/-- Handles that spawn records name in a cluster, their contexts' home (05 R152). -/
def spawnHandles (s : State) (c : Nat) : List Word :=
  s.regions.flatMap fun e => e.2.ctxs.flatMap fun x =>
    if homeOf s e.2 x.1 = some c then
      (x.2.live.map Colour.line ++ x.2.waiting.map Waiting.line).flatMap fun l =>
        tilesOf ((carriedOf s (spawnAddr s e.2 x.1 l)).map Prod.fst)
    else []

/-- Handles of the leaves, packets and result of tile reductions whose reduce cluster is c (11 R383). -/
def roundHandles (s : State) (c : Nat) : List Word :=
  s.plumb.crews.flatMap fun e => (e.2.open_.toList ++ e.2.rounds).flatMap fun r =>
    if r.kind = .tileReduction ∧ r.cluster = c then
      r.result.value :: (r.leaves.map Leaf.value ++ r.packets.map RPacket.value)
    else []

/-- Handles of tokens that Plumb is about to land for firings of a cluster. -/
def landingHandles (s : State) (c : Nat) : List Word :=
  s.plumb.downs.flatMap fun l => match l.what with
    | .emit f a b => if f.cluster = c then tilesOf [a, b] else []
    | _ => []

/-- Every handle that holds lines of a cluster's pool; a weight binding holds none (07 R238). -/
def holders (s : State) (c : Nat) : List Word :=
  let k := getCluster s c
  k.handles ++
  tilesOf ((s.net.filter fun p => p.src == c && p.dst == c && p.data.isNone).map Packet.tok) ++
  tilesOf (((heldFirings s).filter fun f => f.cluster == c).flatMap Firing.toks) ++
  spawnHandles s c ++ roundHandles s c ++ landingHandles s c

/-- A handle names lines of an allocation in the generation they have. -/
def holdsRun (k : Cluster) (a : Run) (w : Word) : Bool :=
  let h := handleOf w
  h.res == 0 && a.meets h.base h.lines && (Tab.get Line.empty k.lines a.first).gen.toNat == h.gen

/-- Return an allocation's lines: empty, their generation unchanged. -/
def returnLines (t : Tab Line) (a : Run) : Tab Line :=
  (List.range a.len).foldl (fun t i =>
    let l := Tab.get Line.empty t (a.first + i)
    Tab.set Line.empty t (a.first + i) { l with full := false, written := 0 }) t

/-- Release what nothing holds in one cluster. -/
def releaseIn (s : State) (c : Nat) : State :=
  let k := getCluster s c
  let hs := holders s c
  let free := k.allocs.filter fun a => !hs.any (holdsRun k a)
  if free.isEmpty then s
  else setCluster s c { k with allocs := k.allocs.filter (fun a => !free.contains a), lines := free.foldl returnLines k.lines }

/-- Release what nothing holds. -/
def releasePools (s : State) : State :=
  (s.clusters.filter fun e => !e.2.allocs.isEmpty).foldl (fun s e => releaseIn s e.1) s

end Sys2Proof.Machine
end

