-- ==== Sys2Proof/Machine/Schedule.lean ====
section
/-! DEFINITION. What follows each turn at once, the moves that are enabled then, and the choice among them. The spec orders
the agents only by happens-before (02 R57 to R66), so the choice is a free value (notes/assumptions/1.md). -/

namespace Sys2Proof.Machine
noncomputable section

/-! ### What follows a turn at once -/

/-- Results that need wait no longer leave, flits go to their ports, nodes that have saved forward their markers, splice
loads inject, and lines that nothing holds return to their pools. -/
def settle (s : State) : State :=
  let s := shipSent (flushLate s)
  let s := (s.regions.filter fun e => e.2.snapshot.isSome).foldl (fun s e => forwardReady s e.1) s
  let s := (s.regions.filter fun e => e.2.splice.isSome).foldl (fun s e => spliceOn s e.1) s
  releasePools s

/-! ### Candidates -/

/-- An event would change the state. -/
def acts (s : State) (i : Instr) : Bool := outcomeState s (exec i s) != s

def upTo {α : Type} (l : List α) (f : Nat → Instr) : List Instr := (List.range l.length).map f

/-- Events that fall due at a tick, of one region. -/
def regionTimed (s : State) (rid : Nat) : List Instr :=
  [.thawEffect rid, .freezeEffect rid, .purgeEffect rid, .activationFailEffect rid, .markerSignalEffect rid,
   .quarantineExpiry rid, .snapshotComplete rid, .snapshotTimeout rid, .spanSignalRelay rid (membersReached s (getRegion s rid)),
   .censusTick rid, .pquietWaitEmit rid, .deadlock rid, .wdog rid]

/-- Events that fall due at a tick, of one cluster. -/
def clusterTimed (c : Nat) (k : Cluster) : List Instr :=
  upTo k.cmpx (.cmpxTimeout c) ++ upTo k.ptimes (.ptimeExpiry c) ++ [.matchOverflow c] ++
  (k.slots.filter fun e => e.2.waiting.isSome).map fun e => .spliceTimeLimit c (BitVec.ofNat 11 e.1)

/-- Events that fall due at a tick, of one crew. -/
def crewTimed (n : Nat) (c : Crew) : List Instr :=
  .roundRelease n :: (c.open_.toList ++ c.rounds).flatMap fun r => [.deadlineEvaluation n r.no, .finalPacket n r.no]

/-- The landing of a reduction's notice. -/
def noticeOf : Down → Option Instr
  | .notice n no => some (.reductionNoticeLanding n no)
  | _ => none

/-- Events of a tick: they come before the next tick (02 R66). -/
def timedEvents (s : State) : List Instr :=
  s.threads.map (fun e => .timerEvent e.1) ++ s.regions.flatMap (fun e => regionTimed s e.1) ++
  s.clusters.flatMap (fun e => clusterTimed e.1 e.2) ++
  s.banks.flatMap (fun e => upTo e.2.combine (.combiningEntryApply e.1)) ++
  upTo s.waiters .waiterLimitExpiry ++ upTo s.nacked (fun k => .nackRetry (2 * k)) ++
  upTo s.plumb.ups .rootSignalTake ++ upTo s.plumb.ups .lateContribution ++ s.plumb.crews.flatMap (fun e => crewTimed e.1 e.2) ++
  upTo s.plumb.downs .resultLanding ++ s.plumb.downs.filterMap (fun l => noticeOf l.what) ++
  s.link.reqs.flatMap (fun e => [.nackRetry (2 * e.1 + 1), .linkWaitLimitExpiry (2 * e.1)]) ++
  upTo s.link.recvs (fun k => .linkWaitLimitExpiry (2 * k + 1)) ++ s.link.eth.map (fun e => .ethernetRetransmit e.1) ++
  s.launch.map fun e => .effectivePriorityAging e.1

/-- Events of the Hawk and the host rings. -/
def threadEvents (e : Nat × Thread) : List Instr :=
  [.asyncCauseDelivery e.1, .wfeWake e.1, .snkpopWaitResume e.1, .injColourResume e.1] ++
  if e.2.block = .msggo then [.msggo e.1] else []

/-- Events of one region. -/
def regionEvents (e : Nat × Region) : List Instr :=
  [.replay e.1, .sinkRingEntry e.1] ++
  e.2.ctxs.map fun x => .colourAllocation e.1 (BitVec.ofNat 8 x.1)

/-- Events of one cluster. -/
def clusterEvents (s : State) (c : Nat) (k : Cluster) : List Instr :=
  [.tokenArrival c, .tilePacketDelivery c, .ejectionWaitPlacement c, .markerArrival c, .quadReadServe c] ++
  (List.range 8).map (.firingDispatch c) ++ upTo (lineWaits k) (.tileOperandReady c) ++
  upTo (quadWaits s c) (.quadLineStateQuery c) ++ upTo k.streams (.srcStreamEmit c) ++ upTo k.cmpx (.cmpxDigestArrival c) ++
  (k.slots.filter fun e => e.2.waiting.isSome).map (fun e => .spliceReplacement c (BitVec.ofNat 11 e.1)) ++
  k.queues.flatMap fun q => [.stencilQueueIssue c q.1, .streamTileStep c q.1, .ringTileStep c q.1, .retainedRingStep c q.1]

/-- Events of one memory port. -/
def portEvents (e : Nat × Port) : List Instr :=
  [.portRequestAccept e.1, .generatorStart e.1, .readAhead e.1] ++ (List.range 8).map (.elementPerform e.1) ++
  upTo e.2.waiting (.waveAccessPerform e.1)

/-- Events of Plumb. -/
def plumbEvents (p : Plumb) : List Instr := upTo p.lookups .memberIndexLookup

/-- Events of the Link Engine. -/
def linkEvents (l : Link) : List Instr :=
  l.loop.map .incomingRemoteAccess ++ l.sends.map .incomingSend ++ l.answers.map (fun e => .linkResponseArrival e.1 e.2) ++
  (List.range 6).map .slotSync

/-- The other events that the part itself brings about. -/
def otherEvents (s : State) : List Instr :=
  .hostMessageArrival :: (s.threads.flatMap threadEvents ++ upTo s.net .packetRouting ++ upTo s.hops .configPacketHop ++
  s.regions.flatMap regionEvents ++ s.clusters.flatMap (fun e => clusterEvents s e.1 e.2) ++ s.ports.flatMap portEvents ++
  s.banks.flatMap (fun e => .bankRequestAccept e.1 :: (routinesWanted s e.1).map fun rt => .routineFetch e.1 (word rt)) ++ plumbEvents s.plumb ++ linkEvents s.link ++
  (List.range 64).map .operatingPointChange)

/-- What only the world outside the package brings about: it comes in through State.inbox. -/
def outside (i : Instr) : Bool :=
  match i with
  | .packageReset _ | .registerWrite true _ _ _ | .hostRead .. | .hostWrite .. | .cxlSnoop _ | .getId | .getMeas _ | .writeFw ..
  | .scewenFlitReceive .. | .scewenPortDown .. | .telemetryUpdate _ | .thermalClamp .. | .thermalShutdown ..
  | .clusterFailing .. | .memoryFailure .. | .ethernetPortDown _ | .incomingRemoteAccess _ | .incomingSend _
  | .linkResponseArrival .. | .spanSignalRelay _ false => true
  | _ => false

/-- The thread of a die that issues next: the first ready one in round-robin order (04 R106). -/
def nextThread (s : State) (d : Nat) : Option Nat :=
  ((List.range 8).map fun i => 8 * d + ((getDie s d).first + i) % 8).find? fun th => runnable (getThread s th)

/-- A turn that can come next, and whether it is the head of the inbox. -/
structure Choice where
  turn : Turn
  external : Bool

def within (t : Turn) : Choice := { turn := t, external := false }

/-- The turns that can come next. What falls due at this tick comes first. -/
def enabled (s : State) : List Choice :=
  match (timedEvents s).filter (acts s) with
  | [] =>
    ((List.range 8).filterMap (nextThread s)).map (fun th => within (.hawk th)) ++
    ((otherEvents s).filter (acts s)).map (fun i => within (.event i)) ++
    (s.inbox.take 1).map (fun i => { turn := .event i, external := true }) ++ [within .tick]
  | es => es.map fun i => within (.event i)

/-! ### The next turn -/

/-- The dies once a turn is given: a thread's turn passes its die's round robin on (04 R106). -/
def passRound (s : State) : Turn → Tab Die
  | .hawk th => (setDie s (th / 8) { getDie s (th / 8) with first := (th + 1) % 8 }).dies
  | _ => s.dies

/-- Choose among the enabled turns; an event from outside leaves the inbox. -/
def choose (s : State) : State :=
  let ts := enabled s
  let t := ts.getD (Config.pick s.steps % ts.length) (within .tick)
  { s with turn := t.turn, inbox := if t.external then s.inbox.drop 1 else s.inbox, dies := passRound s t.turn }

/-- Settle, count the step and pass the turn: an issued firing performs before anything else. -/
def passTurn (s : State) : State :=
  let s := settle s
  let s := { s with steps := s.steps + 1, firing := Firing.none, inbox := s.inbox.filter outside }
  match s.issued with
  | f :: rest => { s with firing := f, issued := rest, turn := .firing }
  | [] => choose s

end
end Sys2Proof.Machine
end

