-- ==== Sys2Proof/Machine/Step.lean ====
section
/-! DEFINITION. One step: the agent whose turn it is moves, and the turn passes; and the state in which a given
instruction runs next. -/

namespace Sys2Proof.Machine
noncomputable section

/-- One step of the package. -/
def step (s : State) : Host.Outcome State Fault Refusal :=
  match move s with
  | .next t => .next (passTurn t)
  | .fault r => .fault r
  | .refused r => .refused r

/-- The state in which step runs the instruction of nbits bits w: a Hawk word lies where the thread fetches, an operator
word is the issued firing's (notes/assumptions/3.md). -/
def State.withFetchWord (s : State) (nbits w : Nat) : State :=
  if nbits ≤ 32 then placeHawk s w else placeOp s w

end
end Sys2Proof.Machine
end

