-- ==== Sys2Proof/Safety.lean ====
section
/-! DEFINITION. The terms that statements about the machine use: what a word writes, when a firing performs, canonical
tables, and what holds between steps. -/

namespace Sys2Proof.Machine

/-! ### Hawk words -/

/-- The thread whose turn it is. -/
def State.now (s : State) : Thread := getThread s (cur s)

/-- In t the thread has xr equal to v, but x0 stays zero, every other register as in s, and the next word follows; nothing
else of the state differs (04 R107). -/
def PutsX (s t : State) (r : Reg) (v : Word) : Prop :=
  ∃ x : Vector Word 32, t = setThread s (cur s) { s.now with x := x, pc := s.now.pc + 4 } ∧
    ∀ q : Reg, t.now.getX q = if q = r ∧ r ≠ 0 then v else s.now.getX q

/-- The same for dr. -/
def PutsD (s t : State) (r : Reg) (v : Word) : Prop :=
  ∃ d : Vector Word 32, t = setThread s (cur s) { s.now with d := d, pc := s.now.pc + 4 } ∧
    ∀ q : Reg, t.now.getD q = if q = r then v else s.now.getD q

/-- The word completes and puts v in xr. -/
def Yields (i : Instr) (s : State) (r : Reg) (v : Word) : Prop := ∃ t, exec i s = .next t ∧ PutsX s t r v

/-- The same for dr. -/
def YieldsD (i : Instr) (s : State) (r : Reg) (v : Word) : Prop := ∃ t, exec i s = .next t ∧ PutsD s t r v

/-- The word completes and only the thread's pc differs. -/
def Jumps (i : Instr) (s : State) (pc : Word) : Prop :=
  exec i s = .next (setThread s (cur s) { s.now with pc := pc })

/-- How a floating-point word ends that raises fl (04 R140): with the flag's enable set it traps before it writes anything,
else the flags join HFLAGS and the result is written. -/
def FpEnds (i : Instr) (s : State) (fl : Flags) (puts : State → State → Prop) : Prop :=
  if fl.setWidth 5 &&& s.now.en ≠ 0 then exec i s = .next (trap s (cur s) cFP_TRAP 0 ((fl.setWidth 5).setWidth 64))
  else ∃ t, exec i s = .next t ∧ puts (setThread s (cur s) { s.now with flags := s.now.flags ||| fl.setWidth 5 }) t

/-- A floating-point word with its result and flags, into dr. -/
def FpD (i : Instr) (s : State) (r : Reg) (x : Nat × Flags) : Prop :=
  FpEnds i s x.2 fun u t => PutsD u t r (BitVec.ofNat 64 x.1)

/-- The same into xr. -/
def FpX (i : Instr) (s : State) (r : Reg) (x : Nat × Flags) : Prop :=
  FpEnds i s x.2 fun u t => PutsX u t r (BitVec.ofNat 64 x.1)

/-- The flat address of an SRAM address of the thread's core. -/
def sramOf (s : State) (a : Word) : Nat := sramAddr (cur s / 8) (a.toNat % 2 ^ 20)

/-- A supervisor thread's aligned access of n bytes at a lies in its core's SRAM, in a word that holds no error. -/
def SramAt (s : State) (a : Word) (n : Nat) : Prop :=
  s.now.mode = true ∧ 0xFF00000000000000 ≤ a.toNat ∧ a.toNat < 0xFF00000000000000 + 2 ^ 20 ∧ a.toNat % n = 0 ∧
  cur s / 8 < 8 ∧ Tab.get 0 s.chk (sramOf s a / 8 * 8) = 0

/-! ### Firings -/

/-- XFM is granted: it needs no new colour, or its home cluster allocates one. -/
def TagIs.granted : TagIs → Bool
  | .refused => false
  | _ => true

/-- The state of an issued firing with the colour that its XFM allocates. -/
def State.coloured (s : State) (x : Xfm) : State := match tagUnder s s.firing x with | .tag u _ => u | _ => s

/-- The issued firing performs its own effect: XFM is granted, no operand is an error token, and no tile of its was found
stale (01 R20, R27, R28). -/
def Performs (s : State) (x : Xfm) : Prop :=
  (tagUnder s s.firing x).granted = true ∧ s.firing.stale = false ∧ ∀ t ∈ s.firing.toks, t.kind ≠ .error

/-- The operator completes: it emits outs, with the flags raised and the first element that raised an enabled one, from the
state u that its own effect leaves. -/
def Emits (i : Instr) (s : State) (o : Op) (u : State) (outs : List Out) (fl : Flags) (elem : Nat) : Prop :=
  exec i s = .next (emit u s.firing o o.xfm (tagUnder s s.firing o.xfm) outs fl elem)

/-- The operator ends as an error firing with a code and an element index, on every destination (01 R28, 05 R154). -/
def EmitsError (i : Instr) (s : State) (o : Op) (code : BitVec 8) (elem : Nat) : Prop :=
  let f := s.firing
  exec i s = .next (emitError (s.coloured o.xfm) f o o.xfm (tagUnder s f o.xfm) (destinations s f o)
    (errorPayload (getRegion s f.region) f.cluster f.slot elem code))

/-- The class-0 operators that are performed at once and send their errors to every destination (05 R154). -/
def tokenOps : List (Op → Instr) :=
  [.pass, .const, .dup, .route, .steer, .gate, .sel, .join, .invSet, .invGet, .flagsGet, .flagsClr, .sadd, .ssub, .smul,
   .smad, .scmp, .slog, .sshf, .sminmax, .pfence, .cmpx, .mark]

/-- The operators of the Vector and Matrix Engines (06, 07). -/
def engineOps : List (Op → Instr) :=
  [.vadd, .vsub, .vmul, .vfma, .vfms, .vdiv, .vsqrt, .vrsqrt, .vmin, .vmax, .vminn, .vmaxn, .vabs, .vneg, .vcpys, .vscale,
   .vrnd, .vclass, .vcmp, .vcvt, .vsplit, .vexp, .vexpm1, .vlog, .vlog1p, .verf, .verfc, .vexp2, .vlog2, .viadd, .visub,
   .vimul, .vimulh, .vimad, .vimin, .vimax, .vicmp, .vand, .vor, .vxor, .vshl, .vshr, .vsar, .vpopc, .vclz, .vbcast, .vsel,
   .vperm, .vtrans, .viota, .vextr, .vins, .vslice, .vreduce, .vscan, .vcompr, .vexpnd, .vrng, .vquant, .vdeq, .mma, .mmaSp,
   .mwload, .maccRd, .maccWr, .maccClr, .mouter, .msort, .mtopk, .mmerge, .mtrans]

/-! ### Operands and results of the engines (06 R182, R183, R192) -/

/-- The operands of a vector firing pass their checks, fits being the operator's own rule of its tiles' shapes, and read, in
state u, as the values as, the immediate last; a poisoned one is only forwarded, and poison says that there is one. -/
def ShapedRead (s : State) (o : Op) (ps : List VPort) (fits : Bool) (u : State) (as : List VArg) (poison : Bool) : Prop :=
  let f := s.firing
  let x := readArgs (s.coloured o.xfm) f.cluster (f.toks.zip ps)
  vecError (s.coloured o.xfm) f ps fits = none ∧ x.1 = u ∧ (x.2.2.zip ps).any (fun e => e.1 && !e.2.fwd) = false ∧
  x.2.2.any id = poison ∧
  as = x.2.1 ++ if hasImm o ps then [VArg.scalar (immElem o ((ps.getLast?.map VPort.fmt).getD .raw))] else []

/-- The same, under the ordinary rule: the tiles on shaped ports have one shape. -/
def OperandsRead (s : State) (o : Op) (ps : List VPort) (u : State) (as : List VArg) (poison : Bool) : Prop :=
  ShapedRead s o ps (sameShapes s.firing ps) u as poison

/-- The operator emits one scalar of format g. -/
def GivesScalar (i : Instr) (s : State) (o : Op) (u : State) (g : Fmt) (x : Nat × Flags) (poison : Bool) : Prop :=
  Emits i s o u (outTo (destinations u s.firing o) .scalar { Flag.none with poison := poison } (narrow g x.1)) x.2 0

/-- The operator puts one tile into its cluster's pool and emits its handle, and stays matched while the pool cannot supply
its lines; a tile of no allowed shape is BOUNDS. -/
def GivesTile (i : Instr) (s : State) (o : Op) (u : State) (t : Tile) (fl : List Flags) (poison : Bool) : Prop :=
  let f := s.firing
  (shapeFits t.fmt t.rows t.epr = false → EmitsError i s o eBOUNDS 0) ∧
  (shapeFits t.fmt t.rows t.epr = true →
    (putTile u f.region f.cluster f.tag t poison = none → exec i s = .next (requeue s f)) ∧
    ∀ v w, putTile u f.region f.cluster f.tag t poison = some (v, w) →
      Emits i s o v (outTo (destinations v f o) .tile { Flag.none with poison := poison } w) (fl.foldl (· ||| ·) 0)
        (firstTrap v f fl))

/-- A tile of format g with the elements e. -/
def plainTile (g : Fmt) (rows epr : Nat) (e : Nat → Nat → Nat) : Tile :=
  { fmt := g, epr := epr, scales := [], elems := (List.range rows).map fun i => (List.range epr).map (e i) }

/-- Element i, j of the result is fn of its element index and of the operands' elements there; scalars give a scalar. -/
def GivesEach (i : Instr) (s : State) (o : Op) (u : State) (g : Fmt) (as : List VArg) (poison : Bool)
    (fn : Nat → List Nat → Nat × Flags) : Prop :=
  let at_ (i j : Nat) : List Nat := as.map fun a => a.elem i j
  (argShape as = none → GivesScalar i s o u g (fn 0 (at_ 0 0)) poison) ∧
  ∀ rows epr, argShape as = some (rows, epr) →
    GivesTile i s o u (plainTile g rows epr fun i j => (fn (i * epr + j) (at_ i j)).1)
      ((List.range rows).flatMap fun i => (List.range epr).map fun j => (fn (i * epr + j) (at_ i j)).2) poison

/-! ### Requests to ports, banks and links -/

/-- A class-4 firing leaves as a request at the end of its port's input, with the elements it will perform; one for a port of
another package leaves the package, and one for a port that the region does not have is ADDR_RANGE. -/
def RequestsPort (i : Instr) (s : State) (o : Op) (u : State) (es : List Elem) : Prop :=
  let f := s.firing
  let x := firingUnder f (tagUnder s f o.xfm)
  let elsewhere := Tab.get 0 (getRegion u f.region).span (o.imm.extractLsb' 31 3).toNat
  (∀ p, namedPort u f o = some p → ∃ j : Job, j.firing = x.1 ∧ j.tag = x.2 ∧ j.elems = es ∧ j.got = [] ∧ j.fail = none ∧
    j.held = none ∧ j.count = 0 ∧ exec i s = .next (modPort u p fun q => { q with incoming := q.incoming ++ [j] })) ∧
  (namedPort u f o = none →
    (elsewhere = 0 → exec i s = .next (answerError u x.1 x.2 (srcPort 0) (destinations u x.1 o) eADDR_RANGE 0)) ∧
    (elsewhere ≠ 0 → exec i s = .next (Machine.send u (.firing x.1 x.2))))

/-- A class-5 firing leaves as a request for the bank of its first element, with the elements it will perform; with an
irrevocable effect (shake) its strand's bit is set first, and where that is refused the firing ends (01 R43). -/
def RequestsBank (i : Instr) (s : State) (o : Op) (shake : Bool) (u : State) (es : List Elem) : Prop :=
  let f := s.firing
  (shake = true → handshake u f.region f.tag = none → exec i s = .next u) ∧
  ∀ v, (if shake then handshake u f.region f.tag else some u) = some v → ∃ q : BankReq,
    q.firing = (firingUnder f (tagUnder s f o.xfm)).1 ∧ q.tag = (firingUnder f (tagUnder s f o.xfm)).2 ∧ q.elems = es ∧
    q.src = f.cluster ∧ q.nacks = 0 ∧ q.got = [] ∧ q.fail = none ∧ q.count = 0 ∧ q.flags = 0 ∧
    exec i s = .next (submit v q)

/-- A class-7 firing takes the next request number and sends what it asks, or its message, to its target; fail is the first
of its elements that fails before it leaves, and a request that has nothing to send goes on at once. -/
def RequestsLink (i : Instr) (s : State) (o : Op) (shake : Bool) (u : State) (target : Word) (asks : List (Nat × RemoteAccess))
    (fail : Option (Nat × BitVec 8)) (note : Option (Nat × RemoteAccess)) (msg : Option RemoteSend) : Prop :=
  let f := s.firing
  let k := u.link.nextReq
  (shake = true → handshake u f.region f.tag = none → exec i s = .next u) ∧
  ∀ v, (if shake then handshake u f.region f.tag else some u) = some v → ∃ q : LinkReq,
    q.firing = (firingUnder f (tagUnder s f o.xfm)).1 ∧ q.tag = (firingUnder f (tagUnder s f o.xfm)).2 ∧ q.target = target ∧
    q.asks = asks ∧ q.note = note ∧ q.msg = msg ∧ q.got = [] ∧ q.fail = fail ∧ q.bytes = 0 ∧ q.nacks = 0 ∧ q.retryAt = none ∧
    let w := { v with link := { v.link with nextReq := k + 1 } }
    exec i s = .next (if asks = [] ∧ msg = none then goOn w k q else dispatch (setReq w k (some q)) k q asks)

/-! ### Between steps -/

/-- What holds of the schedule between steps: only events of the outside world wait in the inbox; no firing is issued while
another agent moves; a Hawk whose turn it is can perform a word (01 R29; 04 R106, R127; notes/assumptions/1.md). -/
def State.scheduled (s : State) : Prop :=
  (∀ i ∈ s.inbox, outside i = true) ∧ (s.turn ≠ .firing → s.issued = []) ∧
  ∀ th, s.turn = .hawk th → runnable (getThread s th) = true

/-! ### Canonical tables -/

/-- Memory and the check bits have their canonical form. -/
def State.memoryWf (s : State) : Bool := Memory.wf s.mem && Tab.wf 0 s.chk

end Sys2Proof.Machine
end

