-- ==== Sys2Proof/Certificates/Slice0/Obligations.lean ====
section
/-! DEFINITION. The statements for the provers. -/

open Sys2Proof Sys2Proof.Machine

/-! ### Hawk words (04) -/

/-- R133, R107: the functions of the ALU on every operand, with their result, x0 included; none traps or sets a flag.
R134, R107: the immediate forms on every operand. -/
def Obligations.AluAndImmediateWords : Prop :=
  -- Alu Words Write Their Results
  (∀ (s : State) (d a b : Reg),
      let x := rx s a
      let y := rx s b
      let sh := y.toNat % 64
      Yields (.add d a b) s d (x + y) ∧ Yields (.sub d a b) s d (x - y) ∧ Yields (.and d a b) s d (x &&& y) ∧
      Yields (.or d a b) s d (x ||| y) ∧ Yields (.xor d a b) s d (x ^^^ y) ∧ Yields (.andn d a b) s d (x &&& ~~~y) ∧
      Yields (.shl d a b) s d (x <<< sh) ∧ Yields (.shr d a b) s d (x >>> sh) ∧ Yields (.sar d a b) s d (x.sshiftRight sh) ∧
      Yields (.slt d a b) s d (if x.toInt < y.toInt then 1 else 0) ∧
      Yields (.sltn d a b) s d (if x.toNat < y.toNat then 1 else 0) ∧
      Yields (.mul d a b) s d (BitVec.ofNat 64 (x.toNat * y.toNat)) ∧
      (∃ v : Word, v.toInt = x.toInt * y.toInt / 2 ^ 64 ∧ Yields (.mulh d a b) s d v) ∧
      (∃ v : Word, v.toNat = x.toNat * y.toNat / 2 ^ 64 ∧ Yields (.mulhn d a b) s d v) ∧
      Yields (.div d a b) s d
        (if y = 0 then 0xFFFFFFFFFFFFFFFF else if x.toInt = -2 ^ 63 ∧ y.toInt = -1 then x
         else BitVec.ofInt 64 (x.toInt.tdiv y.toInt)) ∧
      Yields (.divn d a b) s d (if y = 0 then 0xFFFFFFFFFFFFFFFF else BitVec.ofNat 64 (x.toNat / y.toNat)) ∧
      Yields (.rem d a b) s d
        (if y = 0 then x else if x.toInt = -2 ^ 63 ∧ y.toInt = -1 then 0
         else BitVec.ofInt 64 (x.toInt - y.toInt * x.toInt.tdiv y.toInt)) ∧
      Yields (.remn d a b) s d (if y = 0 then x else BitVec.ofNat 64 (x.toNat % y.toNat)) ∧
      ∀ fn : BitVec 11, 0x12 ≤ fn.toNat →
        exec (hawkInstr (baseWord 0 d a b fn)) s = .next (trap s (cur s) cILLEGAL 1 ((baseWord 0 d a b fn).setWidth 64))) ∧
  -- Immediate Words Write Their Results
  (∀ (s : State) (d a : Reg) (i : BitVec 16) (sh : BitVec 6),
      let x := rx s a
      Yields (.addi d a i) s d (x + i.signExtend 64) ∧ Yields (.andi d a i) s d (x &&& i.setWidth 64) ∧
      Yields (.ori d a i) s d (x ||| i.setWidth 64) ∧ Yields (.xori d a i) s d (x ^^^ i.setWidth 64) ∧
      Yields (.shli d a sh) s d (x <<< sh.toNat) ∧ Yields (.shri d a sh) s d (x >>> sh.toNat) ∧
      Yields (.sari d a sh) s d (x.sshiftRight sh.toNat) ∧
      Yields (.slti d a i) s d (if x.toInt < i.toInt then 1 else 0) ∧
      Yields (.ldhi d i) s d (BitVec.ofInt 64 (i.toInt * 2 ^ 16)) ∧
      Yields (.addpc d i) s d (s.now.pc + BitVec.ofInt 64 (i.toInt * 2 ^ 16)) ∧
      ∀ hi : BitVec 8, let w := immWord 5 d a (hi ++ 3#2 ++ sh)
        exec (hawkInstr w) s = .next (trap s (cur s) cILLEGAL 1 (w.setWidth 64)))

/-- R136: a branch is taken exactly when its condition holds, to its own address plus four times the immediate, and else
passes to the next word; nothing else changes. R136: JMPL links in x30; JMPR reads its target before it writes its link,
and traps MISALIGN with the target in HXVAL when the target is no multiple of 4. R138, R139: FENCE passes to the next
word, earlier writes being performed already; WFE waits, or consumes at once an event that has come before. -/
def Obligations.BranchesJumpsFencesAndWaits : Prop :=
  -- Branches Follow Their Conditions
  (∀ (s : State) (d a : Reg) (i : BitVec 16),
      let x := rx s d
      let y := rx s a
      let go (c : Prop) [Decidable c] : Word := if c then s.now.pc + BitVec.ofInt 64 (4 * i.toInt) else s.now.pc + 4
      Jumps (.beq d a i) s (go (x = y)) ∧ Jumps (.bne d a i) s (go (x ≠ y)) ∧
      Jumps (.blt d a i) s (go (x.toInt < y.toInt)) ∧ Jumps (.bge d a i) s (go (y.toInt ≤ x.toInt)) ∧
      Jumps (.bltn d a i) s (go (x.toNat < y.toNat)) ∧ Jumps (.bgen d a i) s (go (y.toNat ≤ x.toNat))) ∧
  -- Jumps Link And Trap
  (∀ (s : State) (d a : Reg) (off : BitVec 26),
      (∃ t, exec (.jmpl off) s = .next t ∧
        t.now.pc = s.now.pc + BitVec.ofInt 64 (4 * off.toInt) ∧
        (∃ x, t = setThread s (cur s) { s.now with x := x, pc := t.now.pc }) ∧
        ∀ q : Reg, t.now.getX q = if q = 30 then s.now.pc + 4 else s.now.getX q) ∧
      (if (rx s a).toNat % 4 = 0 then
        ∃ t, exec (.jmpr d a) s = .next t ∧ t.now.pc = rx s a ∧
          (∃ x, t = setThread s (cur s) { s.now with x := x, pc := t.now.pc }) ∧
          ∀ q : Reg, t.now.getX q = if q = d ∧ d ≠ 0 then s.now.pc + 4 else s.now.getX q
       else exec (.jmpr d a) s = .next (trap s (cur s) cMISALIGN 0 (rx s a)))) ∧
  -- Fence And Wait Words
  (∀ (s : State) (sc : Scope),
      let t := s.now
      Jumps (.fence sc) s (t.pc + 4) ∧
      ((t.wake = true ∨ t.timer = true ∨ (t.ie = true ∧ t.pending ≠ [])) →
        exec .wfe s = .next (setThread s (cur s) { t with wake := false, pc := t.pc + 4 })) ∧
      (t.wake = false → t.timer = false → (t.ie = false ∨ t.pending = []) →
        exec .wfe s = .next (setThread s (cur s) { t with wait := true, pc := t.pc + 4 })))

/-- R135, R113: loads of a word of local SRAM that holds no error, and loads that are not aligned to their size. R135,
R113: stores into local SRAM: the low bytes of the register, little-endian, at the address and nowhere else; the check
bits are those of the new data; the thread goes on; nothing else changes. R112, R113, R135: loads and stores wherever
their address lies: what the place gives is extended into the register and the next word follows; a poisoned word traps
POISON, a place that takes no such access HPAGE with DETAIL 3, and a miss waits. -/
def Obligations.LoadsAndStoresOnSram : Prop :=
  -- Loads From Sram
  (∀ (s : State) (d a : Reg) (i : BitVec 16),
      let p := rx s a + i.signExtend 64
      let v (n : Nat) : Nat := leNat (Mem.read s.mem (sramOf s p) n)
      (SramAt s p 1 → Yields (.ldb d a i) s d ((BitVec.ofNat 8 (v 1)).signExtend 64) ∧
        Yields (.ldbn d a i) s d (BitVec.ofNat 64 (v 1))) ∧
      (SramAt s p 2 → Yields (.ldh d a i) s d ((BitVec.ofNat 16 (v 2)).signExtend 64) ∧
        Yields (.ldhn d a i) s d (BitVec.ofNat 64 (v 2))) ∧
      (SramAt s p 4 → Yields (.ldw d a i) s d ((BitVec.ofNat 32 (v 4)).signExtend 64) ∧
        Yields (.ldwn d a i) s d (BitVec.ofNat 64 (v 4))) ∧
      (SramAt s p 8 → Yields (.ldd d a i) s d (BitVec.ofNat 64 (v 8)) ∧ YieldsD (.fld d a i) s d (BitVec.ofNat 64 (v 8))) ∧
      (p.toNat % 2 ≠ 0 → exec (.ldh d a i) s = .next (trap s (cur s) cMISALIGN 0 p) ∧
        exec (.ldhn d a i) s = .next (trap s (cur s) cMISALIGN 0 p)) ∧
      (p.toNat % 4 ≠ 0 → exec (.ldw d a i) s = .next (trap s (cur s) cMISALIGN 0 p) ∧
        exec (.ldwn d a i) s = .next (trap s (cur s) cMISALIGN 0 p)) ∧
      (p.toNat % 8 ≠ 0 → exec (.ldd d a i) s = .next (trap s (cur s) cMISALIGN 0 p) ∧
        exec (.fld d a i) s = .next (trap s (cur s) cMISALIGN 0 p)) ∧
      (s.now.mode = false → 0xFF00000000000000 ≤ p.toNat → p.toNat % 8 = 0 →
        ∀ j ∈ [Instr.ldb d a i, .ldh d a i, .ldw d a i, .ldd d a i, .ldbn d a i, .ldhn d a i, .ldwn d a i, .stb d a i, .sth d a i,
          .stw d a i, .std d a i, .fld d a i, .fst d a i], exec j s = .next (trap s (cur s) cPRIV 0 (wordOf j)))) ∧
  -- Stores To Sram
  (∀ (s : State) (d a : Reg) (i : BitVec 16),
      let p := rx s a + i.signExtend 64
      let stores (j : Instr) (v : Word) (n : Nat) : Prop :=
        ∃ t, exec j s = .next t ∧
          (∀ k < n, Mem.byte t.mem (sramOf s p + k) = v.extractLsb' (8 * k) 8) ∧
          (∀ x, x < sramOf s p ∨ sramOf s p + n ≤ x → Mem.byte t.mem x = Mem.byte s.mem x) ∧
          (∀ u, Tab.get 0 t.chk u = Tab.get 0 s.chk u) ∧
          t = { setThread s (cur s) { s.now with pc := s.now.pc + 4 } with mem := t.mem, chk := t.chk }
      (SramAt s p 1 → stores (.stb d a i) (rx s d) 1) ∧ (SramAt s p 2 → stores (.sth d a i) (rx s d) 2) ∧
      (SramAt s p 4 → stores (.stw d a i) (rx s d) 4) ∧ (SramAt s p 8 → stores (.std d a i) (rx s d) 8) ∧
      (SramAt s p 8 → stores (.fst d a i) (s.now.getD d) 8) ∧
      (p.toNat % 2 ≠ 0 → exec (.sth d a i) s = .next (trap s (cur s) cMISALIGN 0 p)) ∧
      (p.toNat % 4 ≠ 0 → exec (.stw d a i) s = .next (trap s (cur s) cMISALIGN 0 p)) ∧
      (p.toNat % 8 ≠ 0 → exec (.std d a i) s = .next (trap s (cur s) cMISALIGN 0 p) ∧
        exec (.fst d a i) s = .next (trap s (cur s) cMISALIGN 0 p))) ∧
  -- Loads And Stores Elsewhere
  (∀ (s : State) (d a : Reg) (i : BitVec 16),
      let th := cur s
      let p := rx s a + i.signExtend 64
      let loads (j : Instr) (n : Nat) (put : State → Nat → State) : Prop :=
        p.toNat % n = 0 → let h := hawkLoc s th p n false (wordOf j)
          (∀ c x v, h = .trap c x v → exec j s = .next (trap s th c x v)) ∧ (∀ u, h = .wait u → exec j s = .next u) ∧
          (∀ u q, h = .ok u (.mem q) → let x := readMem u q n
            exec j s = .next (if x.2.2 then trap s th cPOISON 0 p else put x.1 (leNat x.2.1))) ∧
          (∀ u q b, h = .ok u (.bank q b) →
            (loadBank u q n = none → exec j s = .next (trap s th cHPAGE 3 p)) ∧
            ∀ v bs bad, loadBank u q n = some (v, bs, bad) →
              exec j s = .next (if bad then trap s th cPOISON 0 p else put v (leNat bs))) ∧
          (∀ u off, h = .ok u (.pcb off) →
            (loadPcb u (some th) off n = none → exec j s = .next (trap s th cHPAGE 3 p)) ∧
            ∀ v (x : Word), loadPcb u (some th) off n = some (v, x) → exec j s = .next (put v x.toNat)) ∧
          ∀ u off, h = .ok u (.dcb off) →
            (loadDcb u (th / 8) off n = none → exec j s = .next (trap s th cHPAGE 3 p)) ∧
            ∀ x : Word, loadDcb u (th / 8) off n = some x → exec j s = .next (put u x.toNat)
      let signed (n : Nat) (u : State) (v : Nat) : State := finishX u th d ((BitVec.ofNat (8 * n) v).signExtend 64)
      let plain (u : State) (v : Nat) : State := finishX u th d (BitVec.ofNat 64 v)
      let stores (j : Instr) (n : Nat) (x : Word) : Prop :=
        p.toNat % n = 0 → let h := hawkLoc s th p n true (wordOf j)
          let bs := leBytes n x.toNat
          (∀ c x v, h = .trap c x v → exec j s = .next (trap s th c x v)) ∧ (∀ u, h = .wait u → exec j s = .next u) ∧
          (∀ u q, h = .ok u (.mem q) → let y := writeMem u q bs false
            exec j s = .next (if y.2 then advance y.1 th else trap s th cPOISON 0 p)) ∧
          (∀ u q b, h = .ok u (.bank q b) →
            (∀ c, storeBank u q bs false = .error c →
              exec j s = .next (trap s th (if c = ePOISON then cPOISON else cHPAGE) (if c = ePOISON then 0 else 3) p)) ∧
            ∀ v, storeBank u q bs false = .ok v → exec j s = .next (advance v th)) ∧
          (∀ u off, h = .ok u (.pcb off) → let y := storePcb u (some th) off n ((x.setWidth (8 * n)).setWidth 64)
            (y = .bad → exec j s = .next (trap s th cHPAGE 3 p)) ∧
            (y = .full → exec j s = .next (setThread u th { getThread u th with block := .msggo })) ∧
            ∀ v, y = .ok v → exec j s = .next (advance v th)) ∧
          ∀ u off, h = .ok u (.dcb off) → exec j s = .next (trap s th cHPAGE 3 p)
      loads (.ldb d a i) 1 (signed 1) ∧ loads (.ldh d a i) 2 (signed 2) ∧ loads (.ldw d a i) 4 (signed 4) ∧
      loads (.ldd d a i) 8 plain ∧ loads (.ldbn d a i) 1 plain ∧ loads (.ldhn d a i) 2 plain ∧ loads (.ldwn d a i) 4 plain ∧
      loads (.fld d a i) 8 (fun u v => finishD u th d (BitVec.ofNat 64 v)) ∧
      stores (.stb d a i) 1 (rx s d) ∧ stores (.sth d a i) 2 (rx s d) ∧ stores (.stw d a i) 4 (rx s d) ∧
      stores (.std d a i) 8 (rx s d) ∧ stores (.fst d a i) 8 (s.now.getD d))

/-- R137, R113: an atomic on a word of local SRAM that holds no error: the old value zero-extended into xd, the new
value in memory, and nothing else but the pc changed. Elsewhere: a plain bank word of the window likewise; every other
place but the allocator's traps HPAGE with DETAIL 3; a misaligned one traps MISALIGN. -/
def Obligations.AtomicsOnSram : Prop :=
  ∀ (s : State) (d a b : Reg) (sc : Scope),
    let p := rx s a
    let does (j : Instr) (n : Nat) (new : BitVec (8 * n) → BitVec (8 * n) → BitVec (8 * n) → BitVec (8 * n)) : Prop :=
      (SramAt s p n → ∃ t,
        let old := BitVec.ofNat (8 * n) (leNat (Mem.read s.mem (sramOf s p) n))
        exec j s = .next t ∧ t.now.pc = s.now.pc + 4 ∧
        (∀ q : Reg, t.now.getX q = if q = d ∧ d ≠ 0 then old.setWidth 64 else s.now.getX q) ∧
        leNat (Mem.read t.mem (sramOf s p) n) = (new old ((rx s b).setWidth (8 * n)) ((rx s d).setWidth (8 * n))).toNat ∧
        (∀ x, x < sramOf s p ∨ sramOf s p + n ≤ x → Mem.byte t.mem x = Mem.byte s.mem x) ∧
        (∀ u, Tab.get 0 t.chk u = Tab.get 0 s.chk u) ∧
        t = { setThread s (cur s) { s.now with x := t.now.x, pc := t.now.pc } with mem := t.mem, chk := t.chk }) ∧
      (p.toNat % n ≠ 0 → exec j s = .next (trap s (cur s) cMISALIGN 0 p)) ∧
      (p.toNat % n = 0 → p.toNat < bankWindow → exec j s = .next (trap s (cur s) cHPAGE 3 p)) ∧
      (p.toNat % n = 0 → bankWindow ≤ p.toNat → let h := hawkLoc s (cur s) p n true (wordOf j)
        (∀ c x v, h = .trap c x v → exec j s = .next (trap s (cur s) c x v)) ∧ (∀ u, h = .wait u → exec j s = .next u) ∧
        (∀ u q, h = .ok u (.bank q true) → wordMode u q = .plain → let x := readMem u q n
          (x.2.2 = true → kindOf q ≠ .sram → exec j s = .next (trap s (cur s) cPOISON 0 p)) ∧
          (x.2.2 = false → let old := BitVec.ofNat (8 * n) (leNat x.2.1)
            exec j s = .next (finishX (writeMem x.1 q
              (leBytes n (new old ((rx s b).setWidth (8 * n)) ((rx s d).setWidth (8 * n))).toNat) false).1
              (cur s) d (old.setWidth 64)))) ∧
        (∀ u q, h = .ok u (.bank q true) → wordMode u q ≠ .plain → exec j s = .next (trap s (cur s) cHPAGE 3 p)) ∧
        (∀ u q, h = .ok u (.bank q false) ∨ (h = .ok u (.mem q) ∧ kindOf q ≠ .sram) ∨ h = .ok u (.dcb q) →
          exec j s = .next (trap s (cur s) cHPAGE 3 p)) ∧
        ∀ u off, h = .ok u (.pcb off) → off ≠ 0x1100 → exec j s = .next (trap s (cur s) cHPAGE 3 p))
    let all (n : Nat) (w : Bool) : Prop :=
      does (.atomSwap d a b sc w) n (fun _ y _ => y) ∧ does (.atomAdd d a b sc w) n (fun o y _ => o + y) ∧
      does (.atomAnd d a b sc w) n (fun o y _ => o &&& y) ∧ does (.atomOr d a b sc w) n (fun o y _ => o ||| y) ∧
      does (.atomXor d a b sc w) n (fun o y _ => o ^^^ y) ∧
      does (.atomMin d a b sc w) n (fun o y _ => if o.toInt ≤ y.toInt then o else y) ∧
      does (.atomMax d a b sc w) n (fun o y _ => if o.toInt ≤ y.toInt then y else o) ∧
      does (.atomMinn d a b sc w) n (fun o y _ => if o.toNat ≤ y.toNat then o else y) ∧
      does (.atomMaxn d a b sc w) n (fun o y _ => if o.toNat ≤ y.toNat then y else o) ∧
      does (.atomCas d a b sc w) n (fun o y c => if o = c then y else o)
    all 8 false ∧ all 4 true ∧
    ∀ u, p.toNat % 8 = 0 → bankWindow ≤ p.toNat →
      hawkLoc s (cur s) p 8 true (wordOf (.atomSwap d a b sc false)) = .ok u (.pcb 0x1100) →
      let x := allocate u (cur s / 8) (rx s b)
      exec (.atomSwap d a b sc false) s = .next (finishX x.1 (cur s) d x.2)

/-- R140, R107: the floating-point words that round, under the mode the word or HRMODE names, in f32 or f64; an enabled
flag traps before anything is written. R140, R107: the floating-point words that only choose, compare, classify or move;
FMOV raises no flag. -/
def Obligations.FloatingWords : Prop :=
  -- Floating Words Round
  (∀ (s : State) (d a b c : Reg) (rm : HRm) (sp : Bool),
      let p := fpHawk sp
      let m := hawkRound s rm
      let x := fpArg s sp a
      let y := fpArg s sp b
      FpD (.fadd d a b rm sp) s d (fpAdd p m false 0 x y) ∧ FpD (.fsub d a b rm sp) s d (fpSub p m false 0 x y) ∧
      FpD (.fmul d a b rm sp) s d (fpMul p m false 0 x y) ∧ FpD (.fdiv d a b rm sp) s d (fpDiv p m false 0 x y) ∧
      FpD (.fsqrt d a rm sp) s d (fpSqrt p m false 0 x) ∧
      FpD (.ffma d a b c rm sp) s d (fpFma p m false 0 x y (fpArg s sp c)) ∧
      FpD (.fcvtFf d a rm sp) s d (fpConvert p m false 0 (fpArg s (!sp) a)) ∧
      FpD (.fcvtFromi d a rm sp) s d (intToFp p m false 0 (rx s a).toInt) ∧
      FpD (.fcvtFromn d a rm sp) s d (intToFp p m false 0 (rx s a).toNat) ∧
      FpX (.fcvtToi d a rm sp) s d (fpToInt .i64 m false 0 x) ∧ FpX (.fcvtTon d a rm sp) s d (fpToInt .n64 m false 0 x) ∧
      FpD (.fcvtInt d a rm sp) s d
        ((fpIntegral p m 0 x).1,
         if (fpIntegral p m 0 x).2.1 then (fpIntegral p m 0 x).2.2 ||| fNX else (fpIntegral p m 0 x).2.2)) ∧
  -- Floating Words Select And Move
  (∀ (s : State) (d a b : Reg) (sp : Bool),
      let p := fpHawk sp
      let x := if sp then (rd s a).toNat % 2 ^ 32 else (rd s a).toNat
      let y := if sp then (rd s b).toNat % 2 ^ 32 else (rd s b).toNat
      let sign := if sp then 2 ^ 31 else 2 ^ 63
      let cmp (fn : Nat) : Nat × Flags :=
        ((if (fpCompare fn (unpack p x) (unpack p y)).1 then 1 else 0), (fpCompare fn (unpack p x) (unpack p y)).2)
      FpD (.fminIeee d a b sp) s d (fpMinMax p false x y) ∧ FpD (.fmaxIeee d a b sp) s d (fpMinMax p true x y) ∧
      FpD (.fminNum d a b sp) s d (fpMinMaxNum p false x y) ∧ FpD (.fmaxNum d a b sp) s d (fpMinMaxNum p true x y) ∧
      FpX (.fcmpEq d a b sp) s d (cmp 0) ∧ FpX (.fcmpLt d a b sp) s d (cmp 2) ∧ FpX (.fcmpLe d a b sp) s d (cmp 3) ∧
      FpX (.fcmpUn d a b sp) s d (cmp 6) ∧ FpX (.fclass d a sp) s d (fpClass p x, 0) ∧
      FpD (.fmovMov d a sp) s d (x, 0) ∧
      FpD (.fmovFromx d a sp) s d ((if sp then (rx s a).toNat % 2 ^ 32 else (rx s a).toNat), 0) ∧
      FpX (.fmovTox d a sp) s d (x, 0) ∧ FpD (.fmovNeg d a sp) s d (x ^^^ sign, 0) ∧
      FpD (.fmovAbs d a sp) s d (x % sign, 0) ∧ FpD (.fmovCpys d a b sp) s d (x % sign + y / sign * sign, 0))

/-- R92: how each mode rounds the quotient of a magnitude by a power of two: the multiple below or the next one, the
exact one when there is no remainder; to nearest, ties to even or away; toward zero; up or down by the sign. -/
def Obligations.RoundingModesChooseTheirNeighbour : Prop :=
  ∀ (s : Bool) (rnd m k : Nat) (e : Int), 0 < k →
    let f (mode : Rnd) : Nat × Bool := roundTo mode s rnd m e false (e + k)
    let lo := m / 2 ^ k
    let rem := m % 2 ^ k
    (∀ mode, (f mode).2 = decide (rem ≠ 0) ∧ ((f mode).1 = lo ∨ (f mode).1 = lo + 1) ∧ (rem = 0 → (f mode).1 = lo)) ∧
    (f .rtz).1 = lo ∧
    (f .rup).1 = (if rem ≠ 0 ∧ s = false then lo + 1 else lo) ∧ (f .rdn).1 = (if rem ≠ 0 ∧ s = true then lo + 1 else lo) ∧
    (f .rne).1 = (if 2 * rem < 2 ^ k then lo else if 2 ^ k < 2 * rem then lo + 1 else if lo % 2 = 0 then lo else lo + 1) ∧
    (f .rna).1 = (if 2 * rem < 2 ^ k then lo else lo + 1)

/-- R128, R130, R83: TRAP, SVC and an illegal word save the cause, their own address and their value, the mode and IE,
enter supervisor mode with IE clear and go to HVEC; nothing else changes. With IE clear in supervisor mode the thread
halts instead. TRET takes mode, IE and pc back, and traps PRIV in guest mode. -/
def Obligations.TrapsEnterAndReturn : Prop :=
  ∀ (s : State) (imm : BitVec 16) (w : BitVec 32),
    let th := cur s
    let t := s.now
    let enters (i : Instr) (code detail : Nat) (v : Word) : Prop :=
      (¬(t.mode = true ∧ t.ie = false) →
        exec i s = .next (setThread s th { t with
          cause := BitVec.ofNat 64 (detail * 2 ^ 16 + code), xpc := t.pc, xval := v, block := .none,
          pmode := t.mode, pie := t.ie, mode := true, ie := false, pc := t.vec })) ∧
      (t.mode = true → t.ie = false → ∃ u, exec i s = .next u ∧ (getThread u th).halt = true ∧
        (getThread u th).pc = t.pc ∧ (getThread u th).cause = BitVec.ofNat 64 (detail * 2 ^ 16 + code) ∧
        (getThread u th).xpc = t.pc ∧ (getThread u th).xval = v)
    enters (.trap imm) 0x05 0 (imm.signExtend 64) ∧ enters (.svc imm) 0x06 0 (imm.signExtend 64) ∧
    enters (.illegalEncoding w) 0x01 1 (w.setWidth 64) ∧
    (t.mode = true → exec .tret s = .next (setThread s th { t with mode := t.pmode, ie := t.pie, pc := t.xpc })) ∧
    (t.mode = false → exec .tret s = .next (trap s th cPRIV 0 0xAC000000))

/-- R108 to R111, R132: SYSR reads each register in supervisor mode (HWAKE, which is only written, as a free value: log
28), and traps ILLEGAL for a number that names none; in guest mode it reads the registers that the table opens to guests
and traps PRIV for the others. R108 to R111, R127: SYSW writes the fields that each register has, keeps the ones it
calls read-only, and changes nothing else but the pc (HWAKE wakes the threads of its die that the mask names); it traps
ILLEGAL for a read-only register or a number that names none, and PRIV for a guest where the table opens no write. -/
def Obligations.SystemRegistersReadAndWrite : Prop :=
  -- System Registers Read
  (∀ (s : State) (d : Reg) (n : BitVec 16),
      let t := s.now
      let i := Instr.sysr d n
      let reads (k : Nat) (guest : Bool) (v : Word) : Prop :=
        n.toNat = k → (t.mode = true ∨ guest = true → Yields i s d v) ∧
          (t.mode = false → guest = false → exec i s = .next (trap s (cur s) cPRIV 0 (wordOf i)))
      reads 0x00 true (BitVec.ofNat 64 ((if t.halt then 32 else 0) + (if t.wait then 16 else 0) + (if t.pie then 8 else 0) +
        (if t.ie then 4 else 0) + (if t.pmode then 2 else 0) + (if t.mode then 1 else 0))) ∧
      reads 0x01 false t.cause ∧ reads 0x02 false t.xpc ∧ reads 0x03 false t.xval ∧ reads 0x04 false t.vec ∧
      reads 0x05 false t.scratch ∧ reads 0x08 true (BitVec.ofNat 64 (t.en.toNat * 2 ^ 8 + t.flags.toNat)) ∧
      reads 0x09 true (BitVec.ofNat 64 t.rmode.toNat) ∧ reads 0x10 true (BitVec.ofNat 64 s.htime) ∧ reads 0x11 true t.timecmp ∧
      reads 0x12 false (BitVec.ofNat 64 (Config.free s.steps)) ∧
      reads 0x18 true t.region ∧ reads 0x19 false (BitVec.ofNat 64 t.asid.toNat) ∧
      reads 0x1A true (BitVec.ofNat 64 (hregion s t).hsinks.toNat) ∧ reads 0x1B true (BitVec.ofNat 64 (cur s)) ∧
      reads 0x20 true 0xFF0000000200F400 ∧ reads 0x21 false 0xFF00000001000000 ∧
      (n.toNat ∉ [0x00, 0x01, 0x02, 0x03, 0x04, 0x05, 0x08, 0x09, 0x10, 0x11, 0x12, 0x18, 0x19, 0x1A, 0x1B, 0x20, 0x21] →
        exec i s = .next (trap s (cur s) cILLEGAL 1 (wordOf i)))) ∧
  -- System Registers Write
  (∀ (s : State) (d : Reg) (n : BitVec 16),
      let t := s.now
      let i := Instr.sysw d n
      let v := rx s d
      let writes (k : Nat) (guest : Bool) (u : Thread) : Prop :=
        n.toNat = k → (t.mode = true ∨ guest = true → exec i s = .next (setThread s (cur s) { u with pc := t.pc + 4 })) ∧
          (t.mode = false → guest = false → exec i s = .next (trap s (cur s) cPRIV 0 (wordOf i)))
      writes 0x00 false { t with pie := v.getLsbD 3, ie := v.getLsbD 2, pmode := v.getLsbD 1, mode := v.getLsbD 0 } ∧
      writes 0x01 false { t with cause := v &&& 0xFFFF01FF } ∧ writes 0x02 false { t with xpc := v } ∧
      writes 0x03 false { t with xval := v } ∧ writes 0x04 false { t with vec := v &&& 0xFFFFFFFFFFFFFFFC } ∧
      writes 0x05 false { t with scratch := v } ∧
      writes 0x08 true { t with en := v.extractLsb' 8 5, flags := v.extractLsb' 0 5 } ∧
      writes 0x09 true { t with rmode := if v.toNat % 8 < 5 then v.extractLsb' 0 3 else t.rmode } ∧
      writes 0x11 true { t with timecmp := v, timer := false } ∧ writes 0x18 false { t with region := v } ∧
      writes 0x19 false { t with asid := v.extractLsb' 0 32 } ∧
      (n.toNat = 0x12 → t.mode = true → ∃ u, exec i s = .next u ∧ u = { s with threads := u.threads } ∧
        ∀ q, getThread u q = { getThread s q with
          wake := (getThread s q).wake || (decide (q / 8 = cur s / 8) && v.getLsbD (q % 8)),
          pc := if q = cur s then t.pc + 4 else (getThread s q).pc }) ∧
      (n.toNat = 0x12 → t.mode = false → exec i s = .next (trap s (cur s) cPRIV 0 (wordOf i))) ∧
      (n.toNat ∈ [0x10, 0x1A, 0x1B, 0x20, 0x21] ∨
        n.toNat ∉ [0x00, 0x01, 0x02, 0x03, 0x04, 0x05, 0x08, 0x09, 0x10, 0x11, 0x12, 0x18, 0x19, 0x1A, 0x1B, 0x20, 0x21] →
        exec i s = .next (trap s (cur s) cILLEGAL 1 (wordOf i))))

/-- R116, R120: a graph instruction other than INJ and SNKPOP traps PRIV in guest mode; each traps ILLEGAL with DETAIL 2
when HREGION names no region in a state from which it is allowed. R116, R120: what the graph instructions do on a region
in the right state, once no other thread's GLOAD.entry is under way on it. GLOAD and RESTORE put the status in xd and
load only what they accept; SCAN stores the sheet and puts its length in xd; FREEZE enters its freeze and THAW its tick,
and their threads wait (RegionsFreezeAndThaw says when they end, with the tick in xd); SNKPOP takes the oldest sink
token, or answers zero, or waits; INJ sends its token, under a fresh colour with NEW, after discarding the buffered
copies with FEN; OPWR writes the slot. Each ends its word at the next one, and no other thread changes. R113, R115,
R120: DIAGST writes eight bytes and the check bits of the unit that holds them, and no other byte; a misaligned address
traps MISALIGN, and one outside the range of its TARGET traps HPAGE with DETAIL 3. HBM and bank targets need no region.
-/
def Obligations.GraphInstructionsAct : Prop :=
  -- Graph Instructions Check Their Region
  (∀ (s : State) (d a b : Reg) (e f : Bool),
      let th := cur s
      let privileged (i : Instr) : Prop := s.now.mode = false → exec i s = .next (trap s th cPRIV 0 (wordOf i))
      let needs (i : Instr) (ok : List RState) (priv : Bool) : Prop :=
        (s.now.mode = true ∨ priv = false) → graphRegion s th ok = none → exec i s = .next (trap s th cILLEGAL 2 (wordOf i))
      privileged (.gload d a e) ∧ privileged (.freeze d) ∧ privileged (.thaw d) ∧ privileged (.scan d a) ∧
      privileged (.restore d a) ∧ privileged (.opwr d a b) ∧ privileged (.diagstHbm d a b) ∧ privileged (.diagstBank d a b) ∧
      privileged (.diagstSp d a b) ∧
      needs (.gload d a e) [.granted] true ∧ needs (.restore d a) [.granted] true ∧ needs (.freeze d) [.loaded] true ∧
      needs (.thaw d) [.frozen] true ∧ needs (.scan d a) [.frozen] true ∧ needs (.opwr d a b) [.loaded, .frozen] true ∧
      needs (.inj d a b e f) [.loaded] false ∧ needs (.snkpop d b e) [.loaded] false) ∧
  -- Graph Instructions Act
  (∀ (s : State) (d a b : Reg) (rid : Nat) (e fen : Bool),
      let th := cur s
      let r := getRegion s rid
      let ok (l : List RState) (priv : Bool) : Prop :=
        (priv = true → s.now.mode = true) ∧ graphRegion s th l = some rid ∧ loadUnderWay s rid th = false
      (ok [.granted] true →
        (∀ s' code, checkedImage s rid th (rx s a) (wordOf (.gload d a e)) = .ok s' (code, none) →
          exec (.gload d a e) s = .next (finishX s' th d (BitVec.ofNat 64 code))) ∧
        (∀ s' code m, checkedImage s rid th (rx s a) (wordOf (.gload d a false)) = .ok s' (code, some m) →
          exec (.gload d a false) s = .next (finishX (loadImage s' rid th m) th d 0)) ∧
        ∀ s' code m, checkedImage s rid th (rx s a) (wordOf (.gload d a true)) = .ok s' (code, some m) →
          let v := loadImage s' rid th m
          let ts := m.entries.map (entryToken (getRegion v rid))
          (∀ u, injectEntries rid th ts (dropCopies v) = (u, []) → exec (.gload d a true) s = .next
            (reissue (finishX (blockOn u th .none) th d 0) rid fun x => x == .graphTurn)) ∧
          ∀ u t rest, injectEntries rid th ts (dropCopies v) = (u, t :: rest) → exec (.gload d a true) s = .next
            (blockOn (if (t :: rest).length = ts.length then v else u) th (.entries d (t :: rest)))) ∧
      (ok [.granted] true → ∀ s' bs l, fetchSheet s th (rx s a) (wordOf (.restore d a)) = .ok s' bs → parseSheet bs = some l →
        carriesPoison l = false → exec (.restore d a) s =
          .next (finishX (if sheetRefusal s' rid bs = 0 then loadSheet s' rid th bs l else s') th d
            (BitVec.ofNat 64 (sheetRefusal s' rid bs)))) ∧
      (ok [.granted] true → ∀ s' bs, fetchSheet s th (rx s a) (wordOf (.restore d a)) = .ok s' bs → parseSheet bs = none →
        sheetRefusal s' rid bs ≠ 0 → exec (.restore d a) s =
          .next (finishX s' th d (BitVec.ofNat 64 (sheetRefusal s' rid bs)))) ∧
      (ok [.frozen] true → r.lost = false → (rx s a).toNat % 4096 = 0 → ∀ s' poison,
        storeBytes s th (rx s a) (sheetOf s rid) (wordOf (.scan d a)) = .ok s' poison → exec (.scan d a) s =
          .next (finishX s' th d (BitVec.ofNat 64 ((sheetOf s rid).length + if poison then 2 ^ 63 else 0)))) ∧
      (ok [.loaded] true → exec (.freeze d) s = .next (blockOn (raiseFreeze s rid s.htime) th (.freeze d))) ∧
      (ok [.frozen] true → r.lost = false → exec (.thaw d) s =
        .next (blockOn (setRegion s rid { r with state := .loaded, thawAt := some (s.htime + signalDelay r) }) th (.thaw d))) ∧
      (ok [.loaded] false → ∀ t rest, r.sinks = t :: rest → ∃ u, exec (.snkpop d b e) s = .next u ∧
        getRegion u rid = { r with sinks := rest, hsinks := if r.hsinks = 0 then 0 else r.hsinks - 1 } ∧
        u.now.pc = s.now.pc + 4 ∧ u.now.block = .none ∧
        ∀ q : Reg, u.now.getX q = if q = b ∧ b ≠ 0 then headerBits { t with dst := moveDst (toRelative r) t.dst }
          else if q = d ∧ d ≠ 0 then t.payload else s.now.getX q) ∧
      (ok [.loaded] false → r.sinks = [] → (∃ u, exec (.snkpop d b false) s = .next u ∧ u.now.pc = s.now.pc + 4 ∧
        (∀ q : Reg, u.now.getX q = if q = b ∨ q = d then 0 else s.now.getX q) ∧
        u = setThread s th { s.now with x := u.now.x, pc := s.now.pc + 4 }) ∧
        exec (.snkpop d b true) s = .next (setThread s th { s.now with block := .snkpop d b })) ∧
      (ok [.loaded] false →
        let tok := entryToken r (tokOf (rx s a) (rx s b))
        let u := if fen then dropCopies s else s
        let header (x : Tok) : Word := headerBits { x with dst := moveDst (toRelative r) x.dst }
        (injOk s rid (rx s a) false = true →
          exec (.inj d a b false fen) s = .next (finishX (hawkSend u rid th tok) th d (header tok))) ∧
        (injOk s rid (rx s a) true = true →
          (injectNew u rid th tok = none → exec (.inj d a b true fen) s = .next (blockOn s th (.inj d a b fen))) ∧
          ∀ v x, injectNew u rid th tok = some (v, x) →
            exec (.inj d a b true fen) s = .next (finishX (blockOn v th .none) th d (header x))) ∧
        ∀ new, injOk s rid (rx s a) new = false →
          exec (.inj d a b new fen) s = .next (trap s th cILLEGAL 3 (wordOf (.inj d a b new fen)))) ∧
      (ok [.loaded, .frozen] true → ∀ s' bs c, rx s b &&& 0xFFFFFFFFE000003F = 0 →
        fetchSound s th (rx s a) 16 (wordOf (.opwr d a b)) = .ok s' bs →
        placeOk s r (dstOf (rx s b).toNat).die.toNat (dstOf (rx s b).toNat).cluster.toNat = true →
        recCluster s' r (dstOf (rx s b).toNat).die.toNat (dstOf (rx s b).toNat).cluster.toNat = some c →
        exec (.opwr d a b) s = .next (finishX (writeSlot s' rid c (dstOf (rx s b).toNat).slot (BitVec.ofNat 128 (leNat bs))) th d 0))) ∧
  -- Diagst Writes Data And Check Bits
  (∀ (s : State) (d a b : Reg), s.now.mode = true →
      let th := cur s
      let p := (rx s a).toNat
      let check := rx s d
      let writes (i : Instr) (at_ : Nat) (syndrome : Nat → BitVec 16) : Prop :=
        let unit := at_ / unitOf (kindOf at_) * unitOf (kindOf at_)
        ∃ t, exec i s = .next t ∧ Mem.read t.mem at_ 8 = leBytes 8 (rx s b).toNat ∧
          Tab.get 0 t.chk unit = syndrome (leNat (Mem.read t.mem unit (unitOf (kindOf at_)))) ∧
          (∀ x, x < at_ ∨ at_ + 8 ≤ x → Mem.byte t.mem x = Mem.byte s.mem x) ∧
          (∀ u, u ≠ unit → Tab.get 0 t.chk u = Tab.get 0 s.chk u) ∧
          t = { setThread s th { s.now with pc := s.now.pc + 4 } with mem := t.mem, chk := t.chk }
      (p % 8 ≠ 0 → ∀ i ∈ [Instr.diagstHbm d a b, .diagstBank d a b, .diagstSp d a b],
        exec i s = .next (trap s th cMISALIGN 0 (rx s a))) ∧
      (p % 8 = 0 →
        (∀ h, upperLoc s (th / 8) p = some (.mem h) → h < 2 ^ 40 → inSinkArea h = false → 
          writes (.diagstHbm d a b) h fun data => check.setWidth 16 ^^^ BitVec.ofNat 16 (checkBits 9 256 data)) ∧
        (∀ h w, upperLoc s (th / 8) p = some (.bank h w) → kindOf h = .bank →
          writes (.diagstBank d a b) h fun data => BitVec.ofNat 16 (bits check 7 0 ^^^ checkBits 7 64 data)) ∧
        (∀ c off, locate s (hregion s s.now) p 8 = .scratch c off → kindOf (spAddr c off) = .sp →
          writes (.diagstSp d a b) (spAddr c off) fun data =>
            let x := check.setWidth 8 ^^^ Config.scratchCode (BitVec.ofNat 64 data)
            if x = 0 then 0 else 0x200 ||| x.setWidth 16) ∧
        ((∀ c off, locate s (hregion s s.now) p 8 ≠ .scratch c off) →
          exec (.diagstSp d a b) s = .next (trap s th cHPAGE 3 (rx s a))) ∧
        (∀ h, upperLoc s (th / 8) p = some (.mem h) → exec (.diagstBank d a b) s = .next (trap s th cHPAGE 3 (rx s a)) ∧
          (2 ^ 40 ≤ h ∨ inSinkArea h = true → exec (.diagstHbm d a b) s = .next (trap s th cHPAGE 3 (rx s a)))) ∧
        (∀ h w, upperLoc s (th / 8) p = some (.bank h w) →
          exec (.diagstHbm d a b) s = .next (trap s th cHPAGE 3 (rx s a))) ∧
        (upperLoc s (th / 8) p = none → exec (.diagstHbm d a b) s = .next (trap s th cHPAGE 3 (rx s a)) ∧
          exec (.diagstBank d a b) s = .next (trap s th cHPAGE 3 (rx s a)))))

/-! ### Class 0 (05) -/

/-- R154, R157: the operators that move tokens emit them as they came, each on the destinations the spec names. R155:
with DEEP set and a tile, DUP gives each destination in the firing cluster a copy in a fresh allocation with the
source's shape, and each other destination the token itself. R156: CONST's payload by its mode. R158: DROP consumes its
tokens; SINK sends its token toward its region's ring with the kind, flags and payload it has. R159, R160: SRC starts a
stream of n values, nothing for n = 0, and waits while four run; TAGX sends its data to copy j of DST0's node, and its
errors (a number or a copy outside, an operand that is an error token, a stale tile) go to DST1, or are discarded and
counted where DST1 is not valid. -/
def Obligations.ControlOperators : Prop :=
  -- Control Operators Pass Their Tokens
  (∀ (s : State) (o : Op), Performs s o.xfm →
      let u := s.coloured o.xfm
      let f := s.firing
      let ds := destinations u f o
      let t (i : Nat) : Tok := tokAt f i
      let sound (i : Nat) : Prop := dataError u f o (t i) = none
      let used (i : Nat) : Prop := isScalar (t i) = true ∧ (t i).flag.poison = false
      let yes (i : Nat) : Prop := ((t i).payload ≠ 0) ≠ (o.imm.getLsbD 3 = true)
      let k := (t 1).payload.toNat
      (sound 0 → Emits (.pass o) s o u (passTo ds (t 0)) 0 0 ∧ Emits (.mark o) s o u (passTo ds (t 0)) 0 0 ∧
        (o.imm.getLsbD 0 = false ∨ (t 0).kind ≠ .tile → Emits (.dup o) s o u (passTo ds (t 0)) 0 0)) ∧
      (sound 0 → used 1 →
        (∀ d, ds[k]? = some d → Emits (.route o) s o u (passTo [d] (t 0)) 0 0) ∧
        (ds.length ≤ k → Emits (.route o) s o u (outTo (ds.filter fun d => d.1 == 0) .error Flag.none
          (errorPayload (getRegion u f.region) f.cluster f.slot (k % 2 ^ 32) eBOUNDS)) 0 0) ∧
        (yes 1 → Emits (.gate o) s o u (passTo ds (t 0)) 0 0 ∧
          Emits (.steer o) s o u (passTo (ds.filter fun d => d.1 == 0 || decide (2 ≤ d.1 ∧ d.1 < 2 + o.imm.toNat % 8)) (t 0)) 0 0) ∧
        (¬ yes 1 → Emits (.gate o) s o u [] 0 0 ∧
          Emits (.steer o) s o u (passTo (ds.filter fun d => d.1 == 1 || decide (2 + o.imm.toNat % 8 ≤ d.1)) (t 0)) 0 0)) ∧
      (used 0 → sound 1 → sound 2 → (yes 0 → Emits (.sel o) s o u (passTo ds (t 1)) 0 0) ∧
        (¬ yes 0 → Emits (.sel o) s o u (passTo ds (t 2)) 0 0)) ∧
      ((∀ t ∈ f.toks, dataError u f o t = none) → Emits (.join o) s o u (passTo ds (t (o.imm.toNat % 4))) 0 0)) ∧
  -- Deep Dup Copies Lines
  (∀ (s : State) (o : Op), Performs s o.xfm → o.imm.getLsbD 0 = true →
      let u := s.coloured o.xfm
      let f := s.firing
      let t := tokAt f 0
      let h := handleOf t.payload
      t.kind = .tile → dataError u f o t = none →
      (∀ v outs, deepCopies u f t (destinations u f o) = some (v, outs) → Emits (.dup o) s o v outs 0 0) ∧
      (deepCopies u f t (destinations u f o) = none → exec (.dup o) s = .next (requeue s f)) ∧
      ∀ v w, copyTile u f t.payload = some (v, w) →
        handleOf w = { h with base := (handleOf w).base, gen := (handleOf w).gen, res := 0, owner := f.cluster % 512 }) ∧
  -- Const Emits Its Value
  (∀ (s : State) (o : Op), Performs s o.xfm →
      let u := s.coloured o.xfm
      let v := (o.imm.extractLsb' 0 35)
      let p : Nat := match (o.imm.extractLsb' 35 2).toNat with
        | 0 => (v.signExtend 64).toNat
        | 1 => (v.setWidth 64 <<< 29).toNat
        | _ => v.toNat
      Emits (.const o) s o u (outTo (destinations u s.firing o) .scalar Flag.none (narrow o.fmt p)) 0 0) ∧
  -- Drop And Sink Consume
  (∀ (s : State) (o : Op),
      let f := s.firing
      let t := tokAt f 0
      exec (.drop o) s = .next s ∧
      ((t.kind = .error ∨ (f.stale = false ∧ dataError s f o t = none)) →
        ∃ v, exec (.sink o) s = .next v ∧
          (getRegion v f.region).sinkWait = (getRegion s f.region).sinkWait ++
            [{ t with flag := { t.flag with irrev := t.flag.irrev || strandIrrev s f.region f.tag } }] ∧
          Tab.get 0 (getCluster v f.cluster).sunk f.slot.toNat = Tab.get 0 (getCluster s f.cluster).sunk f.slot.toNat + 1 ∧
          v = setCluster (setRegion s f.region (getRegion v f.region)) f.cluster (getCluster v f.cluster))) ∧
  -- Src And Tagx
  (∀ (s : State) (o : Op),
      let f := s.firing
      let t (i : Nat) : Tok := tokAt f i
      (f.stale = false → (∀ x ∈ f.toks, isScalar x = true ∧ x.flag.poison = false) → 2 ≤ f.toks.length →
        let n := (t 0).payload.toNat % 2 ^ 32
        let k := getCluster s f.cluster
        (4 ≤ k.streams.length → exec (.src o) s = .next (requeue s f)) ∧
        (k.streams.length < 4 → n = 0 → exec (.src o) s = .next s) ∧
        (k.streams.length < 4 → n ≠ 0 → exec (.src o) s = .next (setCluster s f.cluster
          { k with streams := k.streams ++ [{ firing := f, left := n, next := (t 1).payload }] }))) ∧
      (let u := s.coloured o.xfm
       let fails (p : Word) : Prop :=
        let ends (v : State) (outs : List Out) : Prop :=
          exec (.tagx o) s = .next (emit v f { o with fe := false } o.xfm (tagUnder s f o.xfm) outs 0 0)
        (o.dst1.valid = true → ends u (outTo [(1, { o.dst1 with rwi := 0 })] .error Flag.none p)) ∧
        (o.dst1.valid = false → isTagx f.word = true → ends (addDiscarded u f.region (firingNode u f) 1) [])
       (∀ e, (tagUnder s f o.xfm).granted = true → f.toks.find? (fun t => t.kind == .error) = some e → fails e.payload) ∧
       ((tagUnder s f o.xfm).granted = true → f.stale = true → (∀ t ∈ f.toks, t.kind = .scalar) →
        fails (errorPayload (getRegion s f.region) f.cluster f.slot 0 eREPLAY_STALE)) ∧
       (Performs s o.xfm → dataError u f o (t 0) = none → isScalar (t 1) = true → (t 1).flag.poison = false →
        let r := getRegion u f.region
        let k := (t 1).payload.toNat
        let m := (o.imm.extractLsb' 0 9).toNat + 1
        let j := if o.imm.getLsbD 18 then k else k % m
        let at_ (c : Nat) : Prop := j < m ∧
          r.absolute (r.relative o.dst0.cluster.toNat + j * (o.imm.extractLsb' 9 9).toNat) = some c ∧
          (regionCluster u r o.dst0.die.toNat c).isSome = true
        (∀ c, at_ c → Emits (.tagx o) s o u
          (passTo (if o.dst0.valid then [(0, { o.dst0 with cluster := BitVec.ofNat 9 c, rwi := 0 })] else []) (t 0)) 0 0) ∧
        ((∀ c, ¬ at_ c) → fails (errorPayload (getRegion s f.region) f.cluster f.slot (k % 2 ^ 32) eBOUNDS)))))

/-- R161 to R163: ENTER allocates a colour in its context, NEXT takes the successor colour and EXIT the parent; the
carried values go out under it, NEXT and EXIT count, and the CARRY-th frees the colour. ENTER and NEXT stay matched
while no colour is granted; NEXT after EXIT, EXIT after NEXT, the CARRY-th NEXT of a colour whose purge is pending
(R180), and either in a colour that is not live send nothing and count their tokens stale. R164: the frame operators
emit the slot's old value, write, OR or clear it, and leave the read-only fields of f7. -/
def Obligations.ContextAndFrameOperators : Prop :=
  -- Context Operators Move Colours
  (∀ (s : State) (o : Op),
      let f := s.firing
      let r := getRegion s f.region
      let v := ctxValues s f
      let counted (u : State) (c : Colour) (exits : Bool) : State :=
        let c' := { c with count := c.count + 1, exits := c.exits || exits, nexts := c.nexts || !exits }
        let w := setRegion u f.region (setColour (getRegion u f.region) f.tag c')
        if c'.count = (o.imm.extractLsb' 16 6).toNat then freeColour w f.region f.tag (!exits) else w
      (∀ u t, allocColour s f.region (o.imm.extractLsb' 16 8).toNat (some f.tag) (nodeField r f.cluster f.slot)
          (if o.imm.getLsbD 24 && !(v.any fun t => t.kind == .error) then
            Vector.ofFn fun (i : Fin 7) => if i.val < o.nports then (v.getD i.val Tok.none).payload else 0 else zeroFrame)
          (modeOf r f.tag) = some (u, t) →
        exec (.ctxEnter o) s = .next (sendUnder (carryAll u f t v) f t (mapped u f o v))) ∧
      (allocRefused (getCtx r (o.imm.extractLsb' 16 8).toNat) = true → exec (.ctxEnter o) s = .next (requeue s f)) ∧
      (let stale : Host.Outcome State Fault Refusal := .next (addStale s f.region (firingNode s f) (mapped s f o v).length)
       (liveColour r f.tag = none → exec (.ctxNext o) s = stale ∧ exec (.ctxExit o) s = stale) ∧
       ∀ c, liveColour r f.tag = some c →
        (c.exits = true ∨ lastCarry s r f.tag c o = true → exec (.ctxNext o) s = stale) ∧
        (c.nexts = true → exec (.ctxExit o) s = stale) ∧
        (c.exits = false → lastCarry s r f.tag c o = false → (tagUnder s f .next).granted = false →
          exec (.ctxNext o) s = .next (requeue s f))) ∧
      (∀ c, liveColour r f.tag = some c → c.exits = false → lastCarry s r f.tag c o = false → ∀ u t, tagUnder s f .next = .tag u t →
        let w := sendUnder (carryAll u f t v) f t (mapped u f o v)
        ∀ c', liveColour (getRegion w f.region) f.tag = some c' → exec (.ctxNext o) s = .next (counted w c' false)) ∧
      (∀ c, liveColour r f.tag = some c → c.nexts = false →
        let w := match c.parent with | none => s | some p => sendUnder s f p (mapped s f o v)
        ∀ c', liveColour (getRegion w f.region) f.tag = some c' → exec (.ctxExit o) s = .next (counted w c' true))) ∧
  -- Frame Operators Read And Write Frames
  (∀ (s : State) (o : Op), Performs s o.xfm →
      let f := s.firing
      let u := s.coloured o.xfm
      let ds := destinations u f o
      let t := tokAt f 0
      let put (c : Colour) : State := setRegion u f.region (setColour (getRegion u f.region) f.tag c)
      let i := (o.imm.extractLsb' 0 3).toNat
      ∀ c, liveColour (getRegion u f.region) f.tag = some c →
      (isScalar t = true → t.flag.poison = false →
        let old := if i = 7 then f7 c else c.f.toList.getD i 0
        let new := match (o.imm.extractLsb' 3 2).toNat with | 0 => t.payload | 1 => old ||| t.payload | _ => old &&& ~~~t.payload
        (i < 7 → ∃ v, Emits (.invSet o) s o v (outTo (destinations v f o) .scalar Flag.none old) 0 0 ∧
          v = put { c with f := c.f.set! i new }) ∧
        (i = 7 → ∃ v, Emits (.invSet o) s o v (outTo (destinations v f o) .scalar Flag.none old) 0 0 ∧
          v = put { c with flags := new.extractLsb' 0 6,
                           rmode := if (new.extractLsb' 8 3).toNat ≤ 5 then new.extractLsb' 8 3 else c.rmode })) ∧
      (o.imm.getLsbD 3 = false → Emits (.invGet o) s o u
        (outTo ds .scalar Flag.none (if i = 7 then f7 c else c.f.toList.getD i 0)) 0 0) ∧
      (o.imm.getLsbD 3 = true → ∀ p k, c.parent = some p → liveColour (getRegion u f.region) p = some k →
        Emits (.invGet o) s o u (outTo ds .scalar Flag.none (if i = 7 then f7 k else k.f.toList.getD i 0)) 0 0) ∧
      (o.imm.getLsbD 3 = true → c.parent = none → Emits (.invGet o) s o u (outTo ds .scalar Flag.none 0) 0 0) ∧
      (let old := BitVec.ofNat 64 (c.rmode.toNat * 256 + c.flags.toNat)
       (o.imm.getLsbD 0 = false → Emits (.flagsGet o) s o u (outTo ds .scalar Flag.none old) 0 0) ∧
       (o.imm.getLsbD 0 = true → ∃ v, v = put { c with flags := 0 } ∧
          Emits (.flagsGet o) s o v (outTo (destinations v f o) .scalar Flag.none old) 0 0)) ∧
      ∃ v, v = put { c with flags := c.flags &&& ~~~(o.imm.extractLsb' 0 6),
                            rmode := if o.imm.getLsbD 6 then o.imm.extractLsb' 7 3 else c.rmode } ∧
        Emits (.flagsClr o) s o v (passTo (destinations v f o) t) 0 0)

/-- R165, R88: the scalar ALU takes the low bits of each operand as a number of FMT, the immediate last, computes
exactly, and gives the result modulo the width, or under SAT the nearest bound with SAT raised; extended as FMT says. -/
def Obligations.ScalarAluComputesExactly : Prop :=
  ∀ (s : State) (o : Op), Performs s o.xfm → o.fmt ∈ [.i8, .i16, .i32, .i64, .n8, .n16, .n32, .n64] →
    (∀ t ∈ s.firing.toks, isScalar t = true ∧ t.flag.poison = false) →
    let u := s.coloured o.xfm
    let w := fmtBits o.fmt
    let ext (x : BitVec w) : Word := if o.fmt.isSigned then x.signExtend 64 else x.setWidth 64
    let num (x : BitVec w) : Int := if o.fmt.isSigned then x.toInt else x.toNat
    let lo : Int := if o.fmt.isSigned then -2 ^ (w - 1) else 0
    let hi : Int := if o.fmt.isSigned then 2 ^ (w - 1) - 1 else 2 ^ w - 1
    let ps : List (BitVec w) := s.firing.toks.map (fun t => t.payload.setWidth w) ++
      if o.imm.getLsbD 36 then [((o.imm.extractLsb' 0 32).signExtend 64).setWidth w] else []
    let p (i : Nat) : BitVec w := ps.getD i 0
    let a (i : Nat) : Int := num (p i)
    let gives (i : Instr) (r : Int) : Prop :=
      Emits i s o u (outTo (destinations u s.firing o) .scalar Flag.none
        (ext (BitVec.ofInt w (if o.sat then max lo (min hi r) else r)))) (if o.sat ∧ (r < lo ∨ hi < r) then fSAT else 0) 0
    let exactly (i : Instr) (x : BitVec w) : Prop :=
      Emits i s o u (outTo (destinations u s.firing o) .scalar Flag.none (ext x)) 0 0
    let fn := (o.imm.extractLsb' 32 4).toNat
    gives (.sadd o) (a 0 + a 1) ∧ gives (.ssub o) (a 0 - a 1) ∧ gives (.smad o) (a 0 * a 1 + a 2) ∧
    gives (.smul o) (if o.imm.getLsbD 32 then a 0 * a 1 / 2 ^ w else a 0 * a 1) ∧
    gives (.sminmax o) (if o.imm.getLsbD 32 then max (a 0) (a 1) else min (a 0) (a 1)) ∧
    (fn < 6 → gives (.scmp o) (if (fn = 0 ∧ a 0 = a 1) ∨ (fn = 1 ∧ a 0 ≠ a 1) ∨ (fn = 2 ∧ a 0 < a 1) ∨
      (fn = 3 ∧ a 0 ≤ a 1) ∨ (fn = 4 ∧ a 1 < a 0) ∨ (fn = 5 ∧ a 1 ≤ a 0) then 1 else 0)) ∧
    (∃ x : BitVec w, exactly (.slog o) x ∧ ∀ i < w, x.getLsbD i =
      o.imm.getLsbD (32 + (if (p 0).getLsbD i then 2 else 0) + if (p 1).getLsbD i then 1 else 0)) ∧
    exactly (.sshf o) (match fn % 4 with
      | 0 => p 0 <<< ((p 1).toNat % w) | 1 => p 0 >>> ((p 1).toNat % w)
      | 2 => (p 0).sshiftRight ((p 1).toNat % w) | _ => (p 0).rotateLeft ((p 1).toNat % w))

/-- R166, R167, R170: PFENCE discards its reader path's copies on the dies of its scope and passes its token; SPLICE
emits its token with LAST set, behind a successor image that it reads, checks and begins to load (HSINKS and the
contexts at once, the packets and the entries to follow), or refuses; it stays matched while a page of the image is
missing or another load runs; CMPX waits under its key with its value's digest, which it sends to the partner. -/
def Obligations.PfenceSpliceCmpx : Prop :=
  ∀ (s : State) (o : Op), Performs s o.xfm →
    let u := s.coloured o.xfm
    let f := s.firing
    let ds := destinations u f o
    let t (i : Nat) : Tok := tokAt f i
    let last : Tok := { t 0 with flag := { (t 0).flag with last := true } }
    Emits (.pfence o) s o (discardBuffers u (o.imm.extractLsb' 6 3).toNat
      fun d => decide (3 ≤ (o.imm.extractLsb' 0 3).toNat) || d == f.cluster / 512) (passTo ds (t 0)) 0 0 ∧
    (dataError u f o (t 0) = none →
      (wordPorts f.word ≠ 2 → Emits (.splice o) s o u (passTo ds last) 0 0) ∧
      (wordPorts f.word = 2 → isScalar (t 1) = true → (t 1).flag.poison = false →
        ((getRegion s f.region).splice = none →
          (∀ v bs, spliceImage s f = .ok v bs →
            (parseImage bs = none → Emits (.splice o) s o (refuseSplice u f loadBadimg) (passTo ds last) 0 0) ∧
            ∀ m, parseImage bs = some m →
              (imageRefusal u f.region m true = 0 → Emits (.splice o) s o (beginSplice u f m) (passTo ds last) 0 0 ∧
                let r := getRegion u f.region
                let r' := getRegion (beginSplice u f m) f.region
                r'.hsinks = r.hsinks + BitVec.ofNat 32 m.nsink ∧ r'.ctxs = (declareCtxs r m.ctxs).ctxs ∧
                r'.splice = some { cluster := f.cluster, hops := m.ops.flatMap (opHop u f.region m.ops),
                                   entries := m.entries.map (entryToken r) }) ∧
              (imageRefusal u f.region m true ≠ 0 →
                Emits (.splice o) s o (refuseSplice u f (imageRefusal u f.region m true)) (passTo ds last) 0 0)) ∧
          (∀ a, spliceImage s f = .miss a → exec (.splice o) s = .next (requeue (askSplicePage s f a) f)) ∧
          ∀ e, spliceImage s f = .fail e → EmitsError (.splice o) s o e 0) ∧
        ((getRegion s f.region).splice ≠ none → exec (.splice o) s = .next (requeue s f)))) ∧
    (dataError u f o (t 0) = none → isScalar (t 1) = true → (t 1).flag.poison = false →
      let key := (t 1).payload
      let k := getCluster u f.cluster
      let clash := k.cmpx.any fun w => w.firing.region == f.region && w.firing.tag.ctx == f.tag.ctx && w.key == key
      (k.cmpx.length < 256 → clash = false →
        let v := setCluster u f.cluster
          { k with cmpx := k.cmpx ++ [{ firing := f, key := key, digest := digestOf u f (t 0), since := u.htime }] }
        ((getRegion u f.region).twin = none → exec (.cmpx o) s = .next v) ∧
        ∀ p prim, (getRegion u f.region).twin = some (p, prim) → exec (.cmpx o) s = .next { v with digests := v.digests ++
          [{ region := p, die := (getRegion u f.region).dieIx (f.cluster / 512),
             cluster := (getRegion u f.region).relative (f.cluster % 512), slot := f.slot, ctx := f.tag.ctx, key := key,
             digest := digestOf u f (t 0) }] }) ∧
      (256 ≤ k.cmpx.length ∨ clash = true → exec (.cmpx o) s = .next (requeue s f)))

/-- R28, R154: an operand that is an error token makes the firing an error firing: it emits an error token with that
token's payload on every destination, under the tag its results would have had; a firing with a stale tile emits
REPLAY_STALE where its other operands pass their checks; of a firing in error the operands are consumed and no flag is
raised. (TAGX sends its errors to DST1 only: R160.) R21, R147: a firing whose colour its home cluster refuses stays
matched and nothing else happens; an entry that it was handed out from keeps its place of the matching store and of the
order (R145). -/
def Obligations.ErrorAndRefusedFirings : Prop :=
  -- Error Operands Pass On
  (∀ (s : State) (o : Op), (tagUnder s s.firing o.xfm).granted = true →
      let f := s.firing
      let u := s.coloured o.xfm
      (∀ i ∈ .src :: tokenOps ++ engineOps, ∀ t, f.toks.find? (fun t => t.kind == .error) = some t →
        exec (i o) s = .next (emitError u f o o.xfm (tagUnder s f o.xfm) (destinations s f o) t.payload)) ∧
      (f.stale = true → (∀ t ∈ f.toks, t.kind = .scalar) → ∀ i ∈ .src :: tokenOps, EmitsError (i o) s o eREPLAY_STALE 0) ∧
      (f.stale = true → (∀ t ∈ f.toks, t.kind ≠ .error ∧ dataError u f o t = none) →
        ∀ i ∈ [Instr.pass, .dup, .join, .mark], EmitsError (i o) s o eREPLAY_STALE 0) ∧
      ∀ p, isTagx f.word = false → emitError u f o o.xfm (tagUnder s f o.xfm) (destinations s f o) p =
        emit u f { o with fe := false } o.xfm (tagUnder s f o.xfm) (outTo (destinations s f o) .error Flag.none p) 0 0) ∧
  -- Refused Colours Stay Matched
  (∀ (s : State) (o : Op), (tagUnder s s.firing o.xfm).granted = false →
      let f := s.firing
      let t := requeue s f
      (∀ i ∈ .tagx :: tokenOps ++ engineOps, exec (i o) s = .next t) ∧
      t.mem = s.mem ∧ t.threads = s.threads ∧ t.regions = s.regions ∧ t.net = s.net ∧
      (∀ c, c ≠ f.cluster → getCluster t c = getCluster s c) ∧
      ∀ i e, issuedEntry (getCluster s f.cluster) f = some i → (getCluster s f.cluster).entries[i]? = some e →
        (getCluster t f.cluster).entries[i]? = some { e with st := .held f.agent f.stale s.htime } ∧
        ∀ j, j ≠ i → (getCluster t f.cluster).entries[j]? = (getCluster s f.cluster).entries[j]?)

/-- R20, R43, R96: results without flags leave as one token for each destination in order, under the tag that XFM names,
with IRREV once the strand's bit is set: under keep nothing else changes; under free the colour is freed after the
sends; without a parent nothing is sent; for a colour that is not live each token is counted stale. R33, R34, R150: a
token for a cluster of its region joins the packets in flight and nothing else changes; a tile token that leaves its
cluster takes its lines along, a quad-remote tile's from its owner; one for a die of another package leaves toward that
package; one for a die index that the region does not have is discarded and counted. -/
def Obligations.ResultsLeaveAndJoinTheNetwork : Prop :=
  -- Results Leave Under Their Tag
  (∀ (s : State) (f : Firing) (o : Op) (outs : List Out) (t : Tag) (n : Nat),
      let toks := outs.map fun k : Out => (⟨k.dst, t, k.kind, { k.flag with irrev := k.flag.irrev || strandIrrev s f.region f.tag }, k.payload⟩ : Tok)
      let sent := toks.foldl (fun u k => sendTok u f.region f.cluster k) s
      emit s f o .keep (.tag s t) outs 0 n = sent ∧ emit s f o .exit (.tag s t) outs 0 n = sent ∧
      emit s f o .free (.tag s t) outs 0 n = freeColour sent f.region f.tag false ∧
      emit s f o .exit .none outs 0 n = s ∧ emit s f o .free .none outs 0 n = freeColour s f.region f.tag false ∧
      emit s f o .exit .dead outs 0 n = addStale s f.region (firingNode s f) outs.length ∧
      tagUnder s f .keep = .tag s f.tag ∧
      (let place (k : Dst) : Option Nat := regionCluster s (getRegion s f.region) k.die.toNat k.cluster.toNat
       (∀ k ∈ outs, k.kind ≠ .tile ∧ (place k.dst).isSome = true) → emit s f o .keep (.tag s t) outs 0 n =
        { s with net := s.net ++ toks.filterMap fun k => (place k.dst).map fun c => ⟨f.region, f.cluster, c, k, none⟩ })) ∧
  -- Tokens Join The Network
  (∀ (s : State) (rid src : Nat) (t : Tok),
      let r := getRegion s rid
      let there := regionCluster s r t.dst.die.toNat t.dst.cluster.toNat
      let h := handleOf t.payload
      let lines := readLines s (if h.res = 2 then src / 512 * 512 + h.owner else src) h.base h.lines
      (∀ c, there = some c → t.kind ≠ .tile ∨ c = src → sendTok s rid src t = { s with net := s.net ++ [⟨rid, src, c, t, none⟩] }) ∧
      (∀ c, there = some c → t.kind = .tile → c ≠ src →
        sendTok s rid src t = { lines.1 with net := lines.1.net ++ [⟨rid, src, c, t, some lines.2⟩] }) ∧
      (there = none → Tab.get 0 r.span t.dst.die.toNat ≠ 0 →
        (t.kind ≠ .tile → sendTok s rid src t = Machine.send s (.packet rid src t none)) ∧
        (t.kind = .tile → sendTok s rid src t = Machine.send lines.1 (.packet rid src t (some lines.2)))) ∧
      (there = none → Tab.get 0 r.span t.dst.die.toNat = 0 → ∃ u, sendTok s rid src t = u ∧
        (getRegion u rid).discarded = (if r.discarded.toNat + 1 < 2 ^ 32 then r.discarded + 1 else 0xFFFFFFFF) ∧
        u.mem = s.mem ∧ u.chk = s.chk ∧ u.net = s.net ∧ u.clusters = s.clusters))

/-! ### The Vector Engine (06) -/

/-- R193, R190, R192: the floating operators apply one correctly rounded operation to the operands' elements, in FMT,
under RND and SAT, with the flags of each element. R194 to R199: minimum and maximum, the sign operators on the bits
alone, scaling, rounding to integral values, classes and comparisons. R200 to R203: VCVT converts from FMT to OFMT; each
transcendental delivers its function's exact value rounded once. -/
def Obligations.VectorFloatingOperators : Prop :=
  -- Vector Floating Arithmetic
  (∀ (s : State) (o : Op) (u : State) (as : List VArg) (poison : Bool), Performs s o.xfm →
      let p := fpFor o.fmt
      let m := rndOf s.firing o
      let reads (n : Nat) : Prop := OperandsRead s o (List.replicate n (dataPort o.fmt)) u as poison
      let each (i : Instr) (fn : Nat → Val → Val → Val → Nat × Flags) : Prop :=
        GivesEach i s o u o.fmt as poison fun k xs =>
          let v (i : Nat) : Val := (xs.map (unpack p)).getD i (.fin false 0 0)
          fn (rstBits u s.firing k) (v 0) (v 1) (v 2)
      (reads 1 → each (.vsqrt o) (fun r a _ _ => fpSqrt p m o.sat r a) ∧ each (.vrsqrt o) (fun r a _ _ => fpRsqrt p m o.sat r a)) ∧
      (reads 2 → each (.vadd o) (fun r a b _ => fpAdd p m o.sat r a b) ∧ each (.vsub o) (fun r a b _ => fpSub p m o.sat r a b) ∧
        each (.vmul o) (fun r a b _ => fpMul p m o.sat r a b) ∧ each (.vdiv o) (fun r a b _ => fpDiv p m o.sat r a b)) ∧
      (reads 3 → each (.vfma o) (fun r a b c => fpFma p m o.sat r a b c) ∧
        each (.vfms o) (fun r a b c => fpFma p m o.sat r a b (if c.isNan then c else c.neg)))) ∧
  -- Vector Selection And Signs
  (∀ (s : State) (o : Op) (u : State) (as : List VArg) (poison : Bool), Performs s o.xfm →
      let p := fpFor o.fmt
      let m := rndOf s.firing o
      let top := 2 ^ (fmtBits o.fmt - 1)
      let reads (ps : List VPort) : Prop := OperandsRead s o ps u as poison
      let each (i : Instr) (g : Fmt) (fn : Nat → Nat → Nat → Nat × Flags) : Prop :=
        GivesEach i s o u g as poison fun k xs => fn (rstBits u s.firing k) (xs.getD 0 0) (xs.getD 1 0)
      (reads [dataPort o.fmt, dataPort o.fmt] →
        each (.vmin o) o.fmt (fun _ x y => fpMinMax p false x y) ∧ each (.vmax o) o.fmt (fun _ x y => fpMinMax p true x y) ∧
        each (.vminn o) o.fmt (fun _ x y => fpMinMaxNum p false x y) ∧
        each (.vmaxn o) o.fmt (fun _ x y => fpMinMaxNum p true x y) ∧
        each (.vcmp o) .b1 (fun _ x y =>
          let r := fpCompare (o.imm.extractLsb' 32 4).toNat (unpack p x) (unpack p y)
          (if r.1 then 1 else 0, r.2))) ∧
      (reads [movePort o.fmt] → each (.vabs o) o.fmt (fun _ x _ => (x % top, 0)) ∧ each (.vneg o) o.fmt (fun _ x _ => (x ^^^ top, 0))) ∧
      (reads [movePort o.fmt, movePort o.fmt] → each (.vcpys o) o.fmt fun _ x y => (x % top + y / top % 2 * top, 0)) ∧
      (reads [dataPort o.fmt, dataPort .i32] →
        each (.vscale o) o.fmt fun r x n => fpScale p m o.sat r (unpack p x) (BitVec.ofNat 32 n).toInt) ∧
      (reads [dataPort o.fmt] → each (.vclass o) .n16 (fun _ x _ => (fpClass p x, 0)) ∧
        each (.vrnd o) o.fmt fun r x _ =>
          let y := fpIntegral p m r (unpack p x)
          (y.1, if y.2.1 = true ∧ o.imm.getLsbD 0 = true then y.2.2 ||| fNX else y.2.2))) ∧
  -- Vector Conversions And Transcendentals
  (∀ (s : State) (o : Op) (u : State) (as : List VArg) (poison : Bool), Performs s o.xfm →
      OperandsRead s o [dataPort o.fmt] u as poison →
      let p := fpFor o.fmt
      let m := rndOf s.firing o
      let each (i : Instr) (g : Fmt) (fn : Nat → Nat → Nat × Flags) : Prop :=
        GivesEach i s o u g as poison fun k xs => fn (rstBits u s.firing k) (xs.getD 0 0)
      let transc (i : Instr) (t : Transc) : Prop := each i o.fmt fun r x => fpTransc t p m o.sat r (unpack p x)
      (∀ q, fpOf o.fmt = some p → fpOf (ofmtOf o) = some q →
        each (.vcvt o) (ofmtOf o) fun r x => fpConvert q m o.sat r (unpack p x)) ∧
      (fpOf o.fmt = some p → fpOf (ofmtOf o) = none → each (.vcvt o) (ofmtOf o) fun r x => fpToInt (ofmtOf o) m o.sat r (unpack p x)) ∧
      (∀ q, fpOf o.fmt = none → fpOf (ofmtOf o) = some q → each (.vcvt o) (ofmtOf o) fun r x => intToFp q m o.sat r (intOf o.fmt x)) ∧
      (fpOf o.fmt = none → fpOf (ofmtOf o) = none → each (.vcvt o) (ofmtOf o) fun _ x => fitInt (ofmtOf o) o.sat (intOf o.fmt x)) ∧
      transc (.vexp o) .exp ∧ transc (.vexpm1 o) .expm1 ∧ transc (.vlog o) .log ∧ transc (.vlog1p o) .log1p ∧
      transc (.verf o) .erf ∧ transc (.verfc o) .erfc ∧ transc (.vexp2 o) .exp2 ∧ transc (.vlog2 o) .log2)

/-- R204, R205: the integer operators compute exactly and adjust once; the bitwise ones act on the patterns, shifts by
the count modulo the width; neither raises anything but SAT. R205: the bitwise operators on w-bit elements. -/
def Obligations.VectorIntegersAndBits : Prop :=
  -- Vector Integers And Bits
  (∀ (s : State) (o : Op) (u : State) (as : List VArg) (poison : Bool), Performs s o.xfm →
      o.fmt ∈ [.i8, .i16, .i32, .i64, .n8, .n16, .n32, .n64] →
      let w := fmtBits o.fmt
      (∀ i j, ∀ a ∈ as, a.elem i j < 2 ^ w) →
      let num (x : BitVec w) : Int := if o.fmt.isSigned then x.toInt else x.toNat
      let lo : Int := if o.fmt.isSigned then -2 ^ (w - 1) else 0
      let hi : Int := if o.fmt.isSigned then 2 ^ (w - 1) - 1 else 2 ^ w - 1
      let fit (r : Int) : Nat × Flags :=
        ((BitVec.ofInt w (if o.sat then max lo (min hi r) else r)).toNat, if o.sat ∧ (r < lo ∨ hi < r) then fSAT else 0)
      let reads (n : Nat) : Prop := OperandsRead s o (List.replicate n (dataPort o.fmt)) u as poison
      let each (i : Instr) (g : Fmt) (fn : BitVec w → BitVec w → BitVec w → Nat × Flags) : Prop :=
        GivesEach i s o u g as poison fun _ xs =>
          fn (BitVec.ofNat w (xs.getD 0 0)) (BitVec.ofNat w (xs.getD 1 0)) (BitVec.ofNat w (xs.getD 2 0))
      let ints (i : Instr) (fn : Int → Int → Int → Int) : Prop := each i o.fmt fun a b c => fit (fn (num a) (num b) (num c))
      let fn := (o.imm.extractLsb' 32 4).toNat
      (reads 2 → ints (.viadd o) (fun a b _ => a + b) ∧ ints (.visub o) (fun a b _ => a - b) ∧
        ints (.vimul o) (fun a b _ => a * b) ∧ ints (.vimulh o) (fun a b _ => a * b / 2 ^ w) ∧
        ints (.vimin o) (fun a b _ => min a b) ∧ ints (.vimax o) (fun a b _ => max a b) ∧
        (fn < 6 → each (.vicmp o) .b1 fun x y _ =>
          let (a, b) := (num x, num y)
          (if (fn = 0 ∧ a = b) ∨ (fn = 1 ∧ a ≠ b) ∨ (fn = 2 ∧ a < b) ∨ (fn = 3 ∧ a ≤ b) ∨ (fn = 4 ∧ b < a) ∨ (fn = 5 ∧ b ≤ a)
            then 1 else 0, 0))) ∧
      (reads 3 → ints (.vimad o) fun a b c => a * b + c)) ∧
  -- Vector Bitwise
  (∀ (s : State) (o : Op) (u : State) (as : List VArg) (poison : Bool), Performs s o.xfm →
      let w := fmtBits o.fmt
      (∀ i j, ∀ a ∈ as, a.elem i j < 2 ^ w) →
      let reads (n : Nat) : Prop := OperandsRead s o (List.replicate n (dataPort o.fmt)) u as poison
      let bitsOf (i : Instr) (fn : BitVec w → BitVec w → BitVec w) : Prop :=
        GivesEach i s o u o.fmt as poison fun _ xs => ((fn (BitVec.ofNat w (xs.getD 0 0)) (BitVec.ofNat w (xs.getD 1 0))).toNat, 0)
      (reads 2 → bitsOf (.vand o) (· &&& ·) ∧ bitsOf (.vor o) (· ||| ·) ∧ bitsOf (.vxor o) (· ^^^ ·) ∧
        bitsOf (.vshl o) (fun a b => a <<< (b.toNat % w)) ∧ bitsOf (.vshr o) (fun a b => a >>> (b.toNat % w)) ∧
        bitsOf (.vsar o) fun a b => a.sshiftRight (b.toNat % w)) ∧
      (reads 1 → bitsOf (.vpopc o) (fun a _ => BitVec.ofNat w ((List.range w).filter a.getLsbD).length) ∧
        bitsOf (.vclz o) fun a _ => BitVec.ofNat w ((List.range w).reverse.takeWhile fun i => !a.getLsbD i).length))

/-- R182, R87, R28: a vector firing whose operands fail a check emits the check's error token, BOUNDS for shapes that
disagree; with its operands sound, a poisoned one that it would use purges its strand. R206 to R210: broadcast, iota,
selection, permutation, transposition, extraction, insertion and slices; an index that passes the tile is BOUNDS, with
the index or the element's place in ELEM. R217: Perm is a bijection of 0 to 2^n - 1 for every key and every even n from
2 to 32. -/
def Obligations.VectorMovesElements : Prop :=
  -- Vector Operand Checks
  (∀ (s : State) (o : Op), Performs s o.xfm →
      let u := s.coloured o.xfm
      let f := s.firing
      let d := dataPort o.fmt
      let m := movePort o.fmt
      let fwd (p : VPort) : VPort := { p with fwd := true }
      let each : List ((Op → Instr) × List VPort) :=
        ([.vsqrt, .vrsqrt, .vclass, .vrnd, .vcvt, .vexp, .vexpm1, .vlog, .vlog1p, .verf, .verfc, .vexp2, .vlog2, .vpopc,
          .vclz].map fun i => (i, [d])) ++
        ([.vadd, .vsub, .vmul, .vdiv, .vmin, .vmax, .vminn, .vmaxn, .vcmp, .viadd, .visub, .vimul, .vimulh, .vimin, .vimax, .vicmp,
          .vand, .vor, .vxor, .vshl, .vshr, .vsar].map fun i => (i, [d, d])) ++
        ([.vfma, .vfms, .vimad].map fun i => (i, [d, d, d])) ++
        ([.vabs, .vneg].map fun i => (i, [m])) ++
        [(.vcpys, [m, m]), (.vscale, [d, dataPort .i32]), (.vsel, [dataPort .b1, m, m]),
         (.vsplit, [{ dataPort .f32 with takes := .tile }]), (.vbcast, [fwd (scalarOnly o.fmt)]), (.viota, [scalarOnly o.fmt]),
         (.vrng, [scalarOnly .n64, scalarOnly .n64]), (.vtrans, [fwd (tileOnly o.fmt)]),
         (.vextr, [fwd (tileOnly o.fmt), scalarOnly .n32]),
         (.vins, [fwd (tileOnly o.fmt), scalarOnly .n32, fwd (scalarOnly o.fmt)]),
         (.vslice, [fwd (tileOnly o.fmt), scalarOnly .n64]), (.vreduce, [tileOnly o.fmt]), (.vscan, [tileOnly o.fmt]),
         (.vcompr, [tileOnly o.fmt]), (.vquant, [tileOnly o.fmt]), (.vdeq, [tileOnly o.fmt])]
      ∀ e ∈ each,
        (∀ c, vecError u f e.2 (sameShapes f e.2) = some c → EmitsError (e.1 o) s o c 0) ∧
        (vecError u f e.2 (sameShapes f e.2) = none →
          ((readArgs u f.cluster (f.toks.zip e.2)).2.2.zip e.2).any (fun b => b.1 && !b.2.fwd) = true →
          exec (e.1 o) s = .next (requestPurge s f.region f.tag))) ∧
  -- Vector Moves Elements
  (∀ (s : State) (o : Op) (u : State) (as : List VArg) (poison : Bool), Performs s o.xfm →
      let reads (ps : List VPort) : Prop := OperandsRead s o ps u as poison
      let rows := (o.imm.extractLsb' 12 7).toNat + 1
      let epr := (o.imm.extractLsb' 0 12).toNat + 1
      let w := fmtBits o.fmt
      let fwd (p : VPort) : VPort := { p with fwd := true }
      let x (i : Nat) : Nat := (as.getD i (.scalar 0)).elem 0 0
      (reads [fwd (scalarOnly o.fmt)] → GivesTile (.vbcast o) s o u (plainTile o.fmt rows epr fun _ _ => x 0) [] poison) ∧
      (reads [scalarOnly o.fmt] → GivesTile (.viota o) s o u (plainTile o.fmt rows epr fun i j =>
        (BitVec.ofInt w ((x 0 : Int) + (i * epr + j : Nat) * (o.imm.extractLsb' 19 18).toInt)).toNat) [] false) ∧
      (reads [dataPort .b1, movePort o.fmt, movePort o.fmt] → GivesEach (.vsel o) s o u o.fmt as poison fun _ xs =>
        (if xs.getD 0 0 % 2 = 1 then xs.getD 1 0 else xs.getD 2 0, 0)) ∧
      (∀ a, as = [.tile a] → reads [fwd (tileOnly o.fmt)] →
        (a.epr ≤ 128 → GivesTile (.vtrans o) s o u (plainTile o.fmt a.epr a.rows fun i j => a.at_ j i) [] poison) ∧
        (128 < a.epr → EmitsError (.vtrans o) s o eBOUNDS 0)) ∧
      (∀ a ix, twoHandles s.firing = some (a, ix) → ix.rows ≠ a.rows → EmitsError (.vperm o) s o eBOUNDS 0) ∧
      (∀ a ix, as = [.tile a, ix] → ShapedRead s o [fwd (tileOnly o.fmt), dataPort .n16] true u as poison →
        (∀ a ix, twoHandles s.firing = some (a, ix) → ix.rows = a.rows) →
        let n := match ix with | .tile t => t.epr | .scalar _ => a.epr
        (shapeFits o.fmt a.rows n = false → EmitsError (.vperm o) s o eBOUNDS 0) ∧
        (shapeFits o.fmt a.rows n = true → (o.imm.getLsbD 0 = true ∨ ∀ k < a.rows * n, ix.elem (k / n) (k % n) < a.epr) →
          GivesTile (.vperm o) s o u (plainTile o.fmt a.rows n fun i j =>
            if ix.elem i j < a.epr then a.at_ i (ix.elem i j) else 0) [] poison) ∧
        ∀ k < a.rows * n, shapeFits o.fmt a.rows n = true → o.imm.getLsbD 0 = false → a.epr ≤ ix.elem (k / n) (k % n) →
          (∀ l < k, ix.elem (l / n) (l % n) < a.epr) → EmitsError (.vperm o) s o eBOUNDS k) ∧
      (∀ a ix, as = [.tile a, ix] → reads [fwd (tileOnly o.fmt), scalarOnly .n32] →
        (x 1 < a.rows * a.epr → GivesScalar (.vextr o) s o u o.fmt (a.at_ (x 1 / a.epr) (x 1 % a.epr), 0) poison) ∧
        (a.rows * a.epr ≤ x 1 → EmitsError (.vextr o) s o eBOUNDS (x 1))) ∧
      (∀ a ix y, as = [.tile a, ix, y] → reads [fwd (tileOnly o.fmt), scalarOnly .n32, fwd (scalarOnly o.fmt)] →
        (x 1 < a.rows * a.epr → GivesTile (.vins o) s o u (plainTile o.fmt a.rows a.epr fun i j =>
          if i * a.epr + j = x 1 then x 2 else a.at_ i j) [] poison) ∧
        (a.rows * a.epr ≤ x 1 → EmitsError (.vins o) s o eBOUNDS (x 1))) ∧
      (∀ a ix, as = [.tile a, ix] → reads [fwd (tileOnly o.fmt), scalarOnly .n64] → ∀ r0 c0, r0 < 128 → c0 < 4096 →
        (x 1 = c0 * 2 ^ 16 + r0 → r0 + rows ≤ a.rows → c0 + epr ≤ a.epr →
          GivesTile (.vslice o) s o u (plainTile o.fmt rows epr fun i j => a.at_ (r0 + i) (c0 + j)) [] poison) ∧
        (x 1 = c0 * 2 ^ 16 + r0 → a.rows < r0 + rows ∨ a.epr < c0 + epr → EmitsError (.vslice o) s o eBOUNDS 0) ∧
        (x 1 ≠ x 1 / 2 ^ 16 % 4096 * 2 ^ 16 + x 1 % 128 → EmitsError (.vslice o) s o eBOUNDS 0))) ∧
  -- Perm Is ABijection
  (∀ (h : Nat) (key : Word), 1 ≤ h → h ≤ 16 →
      (∀ c < 2 ^ (2 * h), permOf (2 * h) key c < 2 ^ (2 * h)) ∧
      ∀ b < 2 ^ (2 * h), ∃ c < 2 ^ (2 * h), permOf (2 * h) key c = b ∧ ∀ d < 2 ^ (2 * h), permOf (2 * h) key d = b → d = c)

/-- R211 to R213: VREDUCE and VSCAN form the pairwise tree of each row, of the row results, or of each prefix. -/
def Obligations.VectorReductionsAndScans : Prop :=
  (∀ (op : Nat → Nat → Nat) (v0 v1 v2 v3 v4 : Nat), pairTree op 0 [v0] = v0 ∧ pairTree op 0 [v0, v1, v2, v3] = op (op v0 v1) (op v2 v3) ∧
    pairTree op 0 [v0, v1, v2, v3, v4] = op (op (op v0 v1) (op v2 v3)) v4) ∧
  ∀ (s : State) (o : Op) (u : State) (t : Tile) (poison : Bool), Performs s o.xfm →
    OperandsRead s o [tileOnly o.fmt] u [.tile t] poison →
    let f := s.firing
    let fn := (o.imm.extractLsb' 32 4).toNat
    let g := ofmtOf o
    let row (i : Nat) : Nat × Flags := reduceOver u f o fn i (t.elems.getD i [])
    let rows := (List.range t.rows).map row
    (o.imm.getLsbD 5 = false → GivesTile (.vreduce o) s o u
      { fmt := g, epr := 1, elems := rows.map fun r => [r.1], scales := [] } (rows.map Prod.snd) false) ∧
    (o.imm.getLsbD 5 = true → (∀ q, fpOf g = some q →
        GivesScalar (.vreduce o) s o u g (pairTree (reduceStep q fn (rndOf f o) o.sat (rstBits u f 0)) (0, 0) rows) false) ∧
      (fpOf g = none → GivesScalar (.vreduce o) s o u g (reduceOver u f o fn 0 t.elems.flatten) false)) ∧
    (let cell (i j : Nat) : Nat × Flags :=
      let n := if o.imm.getLsbD 6 then j else j + 1
      if n = 0 then (reduceIdentity g fn, 0) else reduceOver u f o fn (i * t.epr + j) ((t.elems.getD i []).take n)
     GivesTile (.vscan o) s o u (plainTile g t.rows t.epr fun i j => (cell i j).1)
      ((List.range t.rows).flatMap fun i => (List.range t.epr).map fun j => (cell i j).2) false)

/-- R201, R214, R215, R217 to R219: splitting, compression and expansion, the counter-based generator, and microscaling.
-/
def Obligations.VectorSplitsCompressesAndQuantises : Prop :=
  ∀ (s : State) (o : Op) (u : State) (t : Tile) (as : List VArg) (poison : Bool), Performs s o.xfm →
    let f := s.firing
    let reads (p : VPort) : Prop := as = [.tile t] ∧ OperandsRead s o [p] u as poison
    let place (i : Nat) : List (Nat × Dst) := (destinations u f o).filter fun d => d.1 == i
    let gives (i : Instr) (ts : List (Tile × List (Nat × Dst))) (fl : List Flags) : Prop :=
      (putTiles u f false ts = none → exec i s = .next (requeue s f)) ∧
      ∀ v outs, putTiles u f false ts = some (v, outs) → Emits i s o v outs (fl.foldl (· ||| ·) 0) (firstTrap v f fl)
    (reads { dataPort .f32 with takes := .tile } →
      let n := if (o.imm.extractLsb' 0 2).toNat = 3 then 3 else 2
      let part (i : Nat) : Tile :=
        { fmt := .bf16, epr := t.epr, scales := [],
          elems := t.elems.map fun r => r.map fun x => (splitElem x (n == 3)).1.getD i 0 }
      gives (.vsplit o) ((List.range n).map fun i => (part i, place i))
        (t.elems.flatMap fun r => r.map fun x => (splitElem x (n == 3)).2)) ∧
    (reads (tileOnly o.fmt) →
      let g := 2 ^ (o.imm.extractLsb' 0 3).toNat
      let k := (o.imm.extractLsb' 3 6).toNat
      (t.epr % g = 0 → (o.imm.getLsbD 9 = false ∨ t.epr % 8 = 0) →
        let c := compressTile g k (o.imm.getLsbD 9) t
        gives (.vcompr o) [(c.1, place 0), (c.2, place 1)] []) ∧
      (t.epr % g ≠ 0 ∨ (o.imm.getLsbD 9 = true ∧ t.epr % 8 ≠ 0) → EmitsError (.vcompr o) s o eBOUNDS 0) ∧
      (t.epr % 32 = 0 →
        let q (i b : Nat) : Nat × List (Nat × Flags) := quantBlock (fpFor o.fmt) (fpFor (ofmtOf o)) (if ofmtOf o = .mx8 then 8 else 2)
          (rndOf f o) o.sat (fun j => rstBits u f (i * t.epr + 32 * b + j)) (((t.elems.getD i []).drop (32 * b)).take 32)
        let blocks (i : Nat) : List (Nat × List (Nat × Flags)) := (List.range (t.epr / 32)).map (q i)
        GivesTile (.vquant o) s o u
          { fmt := ofmtOf o, epr := t.epr,
            elems := (List.range t.rows).map fun i => (blocks i).flatMap fun b => b.2.map Prod.fst,
            scales := (List.range t.rows).map fun i => (blocks i).map Prod.fst }
          ((List.range t.rows).flatMap fun i => (blocks i).flatMap fun b => b.2.map Prod.snd) false) ∧
      (t.epr % 32 ≠ 0 → EmitsError (.vquant o) s o eBOUNDS 0) ∧
      (let e (i j : Nat) : Nat × Flags := match mxValue o.fmt (t.at_ i j) (t.scaleAt i (j / 32)) with
        | .fin sg m e => roundPack (fpFor (ofmtOf o)) (rndOf f o) o.sat (rstBits u f (i * t.epr + j)) sg m e false
        | _ => (defaultNan (fpFor (ofmtOf o)), 0)
       GivesTile (.vdeq o) s o u (plainTile (ofmtOf o) t.rows t.epr fun i j => (e i j).1)
        ((List.range t.rows).flatMap fun i => (List.range t.epr).map fun j => (e i j).2) false)) ∧
    (let g := 2 ^ (o.imm.extractLsb' 0 3).toNat
     let k := (o.imm.extractLsb' 3 6).toNat
     let pack := o.imm.getLsbD 9
     let paired (v d : Handle) : Bool := compactShapes k pack (v.rows, v.epr) (d.rows, d.epr)
     (∀ v d, twoHandles f = some (v, d) → paired v d = false → EmitsError (.vexpnd o) s o eBOUNDS 0) ∧
     ∀ d, as = [.tile t, .tile d] → (∀ v d, twoHandles f = some (v, d) → paired v d = true) →
      ShapedRead s o [{ tileOnly o.fmt with fwd := true }, tileOnly .n8] true u as poison →
      (shapeFits o.fmt t.rows (t.epr * g / k) = false → EmitsError (.vexpnd o) s o eBOUNDS 0) ∧
      (shapeFits o.fmt t.rows (t.epr * g / k) = true →
        (badMeta g k pack t.epr d.elems = none → GivesTile (.vexpnd o) s o u (expandTile g k pack t d) [] poison) ∧
        ∀ e, badMeta g k pack t.epr d.elems = some e → EmitsError (.vexpnd o) s o eBOUNDS e)) ∧
    (OperandsRead s o [scalarOnly .n64, scalarOnly .n64] u as poison →
      let x (i : Nat) : Nat := (as.getD i (.scalar 0)).elem 0 0
      let epr := (o.imm.extractLsb' 0 12).toNat + 1
      GivesTile (.vrng o) s o u (plainTile o.fmt ((o.imm.extractLsb' 12 7).toNat + 1) epr fun i j =>
        rngElem o (BitVec.ofNat 64 (x 0)) (BitVec.ofNat 64 (x 1) + BitVec.ofNat 64 (i * epr + j))) [] false)

/-! ### The Matrix Engine (07) -/

/-- R221, R223, R229 to R234: MMA, MMA.SP and MOUTER accumulate the product of their operands, dense or sparse, into a
block of an accumulator of the cluster, or form it anew under INIT, and answer the inner length; a bad word of the block
that is read purges the strand; a tile with too many rows or elements, a block that does not fit and inner lengths that
disagree are BOUNDS, whatever the other operands are. R235: MWLOAD binds pinned or quad-remote weights, dense or sparse,
or unbinds; weights of another residence or of more than 64 rows are BOUNDS, and a scalar other than 0 is TYPE_MISMATCH.
-/
def Obligations.MatrixProductsAndWeights : Prop :=
  -- Matrix Products Accumulate
  (∀ (s : State) (o : Op), Performs s o.xfm → usedPoison s.firing = false →
      let u := s.coloured o.xfm
      let f := s.firing
      let c := f.cluster
      let t (i : Nat) : Tok := tokAt f i
      let sound (w : Word) (g : Fmt) : Prop := checkTile u c w (some [g]) = none
      let bound : Prop := ∀ e ∈ boundChecks u f, e = none
      let gives (i : Instr) (v : State) (b : AccBlock) (payload : Nat) (row : Nat → List Val) (col : Nat → List (Option Val)) : Prop :=
        (o.imm.getLsbD 31 = false → blockBad (getCluster v c) b = true → exec i s = .next (requestPurge s f.region f.tag)) ∧
        ((o.imm.getLsbD 31 = true ∨ blockBad (getCluster v c) b = false) →
        let cell (i j : Nat) : Nat × Flags := accumulate (rndOf f o) o.sat
          (if o.imm.getLsbD 31 then none else some (readAcc (getCluster v c) b.a (b.row + i) (b.col + j))) ((row i).zip (col j))
        let fl := (List.range b.rows).flatMap fun i => (List.range b.cols).map fun j => (cell i j).2
        Emits i s o (setCluster v c (writeBlock (getCluster v c) b fun i j => (cell i j).1))
          (outTo (destinations v f o) .scalar Flag.none (BitVec.ofNat 64 payload)) (fl.foldl (· ||| ·) 0) (firstTrap v f fl))
      (∀ a, handleAt f 0 = some a →
        (64 < a.rows ∨ kLimit o.fmt < a.epr ∨ (blockAt o a.rows 1).fits = false → EmitsError (.mma o) s o eBOUNDS 0) ∧
        (64 < a.rows ∨ a.epr % 8 ≠ 0 ∨ 2 * kLimit o.fmt < a.epr ∨ (blockAt o a.rows 1).fits = false →
          EmitsError (.mmaSp o) s o eBOUNDS 0) ∧
        (a.rows ≠ 1 ∨ 64 < a.epr ∨ (blockAt o a.epr 1).fits = false → EmitsError (.mouter o) s o eBOUNDS 0)) ∧
      (∀ w, denseB u f o = some w →
        let b := handleOf w
        (64 < b.rows ∨ kLimit o.fmt < b.epr ∨ (blockAt o 1 b.rows).fits = false ∨ (∃ a, handleAt f 0 = some a ∧ a.epr ≠ b.epr) →
          EmitsError (.mma o) s o eBOUNDS 0)) ∧
      (∀ bw, (t 0).kind = .tile → denseB u f o = some bw → bound → sound (t 0).payload o.fmt → sound bw (bFmt o) →
        let (ah, bh) := (handleOf (t 0).payload, handleOf bw)
        ah.rows ≤ 64 → bh.rows ≤ 64 → ah.epr = bh.epr → ah.epr ≤ kLimit o.fmt → (blockAt o ah.rows bh.rows).fits = true →
        ∀ u1 a u2 b, readTile u c (t 0).payload = (u1, a, false) → readTile u1 c bw = (u2, b, false) →
          gives (.mma o) u2 (blockAt o a.rows b.rows) a.epr a.rowVals (denseRow b)) ∧
      (∀ vw dw, (t 0).kind = .tile → sparseB u f o = some (vw, dw) → bound → sound (t 0).payload o.fmt → sound vw (bFmt o) → sound dw .n8 →
        let (ah, vh, dh) := (handleOf (t 0).payload, handleOf vw, handleOf dw)
        ah.rows ≤ 64 → vh.rows ≤ 64 → ah.epr = 2 * vh.epr → ah.epr % 8 = 0 → ah.epr ≤ 2 * kLimit o.fmt →
        sparseShapes vh dh = true → (blockAt o ah.rows vh.rows).fits = true →
        ∀ u1 a u2 v u3 d, readTile u c (t 0).payload = (u1, a, false) → readTile u1 c vw = (u2, v, false) →
          readTile u2 c dw = (u3, d, false) →
          (badMeta 4 2 true v.epr d.elems = none → gives (.mmaSp o) u3 (blockAt o a.rows v.rows) a.epr a.rowVals (sparseRow v d)) ∧
          ∀ e, badMeta 4 2 true v.epr d.elems = some e → EmitsError (.mmaSp o) s o eBOUNDS e) ∧
      ((t 0).kind = .tile → (t 1).kind = .tile → sound (t 0).payload o.fmt → sound (t 1).payload (bFmt o) →
        let (ah, bh) := (handleOf (t 0).payload, handleOf (t 1).payload)
        ah.rows = 1 → bh.rows = 1 → ah.epr ≤ 64 → bh.epr ≤ 64 → (blockAt o ah.epr bh.epr).fits = true →
        ∀ u1 a u2 b, readTile u c (t 0).payload = (u1, a, false) → readTile u1 c (t 1).payload = (u2, b, false) →
          gives (.mouter o) u2 (blockAt o a.epr b.epr) 1 (fun i => [a.value 0 i]) (fun j => [some (b.value 0 j)]))) ∧
  -- Weight Loads Bind
  (∀ (s : State) (o : Op), Performs s o.xfm → usedPoison s.firing = false →
      let u := s.coloured o.xfm
      let f := s.firing
      let t (i : Nat) : Tok := tokAt f i
      let binds (v : State) (b : Binding) (w : Word) : Prop :=
        Emits (.mwload o) s o (modCluster v f.cluster fun k => if o.imm.getLsbD 0 then { k with w1 := b } else { k with w0 := b })
          (outTo (destinations v f o) .scalar Flag.none w) 0 0
      (t 0).flag.poison = false → (t 1).flag.poison = false →
      (isScalar (t 0) = true → (t 0).payload = 0 → binds u .unbound 0) ∧
      (isScalar (t 0) = true → (t 0).payload ≠ 0 → o.imm.getLsbD 1 = false → EmitsError (.mwload o) s o eTYPE_MISMATCH 0) ∧
      ((t 0).kind = .tile → bindable (handleOf (t 0).payload) = false → EmitsError (.mwload o) s o eBOUNDS 0) ∧
      ((t 0).kind = .tile → checkTile u f.cluster (t 0).payload (some [o.fmt]) = none →
        let h := handleOf (t 0).payload
        (h.res = 1 ∨ h.res = 2) → h.rows ≤ 64 →
        (o.imm.getLsbD 1 = false → binds u (.dense (t 0).payload) (t 0).payload) ∧
        (o.imm.getLsbD 1 = true → (t 1).kind = .tile → checkTile u f.cluster (t 1).payload (some [.n8]) = none →
          let d := handleOf (t 1).payload
          sparseShapes h d = true → 2 * h.epr ≤ 2 * kLimit o.fmt → 2 * h.epr % 8 = 0 → h.res = d.res → h.owner = d.owner →
          d.pitch = pitchFor .n8 d.epr → ∀ v m, readTile u f.cluster (t 1).payload = (v, m, false) →
            badMeta 4 2 true h.epr m.elems = none → binds v (.sparse (t 0).payload (t 1).payload) (t 0).payload)))

/-- R221, R237: a block written is the block read, and no other element of an accumulator changes. -/
def Obligations.AccumulatorBlocksReadBack : Prop :=
  ∀ (k : Cluster) (b : AccBlock) (v : Nat → Nat → Nat), b.a < 2 → b.row + b.rows ≤ 64 → b.col + b.cols ≤ 64 →
    (∀ i < b.rows, ∀ j < b.cols, v i j < 2 ^ 32 → readAcc (writeBlock k b v) b.a (b.row + i) (b.col + j) = v i j) ∧
    ∀ a r c, a < 2 → r < 64 → c < 64 → (a ≠ b.a ∨ b.holds r c = false) → readAcc (writeBlock k b v) a r c = readAcc k a r c

/-- R237 to R239, R247: MACC.RD gives a block in its output format, converted element by element, and clears it under
CLR, and a bad word of it purges the strand; MACC.WR writes a tile into a block, widened to f32, and a tile that does
not fit is BOUNDS; MACC.CLR clears one. -/
def Obligations.AccumulatorsMoveToAndFromTiles : Prop :=
  ∀ (s : State) (o : Op), Performs s o.xfm →
    let u := s.coloured o.xfm
    let f := s.firing
    let k := getCluster u f.cluster
    let b := immBlock o
    let t := tokAt f 0
    (∀ g, immFmt o 36 32 = some g → (shapeFits g b.rows b.cols = false → EmitsError (.maccRd o) s o eBOUNDS 0) ∧
      (shapeFits g b.rows b.cols = true → blockBad k b = true → exec (.maccRd o) s = .next (requestPurge s f.region f.tag))) ∧
    (t.kind = .tile → t.flag.poison = false →
      let h := handleOf t.payload
      64 < h.rows ∨ 64 < h.epr ∨ (blockAt o h.rows h.epr).fits = false → EmitsError (.maccWr o) s o eBOUNDS 0) ∧
    (∀ g, immFmt o 36 32 = some g → blockBad k b = false → shapeFits g b.rows b.cols = true →
      let cell (i j : Nat) : Nat × Flags := convertElem .f32 g (rndOf f o) o.sat (rstBits u f (i * b.cols + j))
        (readAcc k b.a (b.row + i) (b.col + j))
      GivesTile (.maccRd o) s o (if o.imm.getLsbD 31 then setCluster u f.cluster (writeBlock k b fun _ _ => 0) else u)
        (plainTile g b.rows b.cols fun i j => (cell i j).1)
        ((List.range b.rows).flatMap fun i => (List.range b.cols).map fun j => (cell i j).2) false) ∧
    (let h := handleOf t.payload
     t.kind = .tile → t.flag.poison = false → checkTile u f.cluster t.payload (some [o.fmt]) = none → h.rows ≤ 64 → h.epr ≤ 64 →
      (blockAt o h.rows h.epr).fits = true → ∀ v x, readTile u f.cluster t.payload = (v, x, false) →
        let cell (i j : Nat) : Nat × Flags := fpConvert fpF32 .rne false 0 (unpack (fpFor o.fmt) (x.at_ i j))
        (∀ r ∈ x.elems, r.length = x.epr) → x.rows = h.rows → x.epr = h.epr →
        let fl := (List.range x.rows).flatMap fun i => (List.range x.epr).map fun j => (cell i j).2
        Emits (.maccWr o) s o (modCluster v f.cluster fun k => writeBlock k (blockAt o h.rows h.epr) fun i j =>
            if i < x.rows ∧ j < x.epr then (cell i j).1 else 0)
          (outTo (destinations v f o) .scalar Flag.none 0) (fl.foldl (· ||| ·) 0) (firstTrap v f fl)) ∧
    Emits (.maccClr o) s o (setCluster u f.cluster (writeBlock k b fun _ _ => 0)) (outTo (destinations u f o) .scalar Flag.none 0) 0 0

/-- R242 to R246: each row is sorted stably, cut to its first keys, merged or transposed; keys go to DST0 and their
indices to DST1 where it is valid. -/
def Obligations.NetworkModeSortsAndMerges : Prop :=
  (∀ (f : Fmt) (desc : Bool) (row : List Nat),
    let l := sortRow f desc row
    l.Perm (row.zip (List.range row.length)) ∧ l.Pairwise fun x y =>
      keyBefore f desc y.1 x.1 = false ∧ (keyBefore f desc x.1 y.1 = true ∨ x.2 < y.2)) ∧
  ∀ (s : State) (o : Op) (u : State) (as : List VArg) (poison : Bool), Performs s o.xfm →
    let f := s.firing
    let desc := o.imm.getLsbD 0
    let place (i : Nat) : List (Nat × Dst) := (destinations u f o).filter fun d => d.1 == i
    let keys (i : Instr) (rows : List (List (Nat × Nat))) : Prop :=
      let n := (rows.headD []).length
      let part (g : Fmt) (e : Nat × Nat → Nat) : Tile := { fmt := g, epr := n, elems := rows.map fun r => r.map e, scales := [] }
      let ts := (part o.fmt Prod.fst, place 0) :: if o.dst1.valid then [(part .n16 Prod.snd, place 1)] else []
      (shapeFits o.fmt rows.length n = false ∨ shapeFits .n16 rows.length n = false → EmitsError i s o eBOUNDS 0) ∧
      (shapeFits o.fmt rows.length n = true → shapeFits .n16 rows.length n = true →
        (putTiles u f false ts = none → exec i s = .next (requeue s f)) ∧
        ∀ v outs, putTiles u f false ts = some (v, outs) → Emits i s o v outs 0 0)
    (∀ t, as = [.tile t] → OperandsRead s o [tileOnly o.fmt] u as poison → 64 < t.rows ∨ 64 < t.epr →
      EmitsError (.msort o) s o eBOUNDS 0 ∧ EmitsError (.mtopk o) s o eBOUNDS 0 ∧ EmitsError (.mtrans o) s o eBOUNDS 0) ∧
    (∀ t, as = [.tile t] → OperandsRead s o [tileOnly o.fmt] u as poison → t.rows ≤ 64 → t.epr ≤ 64 →
      keys (.msort o) (t.elems.map (sortRow o.fmt desc)) ∧
      (let n := (o.imm.extractLsb' 1 8).toNat + 1
       (n ≤ t.epr → keys (.mtopk o) (t.elems.map fun r => (sortRow o.fmt desc r).take n)) ∧
       (t.epr < n → EmitsError (.mtopk o) s o eBOUNDS 0)) ∧
      GivesTile (.mtrans o) s o u (plainTile o.fmt t.epr t.rows fun i j => t.at_ j i) [] false) ∧
    (let key : VPort := { tileOnly o.fmt with shaped := false }
     let ind : VPort := { tileOnly .n16 with shaped := false }
     let merged (a b : Tile) (ia ib : Nat → Nat → Nat) : List (List (Nat × Nat)) := (List.range a.rows).map fun i =>
      mergeRows o.fmt desc (a.epr + b.epr) ((List.range a.epr).map fun j => (a.at_ i j, ia i j))
        ((List.range b.epr).map fun j => (b.at_ i j, ib i j))
     (∀ a b, as = [.tile a, .tile b] → o.nports ≠ 4 → OperandsRead s o [key, key] u as poison →
        a.rows ≠ b.rows ∨ 64 < a.rows ∨ 64 < a.epr ∨ 64 < b.epr → EmitsError (.mmerge o) s o eBOUNDS 0) ∧
     (∀ a b, as = [.tile a, .tile b] → o.nports ≠ 4 → OperandsRead s o [key, key] u as poison → a.rows = b.rows → a.rows ≤ 64 →
        a.epr ≤ 64 → b.epr ≤ 64 → keys (.mmerge o) (merged a b (fun _ j => j) fun _ j => a.epr + j)) ∧
     ∀ a x b y, as = [.tile a, .tile x, .tile b, .tile y] → o.nports = 4 → OperandsRead s o [key, ind, key, ind] u as poison →
        a.rows = b.rows → a.rows ≤ 64 → a.epr ≤ 64 → b.epr ≤ 64 → x.rows = a.rows → x.epr = a.epr → y.rows = b.rows → y.epr = b.epr →
        keys (.mmerge o) (merged a b x.at_ y.at_))

/-! ### Stencils (08) -/

/-- R256: a class-3 operator of a queue joins the queue's pending list with the cluster's next acceptance position, or
stays matched while sixteen are pending; a handle that it writes or empties is checked as it fires (R255). R277 to R279:
SGEN writes a stencil's addresses as a tile; SORDER notes the open firings of its queues and passes its token; SCANCEL
drops the pending copies of its queue or slot, stops an issued one, and passes its token at once when none is left to
send. -/
def Obligations.StencilOperatorsAreAccepted : Prop :=
  -- Stencil Operators Join Their Queue
  (∀ (s : State) (o : Op),
      let f := s.firing
      let k := getCluster s f.cluster
      let opc := (f.word.extractLsb' 117 8).toNat
      let q := if opc = 0 ∨ opc = 6 then (o.imm.extractLsb' 30 2).toNat else (o.imm.extractLsb' 3 2).toNat
      let x := getSQueue s f.cluster q
      ∀ i ∈ [Instr.scopy o, .sarm o, .sfire o, .schain o, .sdisarm o, .sempty o, .sfill o],
        (x.pending.length < 16 → ∃ t y, exec i s = .next t ∧ getSQueue t f.cluster q = { x with pending := x.pending ++ [y] } ∧
          y.firing = f ∧ y.no = k.accepted ∧ y.next = 0 ∧ y.slot = 8 * (o.imm.extractLsb' 3 2).toNat + (o.imm.extractLsb' 0 3).toNat ∧
          (∀ p, writtenPort f.word = some p → handleBad s f.cluster (tokAt f p) = true → y.error = some (stenErrorWord s f eBOUNDS 0)) ∧
          ((∀ p, writtenPort f.word = some p → handleBad s f.cluster (tokAt f p) = false) → y.error = none) ∧
          (getCluster t f.cluster).accepted = k.accepted + 1 ∧ t = setCluster s f.cluster (getCluster t f.cluster)) ∧
        (16 ≤ x.pending.length → exec i s = .next (requeue s f))) ∧
  -- Sgen Sorder Scancel
  (∀ (s : State) (o : Op),
      let f := s.firing
      let a := setCluster s f.cluster { getCluster s f.cluster with accepted := (getCluster s f.cluster).accepted + 1 }
      let t := tokAt f 0
      isScalar t = true → t.flag.poison = false →
      (Performs a o.xfm →
        armed (a.coloured o.xfm) f.cluster (8 * (o.imm.extractLsb' 3 2).toNat + (o.imm.extractLsb' 0 3).toNat) = none →
        exec (.sgen o) s = .next (emitError (a.coloured o.xfm) f o o.xfm (tagUnder a f o.xfm) (destinations a f o)
          (errorPayload (getRegion a f.region) f.cluster f.slot 0 eTYPE_MISMATCH))) ∧
      (Performs a o.xfm → ∀ x, armed (a.coloured o.xfm) f.cluster (8 * (o.imm.extractLsb' 3 2).toNat + (o.imm.extractLsb' 0 3).toNat) = some x →
        let u := a.coloured o.xfm
        let p := t.payload.toNat
        let dst := o.imm.getLsbD 8
        (dst = true → x.isTiles = true → exec (.sgen o) s = .next (emitError u f o o.xfm (tagUnder a f o.xfm) (destinations a f o)
          (errorPayload (getRegion a f.region) f.cluster f.slot 0 eTYPE_MISMATCH))) ∧
        (dst = false ∨ x.isTiles = false → x.pmax < p ∨ 128 < x.n0 ∨ 4096 < x.count ∨ 128 < x.count / x.n0 →
          exec (.sgen o) s = .next (emitError u f o o.xfm (tagUnder a f o.xfm) (destinations a f o)
            (errorPayload (getRegion a f.region) f.cluster f.slot 0 eBOUNDS))) ∧
        (dst = false ∨ x.isTiles = false → p ≤ x.pmax → x.n0 ≤ 128 → x.count ≤ 4096 → x.count / x.n0 ≤ 128 →
          shapeFits .n64 (x.count / x.n0) x.n0 = true →
          let t := plainTile .n64 (x.count / x.n0) x.n0 fun i j =>
            ((if dst then x.dst p (i * x.n0 + j) else x.src p (i * x.n0 + j)) % 2 ^ 64).toNat
          (putTile u f.region f.cluster f.tag t false = none → exec (.sgen o) s = .next (requeue a f)) ∧
          ∀ v w, putTile u f.region f.cluster f.tag t false = some (v, w) →
            exec (.sgen o) s = .next (emit v f o o.xfm (tagUnder a f o.xfm) (outTo (destinations v f o) .tile Flag.none w) 0 0))) ∧
      (Performs s o.xfm →
        let u := s.coloured o.xfm
        let k := getCluster u f.cluster
        let opened := k.queues.flatMap fun e => if o.imm.getLsbD e.1 then e.2.pending.map SFiring.no ++ (e.2.issued.map SFiring.no).toList else []
        (∃ v, v = setCluster u f.cluster { k with accepted := k.accepted + 1, notes := if opened = [] then k.notes else k.notes ++
            [{ no := k.accepted, onto := o.imm.extractLsb' 4 4, noted := opened, region := f.region, slot := f.slot, tag := f.tag }] } ∧
          Emits (.sorder o) s o v (passTo (destinations u f o) t) 0 0) ∧
        let q := (o.imm.extractLsb' 3 2).toNat
        let x := Tab.get SQueue.empty k.queues q
        let hit := x.pending.filter (cancels o)
        let left := hit.map SFiring.no ++ ((x.issued.filter (cancels o)).map SFiring.no).toList
        let k' := dropNoted
          { k with queues := Tab.set SQueue.empty k.queues q
                     { x with pending := x.pending.filter (fun y => !cancels o y),
                              issued := x.issued.map fun y => if cancels o y then { y with cancelled := true } else y },
                   accepted := k.accepted + 1, finishing := k.finishing ++ hit.map fun y => (q, Machine.cancelled u y) }
          (hit.map SFiring.no)
        (left = [] → Emits (.scancel o) s o (setCluster u f.cluster k') (passTo (destinations u f o) t) 0 0) ∧
        (left ≠ [] → exec (.scancel o) s = .next (setCluster u f.cluster { k' with cancels := k.cancels ++ [{ firing := f, left := left }] }))))

/-- R256, R269, R271 to R279: firings that have left a queue send their last tokens; then a queue with nothing issued
issues its oldest pending firing, unless its region is stopped, an SORDER holds it back or its source tile's lines are
not yet full; an error in it completes it at once. An issued copy performs its next element, or after its last follows
its chain or completes; one that is cancelled performs only an element that a page fault held. R262 to R264: a tile step
takes its lines (of the pool; of an empty ring slot; of a retained slot that no spawn record names), copies the tile's
elements and sends its token and its mark; it waits while it cannot take them or their colour is refused; a page fault
holds it in mid tile, and it goes on with the lines it has. -/
def Obligations.StencilQueuesMoveOn : Prop :=
  -- Stencil Queues Move On
  (∀ (s : State) (c q : Nat) (x : SFiring),
      let s1 := finishCancels (finishQueue s c q) c
      let k := getCluster s1 c
      let y := getSQueue s1 c q
      let f := x.firing
      let ends (v : State) : Prop := exec (.stencilQueueIssue c q) s = .next v
      (y.issued = none → y.pending = [] → ends s1) ∧
      (∀ rest, y.issued = none → y.pending = x :: rest →
        (isStopped s1 f.region = true ∨ orderedBack k q x = true ∨ sourceLines s1 x = .waiting → ends s1) ∧
        (isStopped s1 f.region = false → orderedBack k q x = false → sourceLines s1 x ≠ .waiting →
          let u := setSQueue s1 c q { y with pending := rest }
          let z := { x with tiled := tilesNow u x }
          let put (v : State) (z : SFiring) : State := setSQueue v c q { getSQueue v c q with issued := some z }
          let done (v : State) (z : SFiring) : Prop := ends (completeFiring (put v z) c q z)
          let bad (w : Word) : Prop := done u { z with error := some w }
          (∀ t, f.toks.find? (fun t => t.kind == .error) = some t → bad t.payload) ∧
          (f.toks.find? (fun t => t.kind == .error) = none →
            (portPoison f (scalarPorts z) = true →
              ends (modCluster (requestPurge u f.region f.tag) c fun k => dropNoted k [x.no])) ∧
            (portPoison f (scalarPorts z) = false →
              (x.error.isSome = true → done u z) ∧
              (x.error = none →
                (∀ e, issueErrorOf u z = some e → bad (stenErrorWord u f e 0)) ∧
                (issueErrorOf u z = none → f.stale = true ∨ sourceLines u z = .stale → bad (stenErrorWord u f eREPLAY_STALE 0)) ∧
                (issueErrorOf u z = none → f.stale = false → sourceLines u z ≠ .stale →
                  (sOpc x = 0x01 → ends (sarmStep (put u z) c q z)) ∧
                  (∀ v, sOpc x = 0x03 → performSchain u z = .ok v → done v z) ∧
                  (∀ e, sOpc x = 0x03 → performSchain u z = .error e → bad (stenErrorWord u f e 0)) ∧
                  (sOpc x = 0x04 → done (performSdisarm u z) z) ∧
                  (sOpc x = 0x05 → done (performSempty u z).1 { z with done := (performSempty u z).2.toNat }) ∧
                  (sOpc x = 0x00 ∨ sOpc x = 0x02 ∨ sOpc x = 0x06 → ends (put u z)))))))) ∧
      (y.issued = some x →
        (x.held.isSome = true → ends s1) ∧
        (x.held = none →
          (x.error.isSome = true ∨ (x.cancelled = true ∧ x.begun = false) → ends (completeFiring s1 c q x)) ∧
          (x.error = none → x.cancelled = false ∨ x.begun = true → sOpc x = 0x01 → ends (sarmStep s1 c q x)) ∧
          (x.error = none → x.cancelled = true → x.begun = true → sOpc x ≠ 0x01 → ends (putStep s1 c q (performNext s1 q x))) ∧
          (x.error = none → x.cancelled = false → sOpc x ≠ 0x01 → x.tile = none → inTiles s1 x = false →
            (elemCount s1 x ≤ x.next → ends (afterLast s1 c q x)) ∧
            (x.next < elemCount s1 x → ∀ u z, performNext s1 q x = .next u z → z.next ≠ x.next →
              (sendMark u z x.next = none → ends s1) ∧
              ∀ v w, sendMark u z x.next = some (v, w) → ends (modIssued v c q fun _ => w)) ∧
            (x.next < elemCount s1 x → ∀ u z, performNext s1 q x = .held u z → ends (modIssued u c q fun _ => z)))))) ∧
  -- Tile Steps Send Their Tiles
  (∀ (s : State) (c q : Nat) (x : SFiring) (t : Stencil), (getSQueue s c q).issued = some x → sOpc x = 0x02 →
      armed s c x.slot = some t → t.isTiles = true → x.held = none → x.cancelled = false → x.error = none →
      (x.tile = none → x.next < t.count) →
      let steps (i : Instr) (ring : Bool) (ok : Prop) (take : Option (State × Word)) : Prop :=
        let ends (v : State) : Prop := exec i s = .next v
        let start : Option (State × SFiring) := if x.tile.isSome then some (s, x) else
          take.map fun r => (r.1, { x with tile := some (r.2, x.next + t.tileSize), filled := [] })
        t.isRing = ring → ok →
          (start = none → ends s) ∧
          ∀ u z, start = some (u, z) →
            let stop := (z.tile.map Prod.snd).getD 0
            let r := performUpTo q stop t.tileSize u z
            (∀ v y, r = .next v y →
              (y.next < stop → ends (modIssued v c q fun _ => y)) ∧
              (stop ≤ y.next →
                (sendTile v y t = none → ends (modIssued v c q fun _ => y)) ∧
                ∀ v1 y1, sendTile v y t = some (v1, y1) →
                  (sendMark v1 y1 (y1.next - 1) = none → ends (modIssued v c q fun _ => y)) ∧
                  ∀ v2 y2, sendMark v1 y1 (y1.next - 1) = some (v2, y2) → ends (modIssued v2 c q fun _ => y2))) ∧
            (∀ v y, r = .held v y → ends (modIssued v c q fun _ => y))
      steps (.streamTileStep c q) false True (takeStream s x t) ∧
      steps (.ringTileStep c q) true (t.retain = false) (takeRing s x t) ∧
      steps (.retainedRingStep c q) true (t.retain = true) (takeRetained s x t))

/-- R47, R271, R274, R275: what SARM, SDISARM and SEMPTY leave: an armed slot with no link and its cursor at zero; an
unarmed slot that no link reaches; empty lines under their next generation. A page fault on the descriptor holds the
SARM (R269). -/
def Obligations.StencilSlotsAndLines : Prop :=
  ∀ (s : State) (x : SFiring),
    let c := x.firing.cluster
    (∀ ps v, performSarm s x ps = .ok v → portValue x.firing 0 % 128 = 0 ∧
      (∃ d, (getSten v c x.slot) = { desc := some d, link := none, cursor := 0 } ∧ descriptorOk d = true) ∧
      ∀ j ≠ x.slot, getSten v c j = getSten s c j) ∧
    (∀ q, x.failNext = none →
      (∀ ps w, sideParts s x.firing.region (c / 512) (.addr (portValue x.firing 0)) 128 false = .parts ps w →
        (∀ v, performSarm s x ps = .ok v →
          sarmStep s c q x = completeFiring v c q { x with next := 1, begun := false, failNext := none }) ∧
        ∀ e, performSarm s x ps = .error e → sarmStep s c q x = completeFiring s c q
          { x with error := some (stenErrorWord s x.firing e 0), next := 1, begun := false, failNext := none }) ∧
      ∀ a p k, sideParts s x.firing.region (c / 512) (.addr (portValue x.firing 0)) 128 false = .miss a p k →
        portValue x.firing 0 % 128 = 0 → ∀ v w, holdElem s x q a p k = some (v, w) →
        sarmStep s c q x = modIssued v c q fun _ => w) ∧
    (Tab.wf Sten.empty (getCluster s c).sten = true → getSten (performSdisarm s x) c x.slot = Sten.empty ∧
      ∀ j ≠ x.slot, getSten (performSdisarm s x) c j =
        if (getSten s c j).link = some x.slot then { getSten s c j with link := none } else getSten s c j) ∧
    (let h := handleOf (tokAt x.firing 0).payload
     let v := (performSempty s x).1
     (∀ i < h.lines, getLine v c (h.base + i) = { full := false, gen := (getLine s c (h.base + i)).gen + 1, written := 0 }) ∧
     (∀ l, l < h.base ∨ h.base + h.lines ≤ l → getLine v c l = getLine s c l) ∧
     handleOf (performSempty s x).2 = { h with gen := (h.gen + 1) % 16 })

/-! ### Memory ports (09) -/

/-- R288, R305 to R312: each class-4 operator goes to its port with the elements the spec lists: their addresses, sizes
and bytes, in index order; an operand of the wrong kind is TYPE_MISMATCH, shapes that disagree and bad metadata are
BOUNDS, and a poisoned address or index purges the strand. R300 to R302: MRESUME acts on its ticket: a retry lets the
holder go on, an entry is installed first, an escalation raises PORT_FAULT_MAJOR and keeps the ticket, and FAIL fails
the held element; a ticket that is not live answers 1, and an action that R300 does not list is BOUNDS; an error token
on port 1 is the action FAIL, and goes on to the destinations. -/
def Obligations.PortOperatorsAndTickets : Prop :=
  -- Port Operators Request Their Elements
  (∀ (s : State) (o : Op), Performs s o.xfm →
      let u := s.coloured o.xfm
      let f := s.firing
      let t (i : Nat) : Tok := tokAt f i
      let x (i : Nat) : Nat := (t i).payload.toNat
      let y (i : Nat) : Int := (t i).payload.toInt
      let sc (i : Nat) : Prop := isScalar (t i) = true ∧ (t i).flag.poison = false
      let reads (ix : Nat) (a : Int) (n : Nat) : Elem := { ix := ix, addr := a, size := n, write := none, poison := false }
      let writes (ix : Nat) (a : Int) (bs : List Byte) (p : Bool) : Elem :=
        { ix := ix, addr := a, size := bs.length, write := some bs, poison := p }
      let n := match o.fmt with | .raw => 8 | g => fmtBits g / 8
      let rows := (o.imm.extractLsb' 18 7).toNat + 1
      let epr := (o.imm.extractLsb' 6 12).toNat + 1
      let tile := o.imm.getLsbD 25
      let size := (o.imm.extractLsb' 0 18).toNat + 1
      (∀ i ∈ [Instr.ld, .lds, .portLdw, .portStw, .pref, .mstart, .mmode], isScalar (t 0) = false →
        EmitsError (i o) s o eTYPE_MISMATCH 0) ∧
      (∀ i ∈ [Instr.lds, .mstart], isScalar (t 0) = true → isScalar (t 1) = true →
        (t 0).flag.poison = true ∨ (t 1).flag.poison = true → exec (i o) s = .next (requestPurge s f.region f.tag)) ∧
      ((t 1).kind = .tile → (t 2).kind = .tile →
        let (h, k) := (handleOf (t 1).payload, handleOf (t 2).payload)
        h.rows ≠ k.rows ∨ h.epr ≠ k.epr → EmitsError (.sti o) s o eBOUNDS 0) ∧
      ((t 2).kind = .tile → (t 3).kind = .tile →
        let (v, d) := (handleOf (t 2).payload, handleOf (t 3).payload)
        d.rows ≠ v.rows ∨ v.epr % 4 ≠ 0 ∨ d.epr ≠ v.epr / 4 → EmitsError (.sts o) s o eBOUNDS 0) ∧
      (tile = false → sc 0 → RequestsPort (.ld o) s o u [reads 0 (x 0) n] ∧
        (isScalar (t 1) = true → RequestsPort (.st o) s o u [writes 0 (x 0) (leBytes n (x 1)) (t 1).flag.poison])) ∧
      (tile = true → sc 0 → sc 1 → RequestsPort (.ld o) s o u
        ((List.range rows).map fun i => reads i (x 0 + (i : Int) * y 1) (rowBytes o.fmt epr))) ∧
      (tile = true → sc 0 → sc 2 → (t 1).kind = .tile → checkTile u f.cluster (t 1).payload (some [o.fmt]) = none →
        ∀ v a bad, readTile u f.cluster (t 1).payload = (v, a, bad) → RequestsPort (.st o) s o v
          ((List.range a.rows).map fun i => writes i (x 0 + (i : Int) * y 2) (a.rowBytes i) (bad || (t 1).flag.poison))) ∧
      (sc 0 → sc 1 → RequestsPort (.lds o) s o u ((List.range rows).map fun i => reads i (x 0 + (i : Int) * y 1) (rowBytes o.fmt epr)) ∧
        RequestsPort (.mstart o) s o u [reads 0 (x 0) (x 1)]) ∧
      (sc 0 → (t 1).kind = .tile → (t 1).flag.poison = false → checkTile u f.cluster (t 1).payload (some [indexFmt o]) = none →
        shapeFits o.fmt (handleOf (t 1).payload).rows (handleOf (t 1).payload).epr = true →
        ∀ v a, readTile u f.cluster (t 1).payload = (v, a, false) → RequestsPort (.ldi o) s o v
          ((a.elems.flatten.zip (List.range (a.rows * a.epr))).map fun e =>
            reads e.2 (x 0 + intOf (indexFmt o) e.1 * 2 ^ (o.imm.toNat % 8)) n)) ∧
      (sc 0 → (t 1).kind = .tile → (t 1).flag.poison = false → (t 2).kind = .tile →
        checkTile u f.cluster (t 1).payload (some [indexFmt o]) = none → checkTile u f.cluster (t 2).payload (some [o.fmt]) = none →
        (handleOf (t 1).payload).rows = (handleOf (t 2).payload).rows → (handleOf (t 1).payload).epr = (handleOf (t 2).payload).epr →
        ∀ v a w d bad, readTile u f.cluster (t 1).payload = (v, a, false) → readTile v f.cluster (t 2).payload = (w, d, bad) →
          RequestsPort (.sti o) s o w (((a.elems.flatten.zip d.elems.flatten).zip (List.range (a.rows * a.epr))).map fun e =>
            writes e.2 (x 0 + intOf (indexFmt o) e.1.1 * 2 ^ (o.imm.toNat % 8)) (packElems o.fmt [e.1.2]) (bad || (t 2).flag.poison))) ∧
      (sc 0 → sc 1 → (t 2).kind = .tile → (t 3).kind = .tile → (t 3).flag.poison = false →
        checkTile u f.cluster (t 2).payload (some [o.fmt]) = none → checkTile u f.cluster (t 3).payload (some [.n8]) = none →
        (handleOf (t 3).payload).rows = (handleOf (t 2).payload).rows → (handleOf (t 2).payload).epr % 4 = 0 →
        (handleOf (t 3).payload).epr = (handleOf (t 2).payload).epr / 4 →
        ∀ v a w d bad, readTile u f.cluster (t 2).payload = (v, a, bad) → readTile v f.cluster (t 3).payload = (w, d, false) →
          (∀ e, badMeta 4 2 true a.epr d.elems = some e → EmitsError (.sts o) s o eBOUNDS e) ∧
          (badMeta 4 2 true a.epr d.elems = none →
            let dense := expandTile 4 2 true a d
            RequestsPort (.sts o) s o w ((List.range dense.rows).map fun i =>
              writes i (x 0 + (i : Int) * y 1) (dense.rowBytes i) (bad || (t 2).flag.poison)))) ∧
      (sc 0 → RequestsPort (.portLdw o) s o u (if tile then [] else [reads 0 (x 0) n]) ∧
        (isScalar (t 1) = true → RequestsPort (.portStw o) s o u
          (if tile then [] else [writes 0 (x 0) (leBytes n (x 1)) (t 1).flag.poison])) ∧
        RequestsPort (.mmode o) s o u [] ∧
        RequestsPort (.pref o) s o u ((List.range ((size + 127) / 128)).map fun i =>
          reads i (x 0 + 128 * (i : Int)) (min 128 (size - 128 * i))))) ∧
  -- Mresume Acts On Its Ticket
  ((∀ (s : State) (o : Op), o.xfm = .keep ∨ o.xfm = .exit →
      let f := s.firing
      let (t, a) := (tokAt f 0, tokAt f 1)
      let v := (applyResume s f t.payload (.fail (a.payload.extractLsb' 0 8))).1
      isScalar t = true → t.flag.poison = false → a.kind = .error →
        exec (.mresume o) s = .next (emitError v f o o.xfm (tagUnder s f o.xfm) (destinations v f o) a.payload)) ∧
    ∀ (s : State) (o : Op), Performs s o.xfm →
      let u := s.coloured o.xfm
      let f := s.firing
      let t (i : Nat) : Tok := tokAt f i
      isScalar (t 0) = true → isScalar (t 1) = true → (t 0).flag.poison = false → (t 1).flag.poison = false →
      let w := (t 0).payload
      let a := (t 1).payload
      let live := (livePort u w).isSome || (liveHawk u w).isSome || (liveCopy u w).isSome
      let answers (v : State) (n : Nat) : Prop := Emits (.mresume o) s o v (outTo (destinations v f o) .done Flag.none (BitVec.ofNat 64 n)) 0 0
      (a = 0 → (live = true → answers (retryTicket u w) 0) ∧ (live = false → answers u 1)) ∧
      (a.getLsbD 0 = true → a.getLsbD 1 = false → a.extractLsb' 14 2 ≠ 3 →
        (live = true → answers (retryTicket (installTicket u w a) w) 0) ∧ (live = false → answers (installTicket u w a) 1)) ∧
      (a.getLsbD 0 = true → (a.getLsbD 1 = true ∨ a.extractLsb' 14 2 = 3) →
        (live = true → answers (failTicket u w ePAGE_FAIL) 0) ∧ (live = false → answers u 1)) ∧
      (a = 0xFFFFFFFFFFFFFFFE → (live = true → answers (escalateTicket u f w false) 2) ∧ (live = false → answers u 1)) ∧
      (a = 0xFFFFFFFFFFFFFFFC → (live = true → answers (escalateTicket u f w true) 2) ∧ (live = false → answers u 1)) ∧
      (a ≠ 0 → a.getLsbD 0 = false → a ≠ 0xFFFFFFFFFFFFFFFE → a ≠ 0xFFFFFFFFFFFFFFFC → EmitsError (.mresume o) s o eBOUNDS 0))

/-- R288, R290, R308, R310 to R312: a port queues the requests of the region that owns it and answers ADDR_RANGE to
others; MSTART acts when accepted; the oldest firing that may start takes a generator, an access of a wave waits for its
predecessor, and an MMODE with nothing before it sets the mode. R291, R292, R298, R305 to R307, R311: a generator
performs one element of its firing, against the entries that the firing was accepted under: what it read joins the
firing, what failed is its lowest failing element, a missing page holds it under a ticket; a store asks for its
handshake first, and where that is refused the firing ends; after the last element the firing completes with its result,
done or error tokens. R288, R306, R307: the tokens with which a port's firing completes. R310: a streaming port reads
ahead one granule of its range into its buffer, and nothing else changes; it does so only in stream mode, within the
range and at most 64 KiB past the demanded byte, and never asks for a page. -/
def Obligations.PortsPerformTheirFirings : Prop :=
  -- Ports Accept And Start
  (∀ (s : State) (p : Nat) (j : Job) (rest : List Job),
      let q := getPort s p
      (q.incoming = j :: rest → q.queue.length < 64 →
        let u := setPort s p { q with incoming := rest }
        (q.en = false ∨ q.owner.toNat ≠ j.firing.region →
          exec (.portRequestAccept p) s = .next (answerError u j.firing j.tag (srcPort p) (jobDests u j) eADDR_RANGE 0)) ∧
        (q.en = true → q.owner.toNat = j.firing.region →
          (jobOpc j ≠ 0x0A → ∃ t, exec (.portRequestAccept p) s = .next t ∧ (getPort t p).incoming = rest ∧
            (getPort t p).queue = q.queue ++ [{ j with no := q.accepted }] ∧ (getPort t p).accepted = q.accepted + 1 ∧
            t = setPort s p (getPort t p)) ∧
          (∀ e l, jobOpc j = 0x0A → j.elems = e :: l →
            (e.size = 0 ∨ (bankWindow : Int) < e.addr + e.size → exec (.portRequestAccept p) s =
              .next (answerError u j.firing j.tag (srcPort p) (jobDests u j) eADDR_RANGE 0)) ∧
            (e.size ≠ 0 → e.addr + e.size ≤ (bankWindow : Int) → exec (.portRequestAccept p) s = .next (jobDone
              (modPort u p fun q => { q with ahead := [], range := some (BitVec.ofInt 64 e.addr, BitVec.ofNat 64 e.size),
                                             demand := e.addr.toNat, aheadTo := e.addr.toNat }) p j .done 0 false))))) ∧
      (q.incoming = j :: rest → 64 ≤ q.queue.length → exec (.portRequestAccept p) s = .next s) ∧
      (∀ i g, nextStart s q 0 q.queue = some (i, .generator) → q.queue[i]? = some j → freeGen q = some g →
        ∃ t, exec (.generatorStart p) s = .next t ∧ genJob (getPort t p) g = some { j with started := true } ∧
          (getPort t p).queue = removeAt q.queue i ∧ t = setPort s p (getPort t p)) ∧
      (∀ i, nextStart s q 0 q.queue = some (i, .wave) → q.queue[i]? = some j →
        exec (.generatorStart p) s = .next (setPort s p { q with queue := removeAt q.queue i, waiting := q.waiting ++ [j] })) ∧
      (∀ i, nextStart s q 0 q.queue = some (i, .mode) → q.queue[i]? = some j →
        let m := ((jobOp j).imm.toNat % 4)
        exec (.generatorStart p) s = .next (jobDone (setPort s p
          { q with queue := removeAt q.queue i, mode := BitVec.ofNat 2 m,
                   range := if m = 1 ∧ q.mode ≠ 1 then q.range else none, waves := if m = 2 then q.waves else [] }) p j .done 0
          false)) ∧
      (∀ k g, q.waiting[k]? = some j → freeGen q = some g → performable q j = true → isStopped s j.firing.region = false →
        ∃ t, exec (.waveAccessPerform p k) s = .next t ∧ genJob (getPort t p) g = some { j with started := true } ∧
          (getPort t p).waiting = removeAt q.waiting k ∧ t = setPort s p (getPort t p)) ∧
      (∀ k, q.waiting[k]? = some j → performable q j = false → exec (.waveAccessPerform p k) s = .next s)) ∧
  -- Generators Perform Elements
  (∀ (s : State) (p g : Nat) (j : Job), genJob (getPort s p) g = some j →
      let i := Instr.elementPerform p g
      let nop := isWave j && (getPort s p).mode == 2 && (jobOp j).imm.getLsbD 25 && j.count == 0
      (j.held.isSome = true → exec i s = .next s) ∧
      (j.held = none → nop = true →
        exec i s = .next (tryComplete (setPort s p (setGen (advanceWave (getPort s p) j) g (some { j with count := 1 }))) p g)) ∧
      (j.held = none → nop = false → j.elems = [] → exec i s = .next (tryComplete s p g)) ∧
      (∀ e, j.held = none → nop = false → j.elems[chooseElem s j]? = some e →
        let rest := j.elems.eraseIdx (chooseElem s j)
        let put (u : State) (k : Job) : State := tryComplete (modPort u p fun q => setGen q g (some k)) p g
        (jobOpc j = 8 → (prefElem s p g j e = none → exec i s = .next s) ∧ ∀ u n, prefElem s p g j e = some (u, n) →
          exec i s = .next (put u { j with elems := rest, count := j.count + 1, bytes := j.bytes + n })) ∧
        (jobOpc j ≠ 8 →
          let row : Bool := match jobOpc j with | 0 | 1 => (jobOp j).imm.getLsbD 25 | 4 | 5 => true | _ => false
          let did (u : State) (k : Job) : Did := performElem u p (jobXlate (getPort u p) k) k.firing.region k.handshake row e
          let moves (u : State) : State := if isWave j && (getPort u p).mode = 2 then modPort u p (advanceWave · j) else u
          let goesOn (v : State) (k : Job) : Prop :=
            (∀ u bs bad, did v k = .read u bs bad → exec i s = .next (put (moves u)
              { k with elems := rest, got := k.got ++ [(e.ix, bs, bad)], count := k.count + 1, bytes := k.bytes + e.size })) ∧
            (∀ u, did v k = .wrote u →
              exec i s = .next (put (moves u) { k with elems := rest, count := k.count + 1, bytes := k.bytes + e.size })) ∧
            (∀ u c, did v k = .fail u c → exec i s = .next (put u { k with elems := rest, fail := match k.fail with
              | none => some (e.ix, c)
              | some (n, d) => if n ≤ e.ix then some (n, d) else some (e.ix, c) })) ∧
            (∀ b kind u, did v k = .miss b kind →
              let q := getPort v p
              let seq := Tab.get 0 q.seqs g + 1
              let w := ticketWord (p / 16) false (p % 16) g seq.toNat kind q.asid
              raiseMiss v w b = some u → ∃ t, exec i s = .next t ∧ Tab.get 0 (getPort t p).seqs g = seq ∧ genJob (getPort t p) g =
                some { k with elems := e :: rest, held := some (BitVec.ofNat 64 b, BitVec.ofNat 4 kind, seq, missIsDirect v w) })
          let asks := e.write.isSome && !(jobOp j).imm.getLsbD 26 && !j.handshake
          (asks = false → goesOn s j ∧ (did s j = .needs →
            (handshake s j.firing.region j.firing.tag = none → exec i s = .next (modPort s p fun q => setGen q g none)))) ∧
          (asks = true →
            (handshake s j.firing.region j.firing.tag = none → exec i s = .next (modPort s p fun q => setGen q g none)) ∧
            ∀ v, handshake s j.firing.region j.firing.tag = some v → goesOn v { j with handshake := true }))) ∧
      (∀ u k, k.elems = [] → k.held = none → (jobOp k).ord = false → genJob (getPort u p) g = some k →
        tryComplete u p g = completeJob (setPort u p (setGen (getPort u p) g none)) p k)) ∧
  -- Port Firings Complete With Their Result
  (∀ (s : State) (p : Nat) (j : Job),
      let o := jobOp j
      let ds := destinations s j.firing o
      let toks (k : Kind) (poison : Bool) (v : Word) : List Out := outTo ds k { Flag.none with poison := poison } v
      let bytes (i : Nat) : List Byte := gotBytes j i
      let poison := j.got.any fun g => g.2.2
      let sends (l : List Out) (d : Option Payload) : Prop := completeJob s p j = answer s j.firing j.tag (srcPort p) l d
      let rows := (o.imm.extractLsb' 18 7).toNat + 1
      let epr := (o.imm.extractLsb' 6 12).toNat + 1
      (∀ i c, j.fail = some (i, c) → sends (outTo ds .error Flag.none
        (errorPayload (getRegion s j.firing.region) j.firing.cluster j.firing.slot i c)) none) ∧
      (j.fail = none →
        (jobOpc j = 0x00 → o.imm.getLsbD 25 = false →
          sends (toks .scalar poison (narrow o.fmt (leNat (bytes 0)))) none) ∧
        (jobOpc j = 0x00 → o.imm.getLsbD 25 = true →
          let t := tileOfRows o.fmt epr ((List.range rows).map bytes)
          sends (toks .tile poison (tileWord t)) (some (payloadOf t poison))) ∧
        (jobOpc j = 0x01 → sends (toks .done false (BitVec.ofNat 64 j.bytes)) none) ∧
        (jobOpc j = 0x02 →
          let h := handleOf (tokAt j.firing 1).payload
          let t : Tile := { fmt := o.fmt, epr := h.epr, scales := [], elems := (List.range h.rows).map fun i =>
            (((List.range (h.rows * h.epr)).map fun k => leNat (bytes k)).drop (i * h.epr)).take h.epr }
          sends (toks .tile poison (tileWord t)) (some (payloadOf t poison))) ∧
        (jobOpc j = 0x04 →
          let c := compressTile 4 2 true (tileOfRows o.fmt epr ((List.range rows).map bytes))
          let part (s : State) (n : Nat) (t : Tile) : State := answer s j.firing j.tag (srcPort p)
            (outTo (ds.filter fun d => d.1 == n) .tile { Flag.none with poison := poison } (tileWord t)) (some (payloadOf t poison))
          completeJob s p j = part (part s 0 c.1) 1 c.2) ∧
        (jobOpc j = 0x06 → o.imm.getLsbD 25 = true → sends (toks .done false 0) none) ∧
        (jobOpc j = 0x06 → o.imm.getLsbD 25 = false → sends (toks .scalar poison (narrow o.fmt (leNat (bytes 0)))) none) ∧
        (jobOpc j = 0x03 → sends (toks .done false (BitVec.ofNat 64 j.count)) none) ∧
        (jobOpc j = 0x05 → sends (toks .done false (BitVec.ofNat 64 j.bytes)) none) ∧
        (jobOpc j = 0x07 → sends (toks .done false 0) none) ∧
        (jobOpc j = 0x08 → sends (toks .done false (BitVec.ofNat 64 j.bytes)) none))) ∧
  -- Read Ahead Fills Its Buffer
  (∀ (s : State) (p : Nat),
      let q := getPort s p
      let v := max q.demand q.aheadTo / 32 * 32
      (∀ b l a, q.range = some (b, l) → q.mode = 1 → b.toNat ≤ v → v + 32 ≤ b.toNat + l.toNat → v < q.demand + 65536 →
        translate s q.xlate q.asid v 32 false = .parts [(a, 32)] →
        exec (.readAhead p) s = .next (setPort s p { q with
          ahead := lastGranules (q.ahead.filter (fun x => x.1 != a) ++ [aheadOf s a]), aheadTo := v + 32 }) ∧
        (aheadOf s a).1 = a ∧ (aheadOf s a).2.1 = Mem.read s.mem a 32) ∧
      (q.range = none ∨ q.mode ≠ 1 → exec (.readAhead p) s = .next s))

/-! ### Banks (10) -/

/-- R326, R327, R329, R330: each class-5 operator asks the bank for the elements the spec lists; those with an
irrevocable effect, and no SAFE bit, set their strand's bit first; an operand of the wrong kind is TYPE_MISMATCH, and
poison on a port whose value is used purges the strand. -/
def Obligations.BankOperatorsRequestTheirElements : Prop :=
  ∀ (s : State) (o : Op), Performs s o.xfm →
    let u := s.coloured o.xfm
    let f := s.firing
    let t (i : Nat) : Tok := tokAt f i
    let a : Int := (t 0).payload.toNat + 8 * ((o.imm.extractLsb' 22 12).toNat : Int)
    let n := match o.fmt with | .raw => 8 | g => fmtBits g / 8
    let reads (ix : Nat) (a : Int) (n : Nat) : Elem := { ix := ix, addr := a, size := n, write := none, poison := false }
    let writes (ix : Nat) (a : Int) (bs : List Byte) (p : Bool) : Elem :=
      { ix := ix, addr := a, size := bs.length, write := some bs, poison := p }
    let tile := o.imm.getLsbD 21
    let rows := (o.imm.extractLsb' 14 7).toNat + 1
    let row := rowBytes o.fmt ((o.imm.extractLsb' 2 12).toNat + 1)
    let word : List Elem := [reads 0 a n]
    let onWords : List ((Op → Instr) × Bool × List Nat) :=
      [(.bankAtom, true, [0, 1]), (.acas, true, [0, 1, 2]), (.red, !o.imm.getLsbD 16, [0, 1]), (.rflush, false, [0]),
       (.fget, false, [0]), (.fput, true, [0]), (.fclr, !o.imm.getLsbD 20, [0]), (.qinit, true, [0, 1]), (.qpush, true, [0]),
       (.qpop, true, [0]), (.wait, false, [0, 1]), (.wake, false, [0, 1]), (.bcall, true, [0, 1, 2])]
    (∀ e ∈ onWords,
      ((∃ x ∈ f.toks, isScalar x = false) → EmitsError (e.1 o) s o eTYPE_MISMATCH 0) ∧
      ((∀ x ∈ f.toks, isScalar x = true) →
        ((∃ i ∈ e.2.2, (t i).flag.poison = true) → exec (e.1 o) s = .next (requestPurge s f.region f.tag)) ∧
        ((∀ i ∈ e.2.2, (t i).flag.poison = false) → RequestsBank (e.1 o) s o e.2.1 u word))) ∧
    (isScalar (t 0) = false → EmitsError (.bld o) s o eTYPE_MISMATCH 0) ∧
    (isScalar (t 0) = true → (t 0).flag.poison = true → exec (.bld o) s = .next (requestPurge s f.region f.tag)) ∧
    (isScalar (t 0) = true → (t 0).flag.poison = false →
      RequestsBank (.bld o) s o false u (if tile then (List.range rows).map fun i => reads i (a + i * row) row else word) ∧
      (tile = false → isScalar (t 1) = true → RequestsBank (.bst o) s o (!o.imm.getLsbD 20) u
        [writes 0 a (leBytes n (t 1).payload.toNat) (t 1).flag.poison]) ∧
      ((t 1).kind = .tile → checkTile u f.cluster (t 1).payload (some [o.fmt]) = none →
        ∀ v x bad, readTile u f.cluster (t 1).payload = (v, x, bad) →
          (tile = true → RequestsBank (.bst o) s o (!o.imm.getLsbD 20) v ((List.range x.rows).map fun i =>
            writes i (a + i * (x.rowBytes i).length) (x.rowBytes i) (bad || (t 1).flag.poison))) ∧
          (bad = false → (t 1).flag.poison = false → RequestsBank (.bupd o) s o (!o.imm.getLsbD 16) v
            ((x.elems.flatten.zip (List.range (x.rows * x.epr))).map fun e => writes e.2 (a + e.2 * n) (leBytes n e.1) false))))

/-- R324, R326, R330, R335: a bank accepts the oldest request of its next source and performs an element of BLD, BST or
BUPD before it goes on to the next element's bank; the word of any other operator must be a multiple of its size; BLD
answers what it read, BST and BUPD what they wrote, each with its lowest failing element and the flags of the elements
performed. R320, R331, R332, R347: ATOM puts the operation's result in its plain word and answers the old value with the
flags it raised; ACAS stores its third operand where the second meets the word and answers the old value, and on DST1
whether it did; a word of another mode is TYPE_MISMATCH and a poisoned one POISON. R331: the functions of a bank's
atomics on integers. R333, R334: RED joins the entry of its word, function, format and rounding, or opens one; an entry
is applied as one operation when it has 16 contributions, when 64 ticks have passed, or by RFLUSH, and then its firings
send done tokens. -/
def Obligations.BanksPerformTheirRequests : Prop :=
  -- Banks Accept And Perform
  ((∀ (s : State) (b : Nat), nextRequest s b = none → exec (.bankRequestAccept b) s = .next s) ∧
    (∀ (s : State) (b i : Nat) (q : BankReq), nextRequest s b = some i → (getBank s b).input[i]? = some q →
      let k := getBank s b
      let u := setBank s b { k with input := removeAt k.input i, lastSrc := q.src }
      let ends (v : State) : Prop := exec (.bankRequestAccept b) s = .next v
      (q.elems = [] → ends (completeReq u q)) ∧
      ∀ (e : Elem) (rest : List Elem), q.elems = e :: rest →
        let fails (c : BitVec 8) : Option (Nat × BitVec 8) := match q.fail with | none => some (e.ix, c) | some x => some x
        (∀ a, locate u (getRegion u q.firing.region) e.addr e.size = .bank a →
          let n := bankWordSize (reqOp q).fmt
          (reqOpc q ≠ 0x00 → reqOpc q ≠ 0x01 → reqOpc q ≠ 0x06 →
            (a % n ≠ 0 → ends (reqError u q eBOUNDS 0)) ∧ (a % n = 0 → ends (bankPerform u b q a))) ∧
          (reqOpc q = 0x00 ∨ reqOpc q = 0x01 →
            (∀ v bs p, bankElem u e ((reqOp q).imm.getLsbD 21) a = .read v bs p → ends (submit v
              { q with elems := rest, got := q.got ++ [(e.ix, bs, p)], count := q.count + 1, bytes := q.bytes + e.size })) ∧
            (∀ v, bankElem u e ((reqOp q).imm.getLsbD 21) a = .wrote v →
              ends (submit v { q with elems := rest, count := q.count + 1, bytes := q.bytes + e.size })) ∧
            (∀ v c, bankElem u e ((reqOp q).imm.getLsbD 21) a = .fail v c → ends (submit u { q with elems := rest, fail := fails c }))) ∧
          (reqOpc q = 0x06 →
            (a % e.size ≠ 0 → ends (submit u { q with elems := rest, fail := fails eBOUNDS })) ∧
            (a % e.size = 0 → ∀ c, plainElem u a e.size = .error c → ends (submit u { q with elems := rest, fail := fails c })) ∧
            (a % e.size = 0 → ∀ v old, plainElem u a e.size = .ok (v, old) →
              let o := reqOp q
              let x := bankOp (o.imm.extractLsb' 17 4).toNat o.fmt (rndOf q.firing o) o.sat (rstBits v q.firing e.ix) old
                (leNat (e.write.getD []))
              let hit := (x.2 &&& (getRegion u q.firing.region).fpTrap) != 0
              ends (submit (writeMem v a (leBytes e.size x.1) false).1
                { q with elems := rest, count := q.count + 1, bytes := q.bytes + e.size, flags := q.flags ||| x.2,
                         trapElem := if q.trapElem.isNone && hit then some e.ix else q.trapElem })))) ∧
        (∀ c, locate u (getRegion u q.firing.region) e.addr e.size = .fail c →
          ends (submit u { q with elems := rest, fail := fails c }))) ∧
    ∀ (s : State) (q : BankReq),
      let o := reqOp q
      let ds := destinations s q.firing o
      let poison := q.got.any fun g => g.2.2
      (∀ i c, q.fail = some (i, c) → completeReq s q = reqFlagged s q (outTo ds .error Flag.none
        (errorPayload (getRegion s q.firing.region) q.firing.cluster q.firing.slot i c)) (q.trapElem.getD 0)) ∧
      (q.fail = none →
        (reqOpc q = 0x00 → o.imm.getLsbD 21 = false → completeReq s q = reqValue s q (leNat (reqBytes q 0)) poison) ∧
        (reqOpc q = 0x00 → o.imm.getLsbD 21 = true →
          let t := tileOfRows o.fmt ((o.imm.extractLsb' 2 12).toNat + 1)
            ((List.range ((o.imm.extractLsb' 14 7).toNat + 1)).map (reqBytes q))
          completeReq s q = reqSend s q (outTo ds .tile { Flag.none with poison := poison } (tileWord t)) (some (payloadOf t poison))) ∧
        (reqOpc q = 0x01 → completeReq s q = reqDone s q q.bytes) ∧
        (reqOpc q = 0x06 → completeReq s q =
          reqFlagged s q (outTo ds .done Flag.none (BitVec.ofNat 64 q.count)) (q.trapElem.getD 0)))) ∧
  -- Bank Atomics Replace Their Word
  (∀ (s : State) (b : Nat) (q : BankReq) (a : Nat),
      let o := reqOp q
      let f := q.firing
      let n := bankWordSize o.fmt
      a % n = 0 → (reqOpc q = 0x02 ∨ reqOpc q = 0x03) →
      (wordMode s a ≠ .plain → bankPerform s b q a = reqError s q eTYPE_MISMATCH 0) ∧
      ∀ u bs bad, wordMode s a = .plain → readMem s a n = (u, bs, bad) →
        let old := leNat bs
        let put (v : Nat) : State := (writeMem u a (leBytes n v) false).1
        (bad = true → bankPerform s b q a = reqError s q ePOISON 0) ∧
        (bad = false → reqOpc q = 0x02 →
          let v := bankOp (o.imm.extractLsb' 17 4).toNat o.fmt (rndOf f o) o.sat (rstBits u f 0) old (bankOperand f o 1 16)
          bankPerform s b q a = reqFlagged (put v.1) { q with flags := v.2 }
            (outTo (destinations u f o) .scalar Flag.none (narrow o.fmt old)) 0) ∧
        (bad = false → reqOpc q = 0x03 →
          let hit : Bool := old == (tokAt f 1).payload.toNat % 2 ^ fmtBits o.fmt
          let w := if hit then put (tokAt f 2).payload.toNat else u
          bankPerform s b q a = reqSend w q ((destinations w f o).flatMap fun d =>
            outTo [d] .scalar Flag.none (if d.1 = 1 then (if hit then 1 else 0) else narrow o.fmt old)) none)) ∧
  -- Bank Atomic Functions
  (∀ (f : Fmt) (rnd : Rnd) (sat : Bool) (rb : Nat), f ∈ [.i32, .i64, .n32, .n64] →
      let w := fmtBits f
      ∀ x y : BitVec w,
      let num (x : BitVec w) : Int := if f.isSigned then x.toInt else x.toNat
      let lo : Int := if f.isSigned then -2 ^ (w - 1) else 0
      let hi : Int := if f.isSigned then 2 ^ (w - 1) - 1 else 2 ^ w - 1
      let op (fn : Nat) : Nat × Flags := bankOp fn f rnd sat rb x.toNat y.toNat
      op 0 = (y.toNat, 0) ∧ op 2 = ((x &&& y).toNat, 0) ∧ op 3 = ((x ||| y).toNat, 0) ∧ op 4 = ((x ^^^ y).toNat, 0) ∧
      op 5 = (if num x ≤ num y then x.toNat else y.toNat, 0) ∧ op 6 = (if num x ≤ num y then y.toNat else x.toNat, 0) ∧
      (let r := num x + num y
       op 1 = ((BitVec.ofInt w (if sat then max lo (min hi r) else r)).toNat, if sat ∧ (r < lo ∨ hi < r) then fSAT else 0))) ∧
  -- Combining Entries Apply Once
  (∀ (s : State) (b : Nat) (q : BankReq) (a : Nat),
      let o := reqOp q
      let fn := (o.imm.extractLsb' 17 4).toNat
      let v := bankOperand q.firing o 1 16
      let k := getBank s b
      let mine (e : Combine) : Bool := e.addr == a && e.fn == fn && e.fmt == o.fmt && e.rnd == o.rnd
      (reqOpc q = 0x04 → a % bankWordSize o.fmt = 0 →
        (∀ c, plainElem s a (bankWordSize o.fmt) = .error c → bankPerform s b q a = reqError s q c 0) ∧
        ∀ u old, plainElem s a (bankWordSize o.fmt) = .ok (u, old) →
          let k := getBank u b
          let fresh : Combine := { addr := a, fn := fn, fmt := o.fmt, rnd := o.rnd, value := v, parts := [q], opened := u.htime }
          (k.combine.any mine = false → k.combine.length < 16 →
            bankPerform s b q a = setBank u b { k with combine := k.combine ++ [fresh] }) ∧
          (k.combine.any mine = false → 16 ≤ k.combine.length → bankPerform s b q a = applyEntry u fresh) ∧
          (k.combine.any mine = true → bankPerform s b q a = applyWhere
            (setBank u b { k with combine := k.combine.map fun e => if mine e then
              { e with value := (bankOp fn o.fmt o.rnd false 0 e.value v).1, parts := e.parts ++ [q] } else e })
            b fun e => decide (16 ≤ e.parts.length))) ∧
      (reqOpc q = 0x05 → a % bankWordSize o.fmt = 0 →
        ((readMem s (a / 8 * 8) 8).2.2 = false →
          bankPerform s b q a = reqDone (k.combine.foldl applyEntry (setBank s b { k with combine := [] })) q k.combine.length) ∧
        ((readMem s (a / 8 * 8) 8).2.2 = true → bankPerform s b q a = reqError s q ePOISON 0)) ∧
      (∀ i e, k.combine[i]? = some e →
        (16 ≤ e.parts.length ∨ e.opened + 64 ≤ s.htime → exec (.combiningEntryApply b i) s = .next (applyWhere s b fun x => x == e)) ∧
        (e.parts.length < 16 → s.htime < e.opened + 64 → exec (.combiningEntryApply b i) s = .next s)) ∧
      (∀ e c, plainElem s e.addr (bankWordSize e.fmt) = .error c →
        applyEntry s e = e.parts.foldl (fun s q => reqError s q c 0) s) ∧
      (∀ e u old, plainElem s e.addr (bankWordSize e.fmt) = .ok (u, old) →
        applyEntry s e = e.parts.foldl (fun s q => reqDone s q 0)
          (putElem u e.addr (bankWordSize e.fmt) (bankOp e.fn e.fmt e.rnd false 0 old e.value).1)))

/-- R336: a full future answers its value and an empty one parks the reader; FPUT fills an empty one and serves its
waiting readers, and is FUTURE_REWRITE on a full one, which TRAP raises toward the owner; FCLR empties it, or makes its
word plain, and FCLR.PLAIN of a word with parked firings in its list is BOUNDS. R321, R337, R338: QINIT makes an empty
queue of its capacity; QPUSH gives its value to the oldest waiting popper, or puts it at the tail, or parks when the
queue is full; QPOP takes the oldest item and admits a waiting pusher, or parks when the queue is empty; a word that is
no header is TYPE_MISMATCH. R339 to R341, R344: WAIT answers at once where its condition holds over the element, else it
parks; WAKE returns the first n parked WAITs of its word, or all for 0, with reason 1; a limit that expires ends a
firing with QUEUE_TIMEOUT under ERR, and else raises QUEUE_WAIT once; a refused request comes back after its backoff. -/
def Obligations.BankWordsParkAndServe : Prop :=
  -- Futures Fill Once
  (∀ (s : State) (b : Nat) (q : BankReq) (a : Nat), a % bankWordSize (reqOp q).fmt = 0 →
      let f := q.firing
      let v := (narrow (reqOp q).fmt (tokAt f 1).payload.toNat).toNat
      let poison := (tokAt f 1).flag.poison
      let bit := (reqOp q).imm.getLsbD 21
      let m := wordMode s a
      let gives (t : State) : Prop := bankPerform s b q a = t
      ∀ u old bad, bankWhole s a = (u, old, bad) →
      (reqOpc q = 0x08 → (m = .future true → gives (reqValue u q old bad)) ∧ (m = .future false → gives (park s b q a .reader 0)) ∧
        ((∀ x, m ≠ .future x) → gives (reqError s q eTYPE_MISMATCH 0))) ∧
      (reqOpc q = 0x09 →
        ((∀ x, m ≠ .future x) → gives (reqError s q eTYPE_MISMATCH 0)) ∧
        (∀ x, m = .future x → bad = true → gives (reqError u q ePOISON 0)) ∧
        (m = .future false → bad = false →
          let w := serveReaders (setWordMode (putWhole u a v poison) a (.future true)) a v poison
          gives (reqDone w.1 q w.2)) ∧
        (m = .future true → bad = false →
          (bit = false → gives (reqError u q eFUTURE_REWRITE 0)) ∧
          (bit = true → gives (reqError (raiseCause u f.region aFUTURE_REWRITE f.cluster f.slot (tagBits f.tag .scalar Flag.none)
            (leBytes 8 (bankTarget f (reqOp q)).toNat ++ leBytes 8 old ++ leBytes 8 v)) q eFUTURE_REWRITE 0)))) ∧
      (reqOpc q = 0x0A →
        let m := wordMode u a
        let parked := listedAt u a ≠ []
        (bad = true → gives (reqError u q ePOISON 0)) ∧
        (bad = false → bit = false →
          (m = .future true ∨ m = .plain → gives (reqDone (setWordMode (putWhole u a 0 false) a (.future false)) q 0)) ∧
          (m = .future false → gives (reqDone u q 0)) ∧
          (m = .header ∨ m = .slot → gives (reqError u q eTYPE_MISMATCH 0))) ∧
        (bad = false → bit = true →
          (m = .future true → gives (reqDone (setWordMode u a .plain) q 0)) ∧ (m = .plain → gives (reqDone u q 0)) ∧
          (m = .slot → gives (reqError u q eTYPE_MISMATCH 0)) ∧
          (m = .future false ∨ m = .header → parked → gives (reqError u q eBOUNDS 0)) ∧
          (m = .future false → ¬ parked → gives (reqDone (setWordMode (putWhole u a 0 false) a .plain) q 0)) ∧
          (m = .header → ¬ parked → gives (reqDone (clearQueue u a (qheadOf old).cap) q 0))))) ∧
  -- Queues Serve In Order
  (∀ (s : State) (b : Nat) (q : BankReq) (a : Nat), a % bankWordSize (reqOp q).fmt = 0 →
      let f := q.firing
      let v := (narrow (reqOp q).fmt (tokAt f 1).payload.toNat).toNat
      let poison := (tokAt f 1).flag.poison
      let n := (tokAt f 1).payload.toNat
      let future (w : Nat) : Bool := match wordMode s w with | .future _ => true | _ => false
      let taken : Prop := (a / 8 * 8 :: (List.range n).map (slotAddr a)).any future = true ∨
        (wordMode s a = .header ∧ listedAt s a ≠ [])
      (reqOpc q = 0x0C → 1 ≤ n → n ≤ 4095 → wordIndex a + n ≤ 65535 →
        (taken → bankPerform s b q a = reqError s q eBOUNDS 0) ∧
        (¬ taken → (bankWhole s a).2.2 = true → bankPerform s b q a = reqError s q ePOISON 0)) ∧
      (reqOpc q = 0x0C → 1 ≤ n → n ≤ 4095 → wordIndex a + n ≤ 65535 → ¬ taken → (bankWhole s a).2.2 = false →
        bankPerform s b q a = reqDone (setWordMode (putWhole ((List.range n).foldl (fun s i => setWordMode s (slotAddr a i) .slot) s)
          a (QHead.word { cap := n, head := 0, count := 0 }) false) a .header) q 0) ∧
      (reqOpc q = 0x0C → (n < 1 ∨ 4095 < n ∨ 65535 < wordIndex a + n) → bankPerform s b q a = reqError s q eBOUNDS 0) ∧
      ∀ u w bad, bankWhole s a = (u, w, bad) →
      let h := qheadOf w
      (reqOpc q = 0x0D ∨ reqOpc q = 0x0E → wordMode u a ≠ .header → bankPerform s b q a = reqError u q eTYPE_MISMATCH 0) ∧
      (reqOpc q = 0x0D ∨ reqOpc q = 0x0E → wordMode u a = .header → bad = true → bankPerform s b q a = reqError u q ePOISON 0) ∧
      (reqOpc q = 0x0D → wordMode u a = .header → bad = false →
        (∀ p, firstWaiter u a .popper = some p → bankPerform s b q a = reqDone (serveValue u p v poison) q h.count) ∧
        (firstWaiter u a .popper = none → h.count < h.cap →
          bankPerform s b q a = reqDone (putWhole (putWhole u (slotAddr a ((h.head + h.count) % max 1 h.cap)) v poison) a
            (QHead.word { h with count := h.count + 1 }) false) q (h.count + 1)) ∧
        (firstWaiter u a .popper = none → h.cap ≤ h.count → bankPerform s b q a = park u b q a .pusher (BitVec.ofNat 64 v))) ∧
      (reqOpc q = 0x0E → wordMode u a = .header → bad = false →
        (0 < h.count → bankPerform s b q a =
          reqValue (admitPusher (qTake u a h).1 a) q (qTake u a h).2.1 (qTake u a h).2.2) ∧
        (h.count = 0 → bankPerform s b q a = park u b q a .popper 0))) ∧
  -- Waiters Park And Return
  (∀ (s : State) (b : Nat) (q : BankReq) (a : Nat),
      let o := reqOp q
      let f := q.firing
      (a % bankWordSize o.fmt = 0 → reqOpc q = 0x10 → wordMode s a ≠ .plain → bankPerform s b q a = reqError s q eTYPE_MISMATCH 0) ∧
      (a % bankWordSize o.fmt = 0 → reqOpc q = 0x10 → wordMode s a = .plain → ∀ u v bad, waitValue s a o.fmt = (u, v, bad) →
        let operand := bankOperand f o 1 13
        let holds : Prop := (v = operand % 2 ^ (8 * bankWordSize o.fmt)) ↔ o.imm.getLsbD 20 = true
        (holds → bankPerform s b q a = reqSend u q (waitOuts u f v bad 0) none) ∧
        (¬ holds → bankPerform s b q a = park u b q a .wait (BitVec.ofNat 64 operand))) ∧
      (a % bankWordSize o.fmt = 0 → reqOpc q = 0x11 →
        let n := bankOperand f o 1 16 % 2 ^ 64
        let ws := (waitersOf s a).filter fun w => w.kind == .wait && !isStopped s w.firing.region
        let some := if n = 0 then ws else ws.take n
        ((readMem s (a / 8 * 8) 8).2.2 = false →
          bankPerform s b q a = reqDone (some.foldl (fun s w => returnWait s w 1) s) q some.length) ∧
        ((readMem s (a / 8 * 8) 8).2.2 = true → bankPerform s b q a = reqError s q ePOISON 0)) ∧
      (∀ k w, s.waiters[k]? = some w →
        (waiterDue s w = true → w.err = true → exec (.waiterLimitExpiry k) s = .next (bankSend (unpark s w) (bankOf w.word) w.no w.firing w.tag
          (outTo (destinations s w.firing (opWord w.firing.word)) .error Flag.none
            (errorPayload (getRegion s w.firing.region) w.firing.cluster w.firing.slot 0 eQUEUE_TIMEOUT)) none)) ∧
        (waiterDue s w = true → w.err = false →
          exec (.waiterLimitExpiry k) s = .next (queueWait { s with waiters := s.waiters.set k { w with raised := true } } w)) ∧
        (waiterDue s w = false → exec (.waiterLimitExpiry k) s = .next s)) ∧
      (∀ k r c t, s.nacked[k]? = some (r, c, t) →
        (t ≤ s.htime → isStopped s r.firing.region = false →
          exec (.nackRetry (2 * k)) s = .next (submit { s with nacked := removeAt s.nacked k } r)) ∧
        (s.htime < t ∨ isStopped s r.firing.region = true → exec (.nackRetry (2 * k)) s = .next s)))

/-- R342, R343: BCALL runs its routine's micro-ops on its block from g0 its operand, g1 the target word and g2 its
index, and puts every word it stored in the block only when the routine ends; an error leaves the block as it was. A
bank fetches a routine that a waiting BCALL names from another bank, when a forward slot is free there or from its
fourth refusal on (01 R29). -/
def Obligations.BankRoutinesRunWhole : Prop :=
  ∀ (s : State) (b : Nat) (q : BankReq) (a rt : Nat),
    let block := a / 256 * 256
    let w := a / 8 % 32
    let gives (t : State) : Prop := bankPerform s b q a = t
    (a % bankWordSize (reqOp q).fmt = 0 → reqOpc q = 0x12 →
      (∀ c, routineAddr s q a = .error c → gives (reqError s q c 0)) ∧
      (routineAddr s q a = .ok rt →
        let u := fetchRoutine s b rt
        let m (v : Word) (l : List Nat) : Micro := { g := #v[(tokAt q.firing 2).payload, v, BitVec.ofNat 64 w, 0], stored := [], read := l }
        (∀ c, microLoad u block (m 0 []) w = .error c → gives (reqError u q c 0)) ∧
        ∀ code v, ((getBank u b).routines.find? fun e => e.1 == rt) = some (rt, code) → microLoad u block (m 0 []) w = .ok v →
          ∀ m' r, runMicro u block code 16 0 (m v [w]) = (m', r) →
            let u' := correctWords u (m'.read.map fun w => block + 8 * w)
            (∀ x, r = .ok x → gives (reqValue (m'.stored.foldl (fun s e => putWhole s (block + 8 * e.1) e.2.toNat false) u') q x.toNat false)) ∧
            ∀ c, r = .error c → gives (reqError u' q c 0))) ∧
    (∀ (u : State) (m : Micro) (d ga gb : Fin 4) (i : Fin 32) (imm : BitVec 32),
      let op (c : Nat) : Word := BitVec.ofNat 64
        (c * 2 ^ 59 + d.val * 2 ^ 57 + ga.val * 2 ^ 55 + gb.val * 2 ^ 53 + i.val * 2 ^ 48 + imm.toNat)
      let x := m.g[ga]
      let y := m.g[gb]
      let puts (c : Nat) (v : Word) : Prop := microOp u block m (op c) = .go { m with g := m.g.set d v } 0
      let loads (c n : Nat) : Prop :=
        let m1 := m.touch u block n
        (∀ v, microLoad u block m1 n = .ok v → microOp u block m (op c) = .go { m1 with g := m1.g.set d v } 0) ∧
        ∀ e, microLoad u block m1 n = .error e → microOp u block m (op c) = .error m1 e
      let stores (c n : Nat) : Prop :=
        let m1 := m.touch u block n
        (∀ v, microLoad u block m1 n = .ok v →
          microOp u block m (op c) = .go { m1 with stored := (n, x) :: m1.stored.filter fun e => e.1 != n } 0) ∧
        ∀ e, microLoad u block m1 n = .error e → microOp u block m (op c) = .error m1 e
      microOp u block m (op 0) = .done m x ∧ loads 1 i.val ∧ loads 2 (y.toNat % 32) ∧ stores 3 i.val ∧ stores 4 (y.toNat % 32) ∧
      puts 5 (x + y) ∧ puts 6 (x + imm.signExtend 64) ∧ puts 7 (x - y) ∧ puts 8 (x &&& y) ∧
      puts 9 (x ||| y) ∧ puts 10 (x ^^^ y) ∧ puts 11 (if x.toInt < y.toInt then 1 else 0) ∧ puts 12 (if x.toNat < y.toNat then 1 else 0) ∧
      puts 15 (imm.signExtend 64) ∧ puts 16 (x <<< (y.toNat % 64)) ∧
      microOp u block m (op 13) = .go m (if x = 0 then imm.toNat % 16 else 0) ∧
      microOp u block m (op 14) = .go m (if x ≠ 0 then imm.toNat % 16 else 0) ∧
      ∀ c, 17 ≤ c → c < 32 → microOp u block m (op c) = .error m eTYPE_MISMATCH) ∧
    (rt < 2 ^ 64 → (routinesWanted s b).contains rt = true →
      let x := fetchState s b rt
      let ends (v : State) : Prop := exec (.routineFetch b (BitVec.ofNat 64 rt)) s = .next v
      (s.htime < x.2 → ends s) ∧
      (x.2 ≤ s.htime → 4 ≤ x.1 ∨ Config.forwardFree s.steps = true →
        ends (setBank (fetchRoutine s b rt) b { getBank (fetchRoutine s b rt) b with fetch := none })) ∧
      (x.2 ≤ s.htime → x.1 < 4 → Config.forwardFree s.steps = false →
        ends (setBank s b { getBank s b with fetch := some (rt, x.1 + 1, s.htime + 64 * 2 ^ min (x.1 + 1) 6) })))

/-! ### Plumb (11) -/

/-- R350, R353, R354, R361, R372: a class-6 operator on a valid handle enters Plumb toward its crew's root in the entry
tick of its cluster, or first asks its home cluster for its member index; irrevocable ones set their strand's bit, and
one whose bit is refused ends; one whose root's buffer is full stays matched (R355). A handle that is not valid is
BOUNDS, an operand of the wrong kind TYPE_MISMATCH, and poison on a port whose value is used purges the strand. R354,
R356, R366: the home cluster answers a member's lookup and its arrival enters Plumb, once its root has room; a strand
that is no member, or a handle that is not valid any more, gets BOUNDS; in a stopped region the lookup stays. A
contribution goes to the round that its replay owes it to, or enters for its oldest round whose notice has landed, or
waits for one. R351, R353 to R357, R382: the root takes the due signal that goes first. CREW.NEW takes a free crew and
answers its handle; CREW.JOIN gives a new member the lowest free index, a member its own, and CREW.LEAVE takes one away;
the answers reach the cluster after the crew's latency, unless a purge has removed the firing. A signal whose handle is
no longer valid is BOUNDS, and an arrival, a broadcast's value or an opening that its crew cannot take yet is held. -/
def Obligations.CrewsAndRoots : Prop :=
  -- Plumb Operators Enter
  (∀ (s : State) (o : Op), Performs s o.xfm →
      let u := s.coloured o.xfm
      let f := s.firing
      let t (i : Nat) : Tok := tokAt f i
      let p := u.plumb
      let enters (i : Instr) (shake : Bool) (crew : Nat) (pkg : Bool) (ask : Ask) : Prop :=
        (shake = true → handshake u f.region f.tag = none → exec i s = .next u) ∧
        ∀ v, (if shake then handshake u f.region f.tag else some u) = some v →
          let e := entryTick v f.cluster
          exec i s = .next { v with plumb := { v.plumb with ups := v.plumb.ups ++
            [{ crew := crew, at_ := e + (if pkg then 48 else 24), entry := e, firing := f, ask := ask, held := false,
               data := none, gone := false }] } }
      let purges (i : Instr) : Prop := exec i s = .next (requestPurge s f.region f.tag)
      let two := f.toks.length == 2
      let opens := o.imm.getLsbD 33
      let forms : List (Instr × List Nat × List Nat) :=
        [(.pbar o, [0], [0]), (.pbcast o, [0, 1], [0]), (.predOpen o, if two then [0, 1] else [0], if two then [0, 1] else [0]),
         (.predPut o, [0, 1], [0]), (.crewJoin o, [0], [0]), (.crewLeave o, [0], [0]), (.crewFree o, [0], [0])] ++
        (if opens then [(.tred o, [0, 1], [0, 1])] else [])
      let tileError : Option (BitVec 8) := firstError [if isScalar (t 0) then none else some eTYPE_MISMATCH,
        if (t 1).kind = .tile then checkTile u f.cluster (t 1).payload none else some eTYPE_MISMATCH]
      (∀ x ∈ forms,
        ((∃ k ∈ x.2.1, isScalar (t k) = false) → EmitsError x.1 s o eTYPE_MISMATCH 0) ∧
        ((∀ k ∈ x.2.1, isScalar (t k) = true) →
          ((∃ k ∈ x.2.2, (t k).flag.poison = true) → purges x.1) ∧
          ((∀ k ∈ x.2.2, (t k).flag.poison = false) →
            (crewPort u f = none → EmitsError x.1 s o eBOUNDS 0) ∧
            ∀ n, crewPort u f = some n →
              let c := getCrew u n
              let full : Prop := 4096 ≤ heldAt u c.pkg c.die
              let goes (i : Instr) (shake : Bool) (ask : Ask) : Prop :=
                x.1 = i → (full → exec i s = .next (requeue s f)) ∧ (¬ full → enters i shake n c.pkg ask)
              let looks (i : Instr) : Prop := x.1 = i → exec i s = .next { u with plumb := { p with lookups := p.lookups ++ [f] } }
              looks (.pbar o) ∧ looks (.predPut o) ∧ (o.imm.getLsbD 0 = false → looks (.pbcast o)) ∧
              (o.imm.getLsbD 0 = true → goes (.pbcast o) true .send) ∧
              goes (.crewJoin o) false .join ∧ goes (.crewLeave o) false (.leave f.tag) ∧ goes (.crewFree o) true .free ∧
              goes (.predOpen o) true (.open o.fmt
                (if two then ((t 1).payload.extractLsb' 0 32).toNat else (o.imm.extractLsb' 0 32).toNat)) ∧
              let sh := tredShape f
              let fits := shapeFits o.fmt sh.1 sh.2 = true ∧ sh.1 * pitchFor o.fmt sh.2 ≤ 32
              (¬ fits → x.1 = .tred o → EmitsError (.tred o) s o eBOUNDS 0) ∧
              (fits → goes (.tred o) true (.open o.fmt (o.imm.extractLsb' 0 32).toNat))))) ∧
      (opens = false →
        (∀ e, tileError = some e → EmitsError (.tred o) s o e 0) ∧
        (tileError = none → (t 0).flag.poison = true → purges (.tred o)) ∧
        (tileError = none → (t 0).flag.poison = false →
          (crewPort u f = none → EmitsError (.tred o) s o eBOUNDS 0) ∧
          ((crewPort u f).isSome = true → exec (.tred o) s = .next { u with plumb := { p with lookups := p.lookups ++ [f] } }))) ∧
      (isScalar (t 0) = false → EmitsError (.crewNew o) s o eTYPE_MISMATCH 0) ∧
      (isScalar (t 0) = true → (t 0).flag.poison = true → purges (.crewNew o)) ∧
      (isScalar (t 0) = true → (t 0).flag.poison = false →
        let q := (t 0).payload.toNat
        let pkg := o.imm.getLsbD 0
        let full : Prop := 4096 ≤ heldAt u pkg (f.cluster / 512)
        (65536 < q → EmitsError (.crewNew o) s o eBOUNDS 0) ∧
        (q ≤ 65536 → full → exec (.crewNew o) s = .next (requeue s f)) ∧
        (q ≤ 65536 → ¬ full → enters (.crewNew o) true 256 pkg (.new pkg q)))) ∧
  -- Lookups Answer Their Member Index
  (∀ (s : State) (k : Nat) (f : Firing), s.plumb.lookups[k]? = some f →
      let u := { s with plumb := { s.plumb with lookups := removeAt s.plumb.lookups k } }
      let i := Instr.memberIndexLookup k
      (isStopped s f.region = true → exec i s = .next s) ∧
      (isStopped s f.region = false → crewPort s f = none → exec i s = .next (plumbError u f eBOUNDS)) ∧
      (isStopped s f.region = false → ∀ n, crewPort s f = some n →
        let c := getCrew s n
        let full : Prop := 4096 ≤ heldAt s c.pkg c.die
        (memberOf c f.tag = none → exec i s = .next (plumbError u f eBOUNDS)) ∧
        ∀ m, memberOf c f.tag = some m →
          (isPut f = false → full → exec i s = .next s) ∧
          (isPut f = false → ¬ full → exec i s = .next (enter u f n c.pkg (.arrive m.index) none)) ∧
          (isPut f = true →
            (∀ r, absorbs c m.index Round.isReduction = some r → exec i s = .next (absorb u n r f m.index)) ∧
            (absorbs c m.index Round.isReduction = none →
              (∀ r, roundFor u n m.index = some r → ¬ full → exec i s = .next (enterPut u f n m.index r)) ∧
              (roundFor u n m.index = none ∨ full →
                exec i s = .next { u with plumb := { u.plumb with puts := u.plumb.puts ++ [(f, n, m.index)] } }))))) ∧
  -- Roots Keep Their Crews
  (∀ (s : State) (k : Nat) (u : Up), s.plumb.ups[k]? = some u →
      let i := Instr.rootSignalTake k
      (nextUp s ≠ some k ∨ upLate s u = true → exec i s = .next s) ∧
      (nextUp s = some k → upLate s u = false →
        let v := { s with plumb := { s.plumb with ups := removeAt s.plumb.ups k } }
        let c := getCrew v u.crew
        let f := u.firing
        let later := s.htime + (if c.pkg then 48 else 24)
        let ends (w : State) : Prop := exec i s = .next (settleCrew w u.crew)
        let fails (t : Nat) : Prop := ends (reply v u t (.error f eBOUNDS))
        let takes (x : Option State) : Prop := (∀ w, x = some w → ends w) ∧
          (x = none → exec i s = .next { v with plumb := { v.plumb with ups := v.plumb.ups ++ [{ u with held := true }] } })
        (upValid v u = false → (∀ t, u.ask ≠ .drop t) → fails later) ∧
        (∀ t, upValid v u = false → u.ask = .drop t → ends v) ∧
        (upValid v u = true →
          (∀ pkg q, u.ask = .new pkg q →
            let t := s.htime + if pkg then 48 else 24
            ((List.range 256).find? (fun n => !(getCrew v n).used) = none → fails t) ∧
            ∀ n, (List.range 256).find? (fun n => !(getCrew v n).used) = some n →
              let d : Crew := { Crew.reset with used := true, region := f.region, pkg := pkg, die := f.cluster / 512, gen := (getCrew v n).gen, quorum := q }
              ends (replyAll (setCrew v n d) u t (valueTok .scalar (crewHandle n d).toNat))) ∧
          (u.ask = .join → u.gone = true → ends v) ∧
          (u.ask = .join → u.gone = false →
            let joined (w : State) (n : Nat) : State := land w later (.emit f (tokAt f 0) (valueTok .scalar n))
            (∀ m, memberOf c f.tag = some m → ends (joined v m.index)) ∧
            (memberOf c f.tag = none →
              (lowestIndex c = none ∨ 1024 ≤ recordsAt v f.region f.tag.ctx → ends (land v later (.error f eBOUNDS))) ∧
              ∀ n, lowestIndex c = some n → recordsAt v f.region f.tag.ctx < 1024 →
                let key := ((liveColour (getRegion v f.region) f.tag).map Colour.key).getD f.tag.col
                let m : Member := { index := n, tag := f.tag, key := key, owed := [] }
                ends (joined (setCrew v u.crew { c with joins := c.joins + 1, members := c.members ++ [m] }) n))) ∧
          (∀ tag, u.ask = .leave tag →
            (memberOf c tag = none → fails later) ∧
            ∀ m, memberOf c tag = some m →
              ends (replyAll (decide_ (dropMember v u.crew m.index) u.crew) u later (valueTok .scalar m.index))) ∧
          (∀ tag, u.ask = .drop tag →
            (memberOf c tag = none → ends v) ∧
            ∀ m, memberOf c tag = some m → ends (decide_ (dropMember v u.crew m.index) u.crew)) ∧
          (u.ask = .free → ends (takeFree v u)) ∧
          (u.ask = .send → takes (takeSend v u u.entry)) ∧
          (∀ g d, u.ask = .open g d → takes (takeOpen v u d)) ∧
          (∀ m, u.ask = .arrive m → takes (takeArrive v u m u.entry)) ∧
          (∀ m no, u.ask = .put m no → (∀ w, takePut v u m no = some w → ends w) ∧ (takePut v u m no = none → exec i s = .next s)))))

/-- R355, R362, R363: an arrival or a broadcast's value opens its crew's round or joins the open one, and is held where
it can do neither; the last arrival sends the round to its release one trip up and one down after the latest entry; on
that tick every firing of the round emits, a broadcast's receivers the sender's value. R354, R355, R365, R366: an
opening that its crew and its root's leaf store can take opens a reduction whose deadline is D ticks on, and a notice
goes down; a contribution that is on time joins its round's leaves, unless the round is of another format, its member
has left, or the round is gone; a notice that lands lets the waiting contributions enter. R365 to R370: at its deadline,
once the root has taken what reached it in that tick, a reduction forms its result over the contributions that are there
and sends it out; a later contribution is kept and sent as a correction; one tick after the last the final value goes
out; what lands emits at the firings it is for, unless their region is stopped. R367: a reduction's result at one of its
firings: the value on DST0, the status word on DST1, and the bitmap of the members on time on the route entries; only
the opening raises the flags. -/
def Obligations.RoundsReduceAndRelease : Prop :=
  -- Rounds Release Together
  (∀ (s : State) (n : Nat),
      let c := getCrew s n
      (∀ (u : Up) (m entry : Nat), u.crew = n →
        let k := arrivalKind u.firing
        let joins (w : Crew) (no : Nat) : Prop := takeArrive s u m entry = some (decide_ (setCrew s n (w.owe u m no)) n)
        let holds : Prop := takeArrive s u m entry = none
        (∀ r, absorbs c m (fun r => r.kind == k) = some r → u.gone = false → takeArrive s u m entry = some (absorb s n r u.firing m)) ∧
        (absorbs c m (fun r => r.kind == k) = none →
          (c.knows u m = false → holds) ∧
          (c.knows u m = true →
            (c.open_ = none → c.quorum ≤ c.joins → m ∈ c.members.map Member.index →
              joins (c.openRound ((freshRound c k entry).arrive u m entry)) c.nextRound) ∧
            (c.open_ = none → (c.joins < c.quorum ∨ m ∉ c.members.map Member.index) → holds) ∧
            ∀ r, c.open_ = some r →
              (r.kind = k → m ∈ r.set → m ∉ r.arrived → joins { c with open_ := some (r.arrive u m entry) } r.no) ∧
              (r.kind ≠ k ∨ m ∉ r.set ∨ m ∈ r.arrived → holds)))) ∧
      (∀ (u : Up) (entry : Nat), u.crew = n →
        (∀ r ∈ c.rounds, r.kind = .broadcast → ∀ w ∈ r.waits, w.member = none → w.firing ≠ Firing.none) →
        let put (r : Round) : Round :=
          { r with sent := some (tokAt u.firing 1), latest := max r.latest entry, waits := r.waits ++ u.waiting none false }
        (c.open_ = none → c.quorum ≤ c.joins →
          takeSend s u entry = some (decide_ (setCrew s n (c.openRound (put (freshRound c .broadcast entry)))) n)) ∧
        (c.open_ = none → c.joins < c.quorum → takeSend s u entry = none) ∧
        ∀ r, c.open_ = some r →
          (r.kind = .broadcast → r.sent = none → takeSend s u entry = some (decide_ (setCrew s n { c with open_ := some (put r) }) n)) ∧
          (r.kind ≠ .broadcast ∨ r.sent ≠ none → takeSend s u entry = none)) ∧
      (∀ r, c.open_ = some r → (r.kind = .barrier ∨ r.kind = .broadcast) →
        let met := ∀ m ∈ r.set, m ∈ r.arrived ∨ m ∈ r.gone
        (met → (r.kind = .broadcast → r.sent.isSome = true) → decide_ s n = setCrew s n { c with open_ := none, rounds := c.rounds ++
          [{ r with releaseAt := some (r.latest + 2 * (if c.pkg then 48 else 24)) }] }) ∧
        (¬ met ∨ (r.kind = .broadcast ∧ r.sent = none) → decide_ s n = s)) ∧
      (isStopped s c.region = true → exec (.roundRelease n) s = .next s) ∧
      (∀ r t, c.rounds = [r] → r.releaseAt = some t → t ≤ s.htime → (∀ w ∈ r.waits, w.firing ≠ Firing.none) →
        r.retired = false → isStopped s c.region = false →
        let u := setCrew s n (c.modRound r.no fun r => { r with retired := true, waits := [] })
        let tok (w : Waits) : Tok := match w.member, r.sent with
          | some _, some x => { Tok.none with kind := x.kind, payload := x.payload, flag := { Flag.none with poison := x.flag.poison } }
          | some _, none => if w.firing.toks.length = 2 then tokAt w.firing 1 else tokAt w.firing 0
          | none, _ => tokAt w.firing 1
        exec (.roundRelease n) s = .next (settleCrew (r.waits.foldl (fun v w =>
          plumbEmit v w.firing (passTo (destinations v w.firing (opWord w.firing.word)) (tok w)) 0) u) n)) ∧
      ((∀ r ∈ c.rounds, ∀ t, r.releaseAt = some t → s.htime < t) → exec (.roundRelease n) s = .next s)) ∧
  -- Reductions Collect Their Leaves
  (∀ (s : State) (n : Nat),
      let c := getCrew s n
      let lat := if c.pkg then 48 else 24
      (∀ (u : Up) (d : Nat), u.crew = n →
        (∀ r ∈ c.all, r.isReduction = true → ∀ w ∈ r.waits, w.member = none → w.firing ≠ Firing.none) →
        let o := opWord u.firing.word
        let tile : Bool := u.firing.word.extractLsb' 117 8 == 5
        let w := treeWidth (c.members.map Member.index)
        let waits : Prop := c.open_.isSome = true ∨ c.joins < c.quorum ∨ 4 ≤ c.unretired.length ∨
          (if c.pkg then 524288 else 131072) < leavesUsed s c + w
        (waits → takeOpen s u d = none) ∧
        (¬ waits → tile = true → 64 < w → takeOpen s u d = some (reply s u (s.htime + lat) (.error u.firing eBOUNDS))) ∧
        (¬ waits → tile = false ∨ w ≤ 64 →
          let sh := tredShape u.firing
          let r := { freshRound c (if tile then .tileReduction else .reduction) 0 with
            op := (o.imm.extractLsb' 34 3).toNat, fmt := o.fmt, rnd := o.rnd, sat := o.sat, rows := if tile then sh.1 else 0,
            epr := if tile then sh.2 else 0, cluster := u.firing.cluster, width := w, deadline := s.htime + d,
            waits := u.waiting none false }
          takeOpen s u d = some (land (setCrew s n (c.openRound r)) (s.htime + lat) (.notice n c.nextRound)))) ∧
      (∀ (u : Up) (m no : Nat), u.crew = n →
        let fails (e : BitVec 8) : Prop := takePut s u m no = some (reply s u (s.htime + lat) (.error u.firing e))
        (c.round no = none → fails eBOUNDS) ∧
        ∀ r, c.round no = some r →
          (∀ e, putError r u.firing = some e → fails e) ∧
          (putError r u.firing = none → m ∈ r.gone → fails eBOUNDS) ∧
          (putError r u.firing = none → m ∉ r.gone → r.evaluated = false →
            (storeLeaf s u r m = none → takePut s u m no = none) ∧
            ∀ v l, storeLeaf s u r m = some (v, l) → l.onTime = true ∧ l.member = m ∧
              takePut s u m no = some (modCrew v n fun c => c.modRound no fun r =>
                { r with arrived := r.arrived ++ [m], leaves := r.leaves ++ [l], waits := r.waits ++ u.waiting (some m) false }))) ∧
      ∀ no : Nat,
        let due (d : Landing) : Bool := d.what == .notice n no && decide (d.at_ ≤ s.htime)
        (s.plumb.downs.findIdx? due = none → exec (.reductionNoticeLanding n no) s = .next s) ∧
        ∀ i, s.plumb.downs.findIdx? due = some i →
          let u := { s with plumb := { s.plumb with downs := removeAt s.plumb.downs i } }
          exec (.reductionNoticeLanding n no) s = .next (enterPuts
            (setCrew u n { c with noticed := c.noticed ++ if (c.round no).isSome then [no] else [] }) n)) ∧
  -- Reductions Evaluate At Their Deadline
  (∀ (s : State) (n no : Nat),
      let c := getCrew s n
      let lat := if c.pkg then 48 else 24
      (∀ r, c.open_ = some r → r.isReduction = true → r.no = no →
        (isStopped s c.region = true ∨ s.htime < r.deadline → exec (.deadlineEvaluation n no) s = .next s) ∧
        (isStopped s c.region = false → r.deadline ≤ s.htime → (∀ k ∈ dueUps s, ∀ u, s.plumb.ups[k]? = some u → u.crew ≠ n) →
          let x := roundPacket s r (r.leaves.filter Leaf.onTime) 0
          let r' := { r with evaluated := true, result := x.1, flags := x.2, retired := r.covered || c.freeing }
          exec (.deadlineEvaluation n no) s = .next (settleCrew (land (setCrew s n { c with open_ := none, rounds := c.rounds ++ [r'] })
            (s.htime + lat) (.result n no none)) n))) ∧
      (∀ r t, c.round no = some r → r.finalAt = some t → r.retired = false →
        (s.htime < t → exec (.finalPacket n no) s = .next s) ∧
        (t ≤ s.htime → exec (.finalPacket n no) s = .next (sendPacket
          (setCrew s n (c.modRound no fun r => { r with finalAt := none })) n no (roundPacket s r r.leaves 0xFFFFFFFF).1))) ∧
      (∀ k u m r, s.plumb.ups[k]? = some u → u.crew = n → u.ask = .put m no → nextUp s = some k → upLate s u = true →
        c.round no = some r →
        let v := { s with plumb := { s.plumb with ups := removeAt s.plumb.ups k } }
        let fails (e : BitVec 8) : Prop := exec (.lateContribution k) s = .next (reply v u (s.htime + lat) (.error u.firing e))
        (m ∈ r.gone → fails eBOUNDS) ∧
        (∀ e, m ∉ r.gone → putError r u.firing = some e → fails e) ∧
        (m ∉ r.gone → putError r u.firing = none → ∀ w l, storeLeaf v u r m = some (w, l) →
          l.onTime = false ∧ l.member = m ∧
          let put (r : Round) : Round :=
            let r := { r with arrived := r.arrived ++ [m], leaves := r.leaves ++ [l], waits := r.waits ++ u.waiting (some m) true }
            { r with finalAt := if r.covered then some (s.htime + 1) else r.finalAt }
          exec (.lateContribution k) s = .next (land
            (sendPacket (modCrew w n fun c => c.modRound no put) n no { member := m, value := l.value, poison := l.poison })
            (s.htime + lat) (.result n no (some m))))) ∧
      ∀ (k : Nat) (l : Landing), s.plumb.downs[k]? = some l →
        let i := Instr.resultLanding k
        let u := { s with plumb := { s.plumb with downs := removeAt s.plumb.downs k } }
        (s.htime < l.at_ → exec i s = .next s) ∧
        (l.at_ ≤ s.htime →
          (∀ f t0 t1, l.what = .emit f t0 t1 → exec i s = .next (plumbEmit u f
            ((destinations u f (opWord f.word)).flatMap fun d => passTo [d] (if d.1 = 1 then t1 else t0)) 0)) ∧
          (∀ f code, l.what = .error f code → exec i s = .next (plumbError u f code)) ∧
          (∀ ix p, l.what = .packet n no ix p →
            let v := serveCorrs (keepPacket u n no ix p)
            (p.member ≠ 0xFFFFFFFF → exec i s = .next v) ∧
            (p.member = 0xFFFFFFFF → exec i s = .next (retireRound v n no))) ∧
          (∀ late, l.what = .result n no late →
            (isStopped s c.region = true → exec i s = .next s) ∧
            (isStopped s c.region = false → ∀ r f, c.round no = some r →
              r.waits = [{ firing := f, member := late, late := late.isSome }] → f ≠ Firing.none →
              ∀ v, emitResult s n r { firing := f, member := late, late := late.isSome } = some v →
                let w := setCrew v n ((getCrew v n).modRound no fun r =>
                  { r with waits := r.waits.filter fun x => x != { firing := f, member := late, late := late.isSome } })
                ((getCrew w n).round no = none ∨ ∃ r', (getCrew w n).round no = some r' ∧ r'.waits = []) →
                exec i s = .next (settleCrew { w with plumb := { w.plumb with downs := removeAt w.plumb.downs k } } n))))) ∧
  -- Reduction Results Say Who Was On Time
  (∀ (s : State) (n : Nat) (r : Round) (w : Waits), r.kind = .reduction →
      let c := getCrew s n
      let f := w.firing
      let on := r.leaves.filter Leaf.onTime
      let status := (if on.length = r.set.length then 2 ^ 63 else 0) + (if w.late then 2 ^ 62 else 0) + n * 2 ^ 54 +
        c.gen.toNat * 2 ^ 46 + r.no * 2 ^ 34 + r.set.length * 2 ^ 17 + on.length
      let fl := if w.member = none then r.flags else 0
      let at_ (s : State) (k : Nat) : List (Nat × Dst) := (destinations s f (opWord f.word)).filter fun d => d.1 == k
      let main (s : State) : List Out :=
        outTo (at_ s 0) .scalar { Flag.none with poison := r.result.poison } (BitVec.ofNat 64 r.result.value.toNat) ++
        outTo (at_ s 1) .scalar Flag.none (BitVec.ofNat 64 status)
      let side := (destinations s f (opWord f.word)).filter fun d => decide (2 ≤ d.1)
      (side = [] → emitResult s n r w = some (plumbEmit s f (main s) fl)) ∧
      (side ≠ [] → r.width ≤ 64 → emitResult s n r w = some (plumbEmit s f (main s ++ outTo side .bitmap Flag.none
        (BitVec.ofNat 64 ((on.map Leaf.member).foldl (fun x m => x ||| 2 ^ m) 0))) fl)) ∧
      (side ≠ [] → 64 < r.width → r.width ≤ 4096 →
        let bits := plainTile .b1 1 r.width fun _ j => if (on.map Leaf.member).contains j then 1 else 0
        (putTile s f.region f.cluster f.tag bits false = none → emitResult s n r w = none) ∧
        ∀ v h, putTile s f.region f.cluster f.tag bits false = some (v, h) →
          emitResult s n r w = some (plumbEmit v f (main v ++ outTo side .tile Flag.none h) fl)))

/-- R368: a reduction's value is the tree over the set's leaves in member order; absent leaves drop out, and an empty
tree is the operation's identity. -/
def Obligations.ReductionTreesCombineInOrder : Prop :=
  ∀ (r : Round) (l0 l1 l2 l3 : Leaf) (v : Leaf → Nat),
    let g (a b : Nat) : Nat := (treeOp r.op r.fmt r.rnd r.sat a b).1
    (l0.member = 0 → l1.member = 1 → l2.member = 2 → l3.member = 3 → r.width = 4 →
      (roundValue r [l0, l1, l2, l3] v).1 = g (g (v l0) (v l1)) (g (v l2) (v l3)) ∧
      (roundValue r [l0, l2, l3] v).1 = g (v l0) (g (v l2) (v l3)) ∧ (roundValue r [l1, l2] v).1 = g (v l1) (v l2) ∧
      (roundValue r [l3] v).1 = v l3 ∧ (roundValue r [] v).1 = identityOf r.op r.fmt)

/-- R370, R373: a correction cursor emits the packet its number names, or waits for it; PTIME answers the time at once,
or waits for its tick, at most sixteen at a cluster, and then emits the time, or under DELAY its token; an operand of
the wrong kind is TYPE_MISMATCH and poison whose value is used purges the strand. R370: a correction cursor names a
round by its status word. A word that names no unretired round of a valid crew, or a tile round of another cluster, is
BOUNDS; the k-th packet, once it has landed on the firing's die, is emitted; a packet that a full log has not kept is
BOUNDS, and one still to come is waited for. R375, R377 to R380: PQUIET and PSIG enter Plumb; the parts of a running
region report in every tick, and the root forms the region's state of a tick, once its reports have come, by the order
busy, external, parked, quiet, and counts its parked censuses; PQUIETs take its word; the marker signal opens its
snapshot at every MARK node of its group; a snapshot ends when every marker has landed or at its limit, with its header
and its done token; DEADLOCK and WDOG freeze their region and raise. What member packages of a spanning region report is
left open (log 124). -/
def Obligations.MonitorsReportTheirRegion : Prop :=
  -- Corrections And Time Answer
  (∀ (s : State), (∀ o : Op, Performs s o.xfm →
      let u := s.coloured o.xfm
      let f := s.firing
      let purges (i : Instr) : Prop := exec i s = .next (requestPurge s f.region f.tag)
      let p0 := tokAt f 0
      ((∃ x ∈ f.toks, isScalar x = false) → EmitsError (.pcorr o) s o eTYPE_MISMATCH 0) ∧
      ((∀ x ∈ f.toks, isScalar x = true) →
        (p0.flag.poison = true ∨ (tokAt f 1).flag.poison = true → purges (.pcorr o)) ∧
        (p0.flag.poison = false → (tokAt f 1).flag.poison = false →
          (∀ v, serveCorr u f = some v → exec (.pcorr o) s = .next v) ∧
          (serveCorr u f = none → exec (.pcorr o) s = .next { u with plumb := { u.plumb with pcorrs := u.plumb.pcorrs ++ [f] } }))) ∧
      (isScalar p0 = false → EmitsError (.ptime o) s o eTYPE_MISMATCH 0) ∧
      (isScalar p0 = true →
        let mode := (o.imm.extractLsb' 35 2).toNat
        let k := getCluster u f.cluster
        let now : Prop := Emits (.ptime o) s o u (outTo (destinations u f o) .scalar Flag.none (BitVec.ofNat 64 u.htime)) 0 0
        let waits (t : Nat) : Prop :=
          (k.ptimes.length < 16 → exec (.ptime o) s = .next (setCluster u f.cluster { k with ptimes := k.ptimes ++ [(f, t)] })) ∧
          (16 ≤ k.ptimes.length → exec (.ptime o) s = .next (requeue s f))
        (mode = 0 → now) ∧ (mode = 1 → waits (u.htime + (o.imm.extractLsb' 0 32).toNat)) ∧
        (2 ≤ mode → p0.flag.poison = true → purges (.ptime o)) ∧
        (2 ≤ mode → p0.flag.poison = false → p0.payload.toNat ≤ u.htime → now) ∧
        (2 ≤ mode → p0.flag.poison = false → u.htime < p0.payload.toNat → waits p0.payload.toNat))) ∧
    ∀ (c i : Nat) (g : Firing) (t : Nat), (getCluster s c).ptimes[i]? = some (g, t) →
      let w := setCluster s c { getCluster s c with ptimes := removeAt (getCluster s c).ptimes i }
      let ds := destinations w g (opWord g.word)
      (s.htime < t ∨ isStopped s g.region = true → exec (.ptimeExpiry c i) s = .next s) ∧
      (t ≤ s.htime → isStopped s g.region = false →
        exec (.ptimeExpiry c i) s = .next (plumbEmit w g (if ((opWord g.word).imm.extractLsb' 35 2).toNat = 1 then passTo ds (tokAt g 0)
          else outTo ds .scalar Flag.none (BitVec.ofNat 64 s.htime)) 0))) ∧
  -- Correction Cursors Name Their Packet
  (∀ (s : State) (f : Firing),
      let k := if (opWord f.word).imm.getLsbD 16 then ((opWord f.word).imm.extractLsb' 0 16).toNat else (tokAt f 1).payload.toNat
      let die := f.cluster / 512
      let bounds : Prop := serveCorr s f = some (plumbError s f eBOUNDS)
      (corrRound s f = none → bounds) ∧
      ∀ n r, corrRound s f = some (n, r) →
        let logged := s.plumb.logs.find? fun l => l.die == die && l.crew == n && l.round == r.no && l.ix == k
        (r.kind = .tileReduction → r.cluster ≠ f.cluster → bounds) ∧
        (r.kind ≠ .tileReduction ∨ r.cluster = f.cluster →
          (∀ l, logged = some l → serveCorr s f = some (emitPacket s f r l.packet)) ∧
          (logged = none → r.packets.length ≤ k → serveCorr s f = none) ∧
          (logged = none → k < r.packets.length →
            ((∃ d ∈ s.plumb.downs, ∃ p, d.what = .packet n r.no k p) → serveCorr s f = none) ∧
            ((∀ d ∈ s.plumb.downs, ∀ p, d.what ≠ .packet n r.no k p) → bounds)))) ∧
  -- Monitors Report Their Region
  ((∀ (s : State) (o : Op), Performs s o.xfm →
      let u := s.coloured o.xfm
      let f := s.firing
      let p0 := tokAt f 0
      let r := getRegion u f.region
      let v := p0.payload.toNat
      (isScalar p0 = false → EmitsError (.pquiet o) s o eTYPE_MISMATCH 0 ∧ EmitsError (.psig o) s o eTYPE_MISMATCH 0) ∧
      (isScalar p0 = true →
        exec (.pquiet o) s = .next { u with plumb := { u.plumb with quiets := u.plumb.quiets ++ [(f, entryTick u f.cluster)] } } ∧
        (p0.flag.poison = true → exec (.psig o) s = .next (requestPurge s f.region f.tag)) ∧
        (p0.flag.poison = false →
          (v = 0 ∨ 2 ^ 32 ≤ v ∨ r.snapBase = 0 ∨ r.snapLen = 0 → EmitsError (.psig o) s o eBOUNDS 0) ∧
          (v ≠ 0 → v < 2 ^ 32 → r.snapBase ≠ 0 → r.snapLen ≠ 0 →
            (handshake u f.region f.tag = none → exec (.psig o) s = .next u) ∧
            ∀ w, handshake u f.region f.tag = some w →
              let r := getRegion w f.region
              (r.snapshot.isSome = true ∨ r.signals.any (fun g => isMarker g.2) = true →
                exec (.psig o) s = .next { w with plumb := { w.plumb with psigs := w.plumb.psigs ++ [f] } }) ∧
              (r.snapshot = none → r.signals.any (fun g => isMarker g.2) = false → (∀ g ∈ w.plumb.psigs, g.region ≠ f.region) →
                exec (.psig o) s = .next (setRegion w f.region { r with
                  signals := r.signals ++ [(entryTick w f.cluster + signalDelay r, .marker f)] })))))) ∧
    ∀ (s : State) (rid : Nat),
      let r := getRegion s rid
      let lag := if r.member then 48 else if r.span.isEmpty then signalDelay r / 2 else 2096
      (r.state ≠ .loaded ∨ r.stopped = true ∨ (∃ x ∈ r.reports, x.1 = s.htime) → exec (.censusTick rid) s = .next s) ∧
      (r.state = .loaded → r.stopped = false → (∀ x ∈ r.reports, x.1 ≠ s.htime) →
        let all := r.reports ++ [(s.htime, regionReport s rid)]
        ∀ t x rest, all = (t, x) :: rest →
          (s.htime < t + lag → exec (.censusTick rid) s = .next (setRegion s rid { r with reports := all })) ∧
          (t + lag ≤ s.htime →
            let apart : Bool := !r.span.isEmpty
            let parked := x.parked + if apart then Config.memberParked rid t else 0
            let external := x.external + if apart then Config.memberExternal rid t else 0
            let busy := x.busy || (apart && Config.memberBusy rid t)
            let c : BitVec 2 := if busy then 0 else if 0 < external then 1 else if 0 < parked then 2 else 3
            let word := valueTok .scalar (c.toNat + parked % 2 ^ 32 * 2 ^ 32)
            ∃ u, exec (.censusTick rid) s = .next u ∧ (getRegion u rid).census = c ∧ (getRegion u rid).parked = parked ∧
              (getRegion u rid).censusAt = t ∧ (getRegion u rid).parkTicks = (if c = 2 then satInc r.parkTicks else 0) ∧
              (getRegion u rid).reports = rest ∧
              u = { setRegion s rid (getRegion u rid) with plumb := { s.plumb with quiets := u.plumb.quiets, downs := u.plumb.downs } } ∧
              ∀ f e, s.plumb.quiets = [(f, e)] →
                let takes : Prop := f.region = rid ∧ e ≤ t ∧ quietWaits f = false
                (takes → u.plumb.quiets = [] ∧
                  u.plumb.downs = s.plumb.downs ++ [{ at_ := t + signalDelay r, what := .emit f word word }]) ∧
                (¬ takes → u.plumb.quiets = s.plumb.quiets ∧ u.plumb.downs = s.plumb.downs))) ∧
      (∀ f e, s.plumb.quiets = [(f, e)] → f.region = rid → e ≤ r.censusAt → quietWaits f = true →
        (r.censusAt + lag = s.htime → r.census ≠ 0 → exec (.pquietWaitEmit rid) s = .next
          (answerAt { s with plumb := { s.plumb with quiets := [] } } (r.censusAt + signalDelay r) f
            (valueTok .scalar (r.census.toNat + r.parked % 2 ^ 32 * 2 ^ 32)))) ∧
        (r.censusAt + lag ≠ s.htime ∨ r.census = 0 → exec (.pquietWaitEmit rid) s = .next s)) ∧
      (∀ t f rest, r.signals = (t, .marker f) :: rest →
        (isStopped s rid = true ∨ (s.htime < t ∧ rest = []) → exec (.markerSignalEffect rid) s = .next s) ∧
        (t ≤ s.htime → isStopped s rid = false →
          let p : Snapshot :=
            { group := (opWord f.word).imm.extractLsb' 0 16, epoch := (tokAt f 0).payload, start := s.htime,
              due := s.htime + 2 ^ r.snapLim.toNat, firing := f, used := 0, records := 0, overflow := false, saving := [], done := [] }
          let v := setRegion s rid { r with signals := rest, snapshot := some p }
          exec (.markerSignalEffect rid) s = .next ((regionClusters v { r with signals := rest }).foldl
            (fun u c => (markNodes u c p.group).foldl (fun u i => markNode u rid c p.epoch i) u) v))) ∧
      (isStopped s rid = true → exec (.snapshotComplete rid) s = .next s ∧ exec (.snapshotTimeout rid) s = .next s) ∧
      (isStopped s rid = false → snapshotDone s rid = true →
        exec (.snapshotComplete rid) s = .next (endSnapshot s rid false) ∧ exec (.snapshotTimeout rid) s = .next s) ∧
      (isStopped s rid = false → snapshotDone s rid = false → exec (.snapshotComplete rid) s = .next s ∧
        ∀ p, r.snapshot = some p →
          (p.due ≤ s.htime → exec (.snapshotTimeout rid) s = .next (endSnapshot s rid true)) ∧
          (s.htime < p.due → exec (.snapshotTimeout rid) s = .next s)) ∧
      (∀ p late, r.snapshot = some p →
        let t := endSnapshot s rid late
        let bit (b : Bool) : Nat := if b then 1 else 0
        let done := valueTok .done (p.records + bit p.overflow * 2 ^ 63 + bit late * 2 ^ 62)
        (getRegion t rid).snapshot = none ∧
        t.plumb.downs = s.plumb.downs ++ [{ at_ := s.htime + signalDelay r, what := .emit p.firing done done }] ∧
        t.mem = (writeMem s r.snapBase.toNat (leBytes 4 0x50414E53 ++ leBytes 2 1 ++ leBytes 2 (bit p.overflow + 2 * bit late) ++
          leBytes 4 p.epoch.toNat ++ leBytes 4 p.records ++ leBytes 8 p.start ++ leBytes 8 p.used ++
          leBytes 8 (shapeWord r).toNat ++ leBytes 24 0) false).1.mem) ∧
      (let quiet : Prop := r.state = .loaded ∧ r.stopped = false ∧ r.member = false ∧ r.freezeAt = none ∧ r.censusAt + lag = s.htime
       let locked : Prop := quiet ∧ r.dlCtl = true ∧ r.census = 2 ∧ 65536 ≤ r.parkTicks.toNat
       (¬ locked → exec (.deadlock rid) s = .next s) ∧
       (locked → exec (.deadlock rid) s = .next (raiseRegion (faultFreeze s rid) rid aDEADLOCK
         (leBytes 4 r.parked ++ leBytes 1 2 ++ leBytes 3 0 ++
           ((s.waiters.find? fun w => w.firing.region == rid).map (waitRecord s)).getD (leBytes 32 0)))) ∧
       let silent : Prop := quiet ∧ r.wdEn = true ∧ r.wdSeen = false ∧ r.wdStart + 2 ^ r.wdWin.toNat ≤ s.htime
       (¬ silent → exec (.wdog rid) s = .next s) ∧
       (silent → exec (.wdog rid) s = .next (modRegion (wdogNotice (raiseRegion (faultFreeze s rid) rid aWDOG
         (leBytes 1 r.wdWin.toNat ++ leBytes 1 r.census.toNat ++ leBytes 6 0 ++ leBytes 8 r.lastFire)) rid) rid
         fun x => { x with wdStart := s.htime }))))

/-! ### Links (12) -/

/-- R399, R403 to R409: LPUT, LGET, LATOM and LSEND ask their target for what the spec lists, under their key; an
element whose address wraps is ADDR_RANGE, a scalar that is not aligned BOUNDS, and poison for a RoCE peer HOST_POISON,
and the others still leave. LRECV joins the receivers of its queue, and LFENCE passes its token. An operand of the wrong
kind is TYPE_MISMATCH, poison on a port whose value is used purges the strand, and an unknown target is ADDR_RANGE. -/
def Obligations.LinkOperatorsIssueTheirRequests : Prop :=
  ∀ (s : State) (o : Op), Performs s o.xfm →
    let u := s.coloured o.xfm
    let f := s.firing
    let t (i : Nat) : Tok := tokAt f i
    let x (i : Nat) : Nat := (t i).payload.toNat
    let scalar (i : Nat) : Option (BitVec 8) := if isScalar (t i) then none else some eTYPE_MISMATCH
    let purges (i : Instr) : Prop := exec i s = .next (requestPurge s f.region f.tag)
    let n := match o.fmt with | .raw => 8 | g => fmtBits g / 8
    let k := u.link.nextReq
    let w := (t 1).payload
    let peer := w.getLsbD 53
    let asks (a : Nat) (what : RemoteKind) : RemoteAccess :=
      { src := Config.dest, peer := false, key := w.extractLsb' 0 32, addr := BitVec.ofNat 64 a, what := what, answer := k }
    let refused (row poison : Bool) (a n : Nat) : Option (BitVec 8) :=
      if 2 ^ 64 < a + n then some eADDR_RANGE else if row = false ∧ a % n ≠ 0 then some eBOUNDS
      else if poison ∧ peer then some eHOST_POISON else none
    let one (a : Nat) (what : RemoteKind) (no : Option (BitVec 8)) : List (Nat × RemoteAccess) :=
      if no.isSome then [] else [(0, asks a what)]
    let checks (i : Instr) (errs : List (Option (BitVec 8))) (used : List Nat) (target : Nat) (go : Prop) : Prop :=
      (∀ e, firstError errs = some e → EmitsError i s o e 0) ∧
      (firstError errs = none →
        ((∃ p ∈ used, (t p).flag.poison = true) → purges i) ∧
        ((∀ p ∈ used, (t p).flag.poison = false) →
          (targetOk u (t target).payload = false → EmitsError i s o eADDR_RANGE 0) ∧
          (targetOk u (t target).payload = true → go)))
    let tile := o.imm.getLsbD 25
    let notify := o.imm.getLsbD 24
    let note (ix : Nat) : Option (Nat × RemoteAccess) := if notify then some (ix, asks (x 3) .notify) else none
    let rows := (o.imm.extractLsb' 18 7).toNat + 1
    let row := rowBytes o.fmt ((o.imm.extractLsb' 6 12).toNat + 1)
    let fn := (o.imm.extractLsb' 17 4).toNat
    let ports := if fn = 9 then [0, 1, 2, 3] else [0, 1, 2]
    checks (.lput o)
      ([scalar 0, scalar 1, if !tile then scalar 2 else if (t 2).kind = .tile then checkTile u f.cluster (t 2).payload (some [o.fmt])
        else some eTYPE_MISMATCH] ++ if notify then [scalar 3] else []) (if notify then [0, 1, 3] else [0, 1]) 1
      ((notify = true → peer = true → EmitsError (.lput o) s o eTYPE_MISMATCH 0) ∧
       (notify = false ∨ peer = false →
        (tile = false →
          let p := (t 2).flag.poison
          let no := refused false p (x 0) n
          RequestsLink (.lput o) s o (!o.imm.getLsbD 23) u w (one (x 0) (.write (leBytes n (x 2)) p false) no)
            (no.map fun c => (0, c)) (note 1) none) ∧
        (tile = true → ∀ v y bad, readTile u f.cluster (t 2).payload = (v, y, bad) →
          let p := bad || (t 2).flag.poison
          let size (i : Nat) : Nat := (y.rowBytes i).length
          let no (i : Nat) : Option (BitVec 8) := refused true p (x 0 + i * size i) (size i)
          RequestsLink (.lput o) s o (!o.imm.getLsbD 23) v w
            (((List.range y.rows).filter fun i => (no i).isNone).map fun i =>
              (i, asks (x 0 + i * size i) (.write (y.rowBytes i) p true)))
            (((List.range y.rows).filterMap fun i => (no i).map fun c => (i, c)).head?) (note y.rows) none))) ∧
    checks (.lget o) [scalar 0, scalar 1] [0, 1] 1
      ((tile = false →
        let no := refused false false (x 0) n
        RequestsLink (.lget o) s o false u w (one (x 0) (.read n false) no) (no.map fun c => (0, c)) none none) ∧
       (tile = true →
        let no (i : Nat) : Option (BitVec 8) := refused true false (x 0 + i * row) row
        RequestsLink (.lget o) s o false u w
          (((List.range rows).filter fun i => (no i).isNone).map fun i => (i, asks (x 0 + i * row) (.read row true)))
          (((List.range rows).filterMap fun i => (no i).map fun c => (i, c)).head?) none none)) ∧
    checks (.latom o) (ports.map scalar) ports 1
      ((peer = true ∨ isForeign w = true → EmitsError (.latom o) s o eTYPE_MISMATCH 0) ∧
       (peer = false → isForeign w = false →
        let no := refused false false (x 0) (bankWordSize o.fmt)
        RequestsLink (.latom o) s o true u w (one (x 0)
          (.atom (BitVec.ofNat 4 fn) o.fmt o.rnd (t 2).payload (if fn = 9 then (t 3).payload else 0)) no)
          (no.map fun c => (0, c)) none none)) ∧
    (let asTile := (t 1).kind = .tile
     let target := (t 0).payload
     checks (.lsend o) [scalar 0, if asTile then checkTile u f.cluster (t 1).payload none else none] [0] 0
      (let sends (v : State) (fmt : Fmt) (rows epr : Nat) (bs : List Byte) (p : Bool) : Prop :=
        (p = true → target.getLsbD 53 = true → EmitsError (.lsend o) s o eHOST_POISON 0) ∧
        (p = false ∨ target.getLsbD 53 = false → RequestsLink (.lsend o) s o true v target [] none none (some
          { src := Config.dest, peer := false, key := target.extractLsb' 0 32, tile := decide asTile, fmt := fmt, rows := rows,
            epr := epr, data := bs, poisoned := p, answer := k }))
       (¬ asTile → sends u .raw 1 1 (leBytes 8 (x 1)) (t 1).flag.poison) ∧
       (asTile → ∀ v y bad, readTile u f.cluster (t 1).payload = (v, y, bad) →
        sends v y.fmt y.rows y.epr ((List.range y.rows).flatMap y.rowBytes) (bad || (t 1).flag.poison)))) ∧
    (isScalar (t 0) = false → EmitsError (.lrecv o) s o eTYPE_MISMATCH 0 ∧ EmitsError (.lfence o) s o eTYPE_MISMATCH 0) ∧
    (isScalar (t 0) = true →
      let i := (o.imm.extractLsb' 0 6).toNat
      let y := firingUnder f (tagUnder s f o.xfm)
      ((getRecvQueue u i).owner.toNat ≠ f.region → EmitsError (.lrecv o) s o eBOUNDS 0) ∧
      ((getRecvQueue u i).owner.toNat = f.region → exec (.lrecv o) s = .next (serveQueue { u with link := { u.link with
        recvs := u.link.recvs ++ [{ firing := y.1, tag := y.2, waited := 0, raised := false }] } } i)) ∧
      let all := o.imm.getLsbD 0
      (all = false → (t 0).flag.poison = true → purges (.lfence o)) ∧
      (all = false → (t 0).flag.poison = false → targetOk u (t 0).payload = false → EmitsError (.lfence o) s o eADDR_RANGE 0) ∧
      (all = true ∨ ((t 0).flag.poison = false ∧ targetOk u (t 0).payload = true) →
        Emits (.lfence o) s o u (passTo (destinations u f o) (t 0)) 0 0))

/-- R400 to R402, R406, R407: an access needs a valid entry with its tag, its right and its kind of range, else
KEY_REVOKED with the reason, and its bytes inside the entry's range and the package's memory, else ADDR_RANGE; what it
then reads or writes are exactly those bytes of the memory behind the key. R397, R400, R401, R405 to R408, R410: an
access from a sender that the package knows is performed and answered, what another sender asks is dropped, and a RoCE
peer's atomics too; an answer to an element joins its request, a revoked key is reported to the region's owner once, and
the last answer completes the request with its result. A refused message waits out its backoff. -/
def Obligations.LinkAccessesAreCheckedAndAnswered : Prop :=
  -- Accesses Are Checked Against Their Key
  (∀ (s : State) (x : RemoteAccess),
      let e := Tab.get [] s.link.keys (x.key.toNat % 4096)
      let need : Right := match x.what with | .read .. => .read | .write .. => .write | _ => .atomic
      let v := keyField e 0 8
      let len := keyField e 8 8
      let kind := keyField e 16 8 / 2 ^ 62
      let a := x.addr.toNat
      let n := match x.what with | .read n _ => n | .write bs .. => bs.length | .notify => 8 | .atom _ f .. => bankWordSize f
      let p := keyField e 16 8 % 2 ^ 40 + (a - v)
      let valid : Prop := keyField e 28 1 / 128 = 1 ∧ len ≠ 0
      let tagged : Prop := keyField e 24 4 % 2 ^ 20 = x.key.toNat / 4096
      let fails (c : BitVec 8) (r : BitVec 8) : Prop := remoteAccess s x = (s, .err c r)
      e.length = 32 →
      (¬ valid → fails eKEY_REVOKED 1) ∧
      (valid → ¬ tagged → fails eKEY_REVOKED 2) ∧
      (valid → tagged → (keyField e 24 4).testBit need.bit = false ∨ 2 ≤ kind → fails eKEY_REVOKED 3) ∧
      (valid → tagged → (keyField e 24 4).testBit need.bit = true →
        (kind = 0 →
          let there : Prop := v ≤ a ∧ a + n ≤ v + len ∧ hbmExists s p = true ∧ hbmExists s (p + n - 1) = true ∧
            inSinkArea p = false ∧ inSinkArea (p + n - 1) = false
          (¬ there → fails eADDR_RANGE 0) ∧
          (there → kindOf p = .hbm →
            (∀ n row, x.what = .read n row → ∀ u bs bad, readMem s p n = (u, bs, bad) → remoteAccess s x = (u, .data bs bad)) ∧
            (∀ bs bad row, x.what = .write bs bad row → remoteAccess s x = ((writeMem s p bs bad).1, .ok)) ∧
            (∀ fn f rnd operand compare, x.what = .notify ∨ x.what = .atom fn f rnd operand compare →
              (p % n ≠ 0 → fails eBOUNDS 0) ∧ (p % n = 0 → fails eTYPE_MISMATCH 0)))) ∧
        (kind = 1 →
          let there : Prop := v ≤ a ∧ a + n ≤ v + len ∧ p + n ≤ 2 ^ 29 ∧ p / 2 ^ 26 ∈ s.service.dies ∧ (p + n - 1) / 2 ^ 26 ∈ s.service.dies
          let b := bankBase + p
          (¬ there → fails eADDR_RANGE 0) ∧
          (there → kindOf b = .bank →
            (∀ n, x.what = .read n true → b % 8 ≠ 0 → fails eBOUNDS 0) ∧
            (∀ n row, x.what = .read n row → row = false ∨ b % 8 = 0 →
              (loadBank s b n = none → fails eTYPE_MISMATCH 0) ∧
              ∀ u bs bad, loadBank s b n = some (u, bs, bad) → remoteAccess s x = (u, .data bs bad)) ∧
            (∀ bs bad, x.what = .write bs bad true → b % 8 ≠ 0 → fails eBOUNDS 0) ∧
            (∀ bs bad row, x.what = .write bs bad row → row = false ∨ b % 8 = 0 →
              (∀ c, storeBank s b bs bad = .error c → fails c 0) ∧
              ∀ u, storeBank s b bs bad = .ok u → remoteAccess s x = (u, .ok)) ∧
            (x.what = .notify → b % 8 ≠ 0 → fails eBOUNDS 0) ∧
            (x.what = .notify → b % 8 = 0 →
              (∀ c, plainElem s b 8 = .error c → fails c 0) ∧
              ∀ u old, plainElem s b 8 = .ok (u, old) →
                remoteAccess s x = (wakeWord (writeMem u b (leBytes 8 ((old + 1) % 2 ^ 64)) false).1 b, .ok)) ∧
            ∀ fn f rnd operand compare, x.what = .atom fn f rnd operand compare →
              let size := bankWordSize f
              (b % size ≠ 0 → fails eBOUNDS 0) ∧
              (b % size = 0 →
                (∀ c, plainElem s b size = .error c → fails c 0) ∧
                ∀ u old, plainElem s b size = .ok (u, old) →
                  let m := 2 ^ fmtBits f
                  let new := if fn = 9 then (if old = compare.toNat % m then operand.toNat % m else old)
                    else (bankOp fn.toNat f rnd false 0 old (operand.toNat % m)).1
                  remoteAccess s x = ((writeMem u b (leBytes size new) false).1, .old (BitVec.ofNat 64 old))))))) ∧
  -- Link Accesses And Answers
  (∀ (s : State) (a : RemoteAccess),
      let came (t : State) : Prop := exec (.incomingRemoteAccess a) s = .next t
      (fromSelf a.peer a.src = false →
        (knownSender s a.peer a.src = true → reaches a = true →
          let r := remoteAccess s a
          came { r.1 with sent := r.1.sent ++ [Sent.answer (answerDest a.peer a.src) a.answer r.2] }) ∧
        (knownSender s a.peer a.src = false ∨ reaches a = false → came s)) ∧
      (fromSelf a.peer a.src = true →
        (s.link.loop.findIdx? (fun x => x.answer == a.answer) = none → came s) ∧
        ∀ i, s.link.loop.findIdx? (fun x => x.answer == a.answer) = some i →
          (s.link.loop[i]? ≠ some a ∨ ordBlocked s a.answer = true → came s) ∧
          (s.link.loop[i]? = some a → ordBlocked s a.answer = false →
            let r := remoteAccess { s with link := { s.link with loop := removeAt s.link.loop i } } a
            came { r.1 with link := { r.1.link with answers := r.1.link.answers ++ [(a.answer, r.2)] } })) ∧
      (∀ (k : Nat) (q : LinkReq) (b : LinkAnswer) (u : State), getReq s k = some q →
        ((s.link.answers = [(k, b)] ∧ u = { s with link := { s.link with answers := [] } }) ∨
          (s.link.answers = [] ∧ isLocal q.target = false ∧ u = s)) →
        let ends (v : State) : Prop := exec (.linkResponseArrival k b) s = .next v
        (∀ i a, q.asks = [(i, a)] → q.msg = none → q.note = none → answerFits a b = true →
          let done (v : State) (q' : LinkReq) : Prop := ends (finishReq v k { q' with asks := [] })
          let n := askSize a
          (b = .ok → done u { q with bytes := q.bytes + n }) ∧
          (∀ bs p, b = .data bs p → done u { q with got := q.got ++ [(i, bs, p)] }) ∧
          (∀ v, b = .old v → done u { q with got := q.got ++ [(i, leBytes n v.toNat, false)] }) ∧
          (∀ c r, b = .err c r → q.fail = none →
            (c ≠ eKEY_REVOKED ∨ q.revoked = true → done u { q with fail := some (i, c) }) ∧
            (c = eKEY_REVOKED → q.revoked = false →
              done (raiseRevoked u q a.addr.toNat r) { q with fail := some (i, c), revoked := true }))) ∧
        (q.asks = [] → q.msg.isSome = true → q.note = none → q.retryAt = none →
          (b = .ok → ends (finishReq u k { q with msg := none })) ∧
          (∀ c r, b = .err c r → q.fail = none → ends (finishReq (if c = eKEY_REVOKED then raiseRevoked u q 0 r else u) k
            { q with fail := some (0, c), msg := none })) ∧
          (b = .nack → ends (setReq u k (some { q with nacks := q.nacks + 1, retryAt := some (s.htime + 64 * 2 ^ min (q.nacks + 1) 6) }))))) ∧
      (∀ (k : Nat) (q : LinkReq),
        let f := q.firing
        let o := opWord f.word
        let u := { setReq s k none with link := { (setReq s k none).link with eth := s.link.eth.filter fun e => e.1 != k } }
        let ds := destinations u f o
        let bytes (i : Nat) : List Byte := ((q.got.find? fun g => g.1 == i).map fun g => g.2.1).getD []
        let bad := q.got.any fun g => g.2.2
        let ends (k' : Kind) (p : Bool) (v : Word) : Prop :=
          finishReq s k q = answer u f q.tag srcLink (outTo ds k' { Flag.none with poison := p } v) none
        (∀ i c, q.fail = some (i, c) → finishReq s k q = answerError u f q.tag srcLink ds c i) ∧
        (q.fail = none →
          (linkOpc f = 0 → ends .done false (BitVec.ofNat 64 q.bytes)) ∧
          (linkOpc f = 1 → o.imm.getLsbD 25 = false → ends .scalar bad (narrow o.fmt (leNat (bytes 0)))) ∧
          (linkOpc f = 1 → o.imm.getLsbD 25 = true → finishReq s k q = answerTile u f q.tag srcLink ds
            (tileOfRows o.fmt ((o.imm.extractLsb' 6 12).toNat + 1)
              ((List.range ((o.imm.extractLsb' 18 7).toNat + 1)).map bytes)) bad) ∧
          (linkOpc f = 2 → ends .scalar false (narrow o.fmt (leNat (bytes 0)))) ∧
          (linkOpc f = 3 → ends .done false 0))))

/-- R396, R408, R412: a message goes to the next slot of its queue, or is refused while the queue is full, and a
disabled queue or too long a message is BOUNDS; a refused LSEND tries again after its backoff, and a limit ends it, or a
waiting LRECV, under ERR, and else is reported once; what the reliable layer has not heard of in 8 µs is sent again
(R397). -/
def Obligations.MessagesQueueAndRetry : Prop :=
  ∀ (s : State) (m : RemoteSend),
    (∀ r, sendQueue s m = .error r → remoteSend s m = (s, .err eKEY_REVOKED r)) ∧
    (∀ i, sendQueue s m = .ok i →
      let q := getRecvQueue s i
      (q.en = false ∨ 32768 < m.data.length → remoteSend s m = (s, .err eBOUNDS 0)) ∧
      (q.en = true → m.data.length ≤ 32768 →
        (q.slots.toNat < q.msgs.length → remoteSend s m = (s, .nack)) ∧
        (q.msgs.length ≤ q.slots.toNat → ∃ u, remoteSend s m = (u, .ok) ∧
          (getRecvQueue u i).next = (q.next + 1) % (q.slots.toNat + 1) ∧
          (getRecvQueue u i).msgs = q.msgs ++ [{ slot := q.next, source := sourceWord m.peer m.src, tile := m.tile, fmt := m.fmt,
                                                 rows := m.rows, epr := m.epr, size := m.data.length }] ∧
          u.mem = (writeMem s ((q.hi.toNat * 2 ^ 32 + q.base.toNat) % 2 ^ 40 + 32768 * q.next) m.data m.poisoned).1.mem))) ∧
    (let served (t : State) : State := match sendQueue t m with | .ok j => serveQueue t j | .error _ => t
     let came (t : State) : Prop := exec (.incomingSend m) s = .next t
     (fromSelf m.peer m.src = false →
       (knownSender s m.peer m.src = false → came s) ∧
       (knownSender s m.peer m.src = true →
         let r := remoteSend s m
         came (served { r.1 with sent := r.1.sent ++ [Sent.answer (answerDest m.peer m.src) m.answer r.2] }))) ∧
     (fromSelf m.peer m.src = true →
       (s.link.sends.findIdx? (fun x => x.answer == m.answer) = none → came s) ∧
       ∀ i, s.link.sends.findIdx? (fun x => x.answer == m.answer) = some i →
         (s.link.sends[i]? ≠ some m ∨ ordBlocked s m.answer = true → came s) ∧
         (s.link.sends[i]? = some m → ordBlocked s m.answer = false →
           let r := remoteSend { s with link := { s.link with sends := removeAt s.link.sends i } } m
           came (served { r.1 with link := { r.1.link with answers := r.1.link.answers ++ [(m.answer, r.2)] } })))) ∧
    (∀ k q t, getReq s k = some q → q.retryAt = some t →
      (s.htime < t ∨ isStopped s q.firing.region = true → exec (.nackRetry (2 * k + 1)) s = .next s) ∧
      (t ≤ s.htime → isStopped s q.firing.region = false →
        exec (.nackRetry (2 * k + 1)) s = .next (dispatch (setReq s k (some { q with retryAt := none })) k { q with retryAt := none } [])) ∧
      (reqDue s q = true → (opWord q.firing.word).imm.getLsbD 21 = true →
        exec (.linkWaitLimitExpiry (2 * k)) s = .next (finishReq s k { q with fail := some (0, eQUEUE_TIMEOUT) })) ∧
      (reqDue s q = true → (opWord q.firing.word).imm.getLsbD 21 = false →
        exec (.linkWaitLimitExpiry (2 * k)) s = .next (linkWait (setReq s k (some { q with raised := true })) q.firing q.target.toNat (heldMessages s q) 2)) ∧
      (reqDue s q = false → exec (.linkWaitLimitExpiry (2 * k)) s = .next s)) ∧
    (∀ (k : Nat) (x : Recv), s.link.recvs[k]? = some x →
      let i := Instr.linkWaitLimitExpiry (2 * k + 1)
      let o : Op := Machine.opWord x.firing.word
      let no := (o.imm.extractLsb' 0 6).toNat
      let due := limitDue s x.firing x.waited x.raised
      (due = false → exec i s = .next s) ∧
      (due = true → o.imm.getLsbD 21 = true →
        exec i s = .next (answerError { s with link := { s.link with recvs := removeAt s.link.recvs k } }
          x.firing x.tag srcLink (destinations s x.firing o) eQUEUE_TIMEOUT 0)) ∧
      (due = true → o.imm.getLsbD 21 = false →
        exec i s = .next (linkWait { s with link := { s.link with recvs := s.link.recvs.set k { x with raised := true } } }
          x.firing no (getRecvQueue s no).msgs.length 3))) ∧
    (∀ k q t, s.link.eth = [(k, t)] → getReq s k = some q →
      (q.retryAt = none → s.link.ethUp ≠ 0 → t + 10000 ≤ s.htime → exec (.ethernetRetransmit k) s = .next (dispatch s k q q.asks)) ∧
      (q.retryAt.isSome = true ∨ s.link.ethUp = 0 ∨ s.htime < t + 10000 → exec (.ethernetRetransmit k) s = .next s))

/-- R393 to R395: a flit with its error check right is taken: one in sequence advances the acknowledged number and
returns its slot, one past a gap, or with a wrong check, asks for a replay, one taken before is dropped; a slot-sync
sets the counts of the eight buffers, and a replay request sends again what is not acknowledged. Every 256 flits the
cumulative counts go out; a port that has lost lanes goes on with a power of two of them, and with fewer than four is
down. R30, R31, R33: a packet's flits join in their receive buffer until its header's LEN has come. One for another
package goes on by the port toward it; a token for a cluster of a region enters the network with the lines of its tile;
one for a reserved endpoint is discarded and counted. -/
def Obligations.ScewenPortsKeepSequence : Prop :=
  -- Scewen Ports Keep Sequence
  (∀ (s : State) (p : Nat) (h : Word) (flit : List Byte),
      let x := getSPort s p
      let ack := x.acknowledge (h.extractLsb' 35 12)
      let type := h.extractLsb' 62 2
      let seq : BitVec 12 := h.extractLsb' 47 12
      let buf := (h.extractLsb' 59 3).toNat
      let base : SPort := { ack with ret := Tab.set 0 x.ret (h.extractLsb' 32 3).toNat (h.extractLsb' 20 12) }
      let takes (t : State) : Prop := exec (.scewenFlitReceive p h flit true) s = .next t
      let replay (y : SPort) (i : Instr) : Prop :=
        exec i s = .next (setSPort { s with sent := s.sent ++ [Sent.flit p (flitHeader y 3 0 y.nextSeq) []] } p { y with rsel := y.rsel + 1 })
      (s.service.scewenUp.getLsbD p = false →
        (∀ ok, exec (.scewenFlitReceive p h flit ok) s = .next s) ∧ exec (.slotSync p) s = .next s ∧
        ∀ lanes, exec (.scewenPortDown p lanes) s = .next s) ∧
      (s.service.scewenUp.getLsbD p = true →
        replay x (.scewenFlitReceive p h flit false) ∧
        (type = 0 → seq = x.lastGood + 1 → takes (pumpPort (joinPacket
          (setSPort s p { base with lastGood := seq, returned := Tab.set 0 x.returned buf (counter x.returned buf + 1) }) p buf flit) p)) ∧
        (type = 0 → seq ≠ x.lastGood + 1 → (seq - x.lastGood).toNat < 2048 → replay base (.scewenFlitReceive p h flit true)) ∧
        (type = 0 → 2048 ≤ (seq - x.lastGood).toNat → takes (pumpPort (setSPort s p base) p)) ∧
        (type = 1 → takes (pumpPort (setSPort s p base) p)) ∧
        (type = 2 → takes (pumpPort (setSPort s p { base with returned := (List.range 8).foldl (fun t b =>
          Tab.set 0 t b (BitVec.ofNat 12 (leNat ((flit.drop (2 * b)).take 2)))) x.returned }) p)) ∧
        (type = 3 →
          (base.unacked = [] → takes (pumpPort (setSPort s p base) p)) ∧
          ∀ n b d, base.unacked = [(n, b, d)] → takes (pumpPort (setSPort
            { s with sent := s.sent ++ [Sent.flit p (flitHeader base 0 b n) d] } p { base with rsel := x.rsel + 1 }) p)) ∧
        (256 ≤ x.sinceSync → exec (.slotSync p) s = .next (pumpPort (setSPort { s with sent := s.sent ++ [Sent.flit p (flitHeader x 2 0 x.nextSeq)
            ((List.range 8).flatMap fun b => leBytes 2 (counter x.sent b).toNat)] } p { x with rsel := x.rsel + 1, sinceSync := 0 }) p)) ∧
        (x.sinceSync < 256 → exec (.slotSync p) s = .next s) ∧
        (p < 6 → ∀ lanes,
          let now := x.lanes.getD (if p < 2 then 32 else 16)
          let left := if lanes = 0 then 0 else 2 ^ lanes.log2
          (now ≤ left → exec (.scewenPortDown p lanes) s = .next s) ∧
          (left < now → 4 ≤ left → exec (.scewenPortDown p lanes) s = .next (setSPort s p { x with lanes := some left })) ∧
          (left < now → left < 4 → ∃ t, exec (.scewenPortDown p lanes) s = .next t ∧
            ∀ q < 6, t.service.scewenUp.getLsbD q = (s.service.scewenUp.getLsbD q && q != p))))) ∧
  -- Packets Go On Or Arrive
  (∀ (s : State) (p buf : Nat) (flit : List Byte) (rest : List (List Byte)) (vc : Nat),
      let x := getSPort s p
      let all := Tab.get [] x.parts buf ++ [flit]
      let word (b : List Byte) (i : Nat) : Word := BitVec.ofNat 64 (leNat ((b.drop i).take 8))
      let length := ((word (all.headD []) 0).extractLsb' 28 10).toNat
      (all.length ≤ length → joinPacket s p buf flit = setSPort s p { x with parts := Tab.set [] x.parts buf all }) ∧
      (length < all.length → joinPacket s p buf flit =
        takePacket (setSPort s p { x with parts := Tab.set [] x.parts buf [] }) (buf % 2) all) ∧
      let h := word flit 0
      let pkg : BitVec 12 := h.extractLsb' 50 12
      let die := (h.extractLsb' 47 3).toNat
      let c := (h.extractLsb' 38 9).toNat
      (pkg.toNat ≠ ownPackage → takePacket s vc (flit :: rest) = shipFlits s pkg (h.extractLsb' 62 2).toNat vc false (flit :: rest)) ∧
      (pkg.toNat = ownPackage → h.extractLsb' 62 2 = 0 →
        (∀ rid, c < 320 → regionAt s die c = some rid → takePacket s vc (flit :: rest) = { s with net := s.net ++
          [{ region := rid, src := 2 ^ 40 + (h.extractLsb' 4 24).toNat, dst := clusterKey die c, tok := tokOf (word flit 8) (word flit 16),
             data := if h.extractLsb' 28 10 = 0 then none else some { bytes := rest.flatten, bad := [] } }] }) ∧
        (320 ≤ c ∨ regionAt s die c = none →
          (∀ rid, regionOnDie s die = some rid → takePacket s vc (flit :: rest) = addDiscarded s rid 0 1) ∧
          (regionOnDie s die = none → takePacket s vc (flit :: rest) = s))))

/-! ### Events of the part -/

/-- R108, R120 to R122, R127, R129, R139: HWAKE wakes the threads it names; HTIMECMP clears the timer event, which comes
again at its tick; a wait ends at an event and consumes a wake; a pending cause is delivered at an instruction boundary,
with its region and its record, and the die's next cause follows it; SNKPOP.wait, INJ.new and GLOAD.entry go on when a
token or a colour has come. -/
def Obligations.HawkEventsAct : Prop :=
  ∀ (s : State) (th : Nat) (v : Word),
    let t := getThread s th
    let d := th / 8
    (∀ d, ∃ u, exec (.hwakeWrite d v) s = .next u ∧ u = { s with threads := u.threads } ∧
      ∀ k, getThread u k = if 8 * d ≤ k ∧ k < 8 * d + 8 ∧ v.getLsbD (k - 8 * d) = true then { getThread s k with wake := true }
        else getThread s k) ∧
    exec (.htimecmpWrite th v) s = .next (setThread s th { t with timecmp := v, timer := false }) ∧
    (t.timecmp.toNat ≤ s.htime → exec (.timerEvent th) s = .next (setThread s th { t with timer := true })) ∧
    (s.htime < t.timecmp.toNat → exec (.timerEvent th) s = .next s) ∧
    (t.wait = true → (t.wake = true ∨ t.timer = true ∨ (t.ie = true ∧ t.pending ≠ [])) →
      exec (.wfeWake th) s = .next (setThread s th { t with wait := false, wake := false })) ∧
    ((t.wait = false ∨ (t.wake = false ∧ t.timer = false ∧ (t.ie = false ∨ t.pending = []))) → exec (.wfeWake th) s = .next s) ∧
    (t.ie = false ∨ t.pending = [] ∨ t.halt = true ∨ (∃ r, t.block = .freeze r ∨ t.block = .thaw r) ∨ (∃ r l, t.block = .entries r l) →
      exec (.asyncCauseDelivery th) s = .next s) ∧
    (∀ c rest, t.ie = true → t.pending = c :: rest → t.halt = false →
      (t.block = .none ∨ (∃ r rb, t.block = .snkpop r rb) ∨ (∃ r ra rb e, t.block = .inj r ra rb e)) →
        let taken : Thread := { t with
          pending := rest, wait := false, wake := t.wake && !t.wait, block := .none,
          cause := BitVec.ofNat 64 (c.region % 2 ^ 16 * 2 ^ 16 + 2 ^ 8 + c.code.toNat), xpc := t.pc, xval := c.record,
          pmode := t.mode, pie := true, mode := true, ie := false, pc := t.vec }
        ∃ u, exec (.asyncCauseDelivery th) s = .next u ∧ u = { s with threads := u.threads, dies := u.dies } ∧
          (getDie u d).undelivered = (getDie s d).undelivered - (if c.record = 0 then 0 else 1) ∧
          ((getDie s d).causes = [] → getThread u th = taken ∧ (getDie u d).causes = [] ∧ ∀ k, k ≠ th → getThread u k = getThread s k) ∧
          ∀ th2 c2 more, (getDie s d).causes = (th2, c2) :: more → th2 / 8 = d → rest = [] →
            (∀ k, k / 8 = d → k ≠ th → (getThread s k).pending = []) →
            (getDie u d).causes = more ∧ getThread u th = { taken with pending := if th2 = th then [c2] else [] } ∧
            (th2 ≠ th → getThread u th2 = { getThread s th2 with pending := [c2] })) ∧
    (∀ rid r rb, t.block = .snkpop r rb → graphRegion s th [.loaded] = some rid →
      let x := getRegion s rid
      (x.sinks = [] → exec (.snkpopWaitResume th) s = .next s) ∧
      ∀ k rest, x.sinks = k :: rest → ∃ u, exec (.snkpopWaitResume th) s = .next u ∧
        getRegion u rid = { x with sinks := rest, hsinks := if x.hsinks = 0 then 0 else x.hsinks - 1 } ∧
        (getThread u th).block = .none ∧ (getThread u th).pc = t.pc + 4 ∧
        ∀ q : Reg, (getThread u th).getX q = if q = rb ∧ rb ≠ 0 then headerBits { k with dst := moveDst (toRelative x) k.dst }
          else if q = r ∧ r ≠ 0 then k.payload else t.getX q) ∧
    (∀ rid r ra rb fen, t.block = .inj r ra rb fen → graphRegion s th [.loaded] = some rid → isStopped s rid = false →
      let reg := getRegion s rid
      let k := entryToken reg (tokOf (t.getX ra) (t.getX rb))
      let s0 := if fen then dropCopies s else s
      (injectNew s0 rid th k = none → exec (.injColourResume th) s = .next (setThread s th { t with block := .inj r ra rb fen })) ∧
      ∀ u x, injectNew s0 rid th k = some (u, x) → exec (.injColourResume th) s = .next
        (finishX (blockOn u th .none) th r (headerBits { x with dst := moveDst (toRelative reg) x.dst }))) ∧
    (∀ rid r left, t.block = .entries r left → graphRegion s th [.loaded] = some rid → isStopped s rid = false →
      ∀ u rest, injectEntries rid th left (dropCopies s) = (u, rest) →
        (rest = [] → exec (.injColourResume th) s = .next (reissue (finishX (blockOn u th .none) th r 0) rid fun b => b == .graphTurn)) ∧
        (rest ≠ [] → exec (.injColourResume th) s = .next
          (blockOn (if rest.length = left.length then s else u) th (.entries r rest)))) ∧
    (∀ rid, graphRegion s th [.loaded] = some rid → isStopped s rid = true → exec (.injColourResume th) s = .next s) ∧
    (graphRegion s th [.loaded] = none → exec (.injColourResume th) s = .next s ∧ exec (.snkpopWaitResume th) s = .next s)

/-- R117, R118: LAUNCH_PEEK leases the head record of an enabled queue that holds records and has no lease, of the
highest effective priority, in turn after the last commit there, and answers its lease; COMMIT of the thread's live
lease retires the record, RELEASE returns it, any other word does nothing; a record that has waited 2^24 ticks rises one
level, once. -/
def Obligations.LaunchQueuesLease : Prop :=
  ∀ (s : State) (th : Nat) (rd : Reg),
    let open_ (q : Nat) : Prop := q < 64 ∧ (getQueue s q).en = true ∧ (getQueue s q).head ≠ (getQueue s q).tail ∧
      (getQueue s q).lease = none
    let level (q : Nat) : Nat := if (getQueue s q).raised then q / 16 - 1 else q / 16
    let lease (q : Nat) : Word := BitVec.ofNat 64 (2 ^ 63 + q * 2 ^ 48 + (getQueue s q).head.toNat)
    let last (q : Nat) : Nat := Tab.get 63 s.lastCommit (level q)
    ((∀ q, ¬ open_ q) → ∃ t, exec (.launchPeek th rd) s = .next t ∧ t.launch = s.launch ∧ (rd ≠ 0 → (getThread t th).getX rd = 0)) ∧
    (∀ k, open_ k → ∃ q t, open_ q ∧ level q ≤ level k ∧
      (level k = level q → (last q < k → last q < q ∧ q ≤ k) ∧ (k ≤ last q → last q < q ∨ q ≤ k)) ∧
      exec (.launchPeek th rd) s = .next t ∧ (rd ≠ 0 → (getThread t th).getX rd = lease q) ∧
      t = { setQueue s q { getQueue s q with lease := some th } with threads := t.threads }) ∧
    (∀ q, q < 64 → (getQueue s q).lease = some th →
      exec (.launchCommit th (lease q)) s = .next { setQueue s q { getQueue s q with
        head := (getQueue s q).head + 1, lease := none, since := s.htime, raised := false } with
          lastCommit := Tab.set 63 s.lastCommit (level q) q } ∧
      exec (.launchRelease th (lease q)) s = .next (setQueue s q { getQueue s q with lease := none })) ∧
    (∀ w, (∀ q < 64, (getQueue s q).lease = some th → w ≠ lease q) →
      exec (.launchCommit th w) s = .next s ∧ exec (.launchRelease th w) s = .next s) ∧
    ∀ q, let x := getQueue s q
      let due : Prop := x.en = true ∧ x.head ≠ x.tail ∧ x.raised = false ∧ 16 ≤ q ∧ x.since + 2 ^ 24 ≤ s.htime
      (due → exec (.effectivePriorityAging q) s = .next (setQueue s q { x with raised := true })) ∧
      (¬ due → exec (.effectivePriorityAging q) s = .next s)

/-- R32, R39, R116, R119, R169, R175, R176: the allocator answers a request with the handle of a region that it grants
under the lowest free number, or with 0; a store of the handle of a GRANTED or FROZEN region frees it with everything it
holds; SPANMAP binds and unbinds die indices while the owner is GRANTED; TWIN_PAIR pairs and unpairs LOADED regions;
TCTL.CLR zeroes the leak counters and LEAKTHR re-arms the trap. -/
def Obligations.RegionsAreGrantedAndFreed : Prop :=
  ∀ (s : State),
    (∀ (th : Nat) (rd : Reg) (q : Word),
      let x := allocate s (th / 8) q
      (∃ t, exec (.allocReq th rd q) s = .next t ∧ t = { x.1 with threads := t.threads } ∧
        (rd ≠ 0 → (getThread t th).getX rd = x.2)) ∧
      (requestOk q = false → x = (s, 0)) ∧
      (x.2 ≠ 0 → ∃ rid < 128, (getRegion s rid).state = .free ∧ (∀ k < rid, (getRegion s k).state ≠ .free) ∧
        (getRegion x.1 rid).state = .granted ∧ (getRegion x.1 rid).handle = x.2)) ∧
    (∀ h : Word,
      let rid := bits h 62 56
      let r := getRegion s rid
      let pager := decide (120 ≤ rid) && isPager s (rid - 120) (16 * r.row0 + r.col0)
      (r.handle ≠ h ∨ r.state = .free ∨ r.state = .loaded ∨ r.member = true ∨ pager = true → exec (.allocFree h) s = .next s) ∧
      (r.handle = h → (r.state = .granted ∨ r.state = .frozen) → r.member = false → pager = false →
        ∃ t, exec (.allocFree h) s = .next t ∧ (getRegion t rid).state = .free ∧
          (∀ m ∈ localMembers r, (getRegion t m).state = .free) ∧
          (localMembers r = [] → (getRegion t rid).ctxs = [] ∧ (getRegion t rid).sinks = [] ∧
            (getRegion t rid).twin = none ∧ (getRegion t rid).stale = r.stale ∧
            (∀ k, ∃ b, getThread t k = { getThread s k with block := b } ∧ (b = (getThread s k).block ∨ b = .none)) ∧
            (∀ c ∈ regionClusters s r, (getCluster t c).entries = [] ∧ (getCluster t c).slots = []) ∧
            ∀ w ∈ t.waiters, w.firing.region ≠ rid))) ∧
    (∀ (rid i : Nat) (e : Word),
      let r := getRegion s rid
      let may : Prop := r.state = .granted ∧ r.whole = true ∧ r.member = false ∧ ownDies r ≤ i ∧ i < 8
      (¬ may → exec (.spanmapBind rid i e) s = .next s ∧ exec (.spanmapUnbind rid i) s = .next s) ∧
      (may → e ≠ 0 → spanAccepted s rid e = true → ∃ t, exec (.spanmapBind rid i e) s = .next t ∧
        Tab.get 0 (getRegion t rid).span i = e) ∧
      (may → spanAccepted s rid e = false → ∃ t, exec (.spanmapBind rid i e) s = .next t ∧
        Tab.get 0 (getRegion t rid).span i = 0) ∧
      (may → ∃ t, exec (.spanmapUnbind rid i) s = .next t ∧ Tab.get 0 (getRegion t rid).span i = 0)) ∧
    (∀ v : Word,
      let a := bits v 62 56
      let b := bits v 54 48
      let both : Prop := (getRegion s a).state = .loaded ∧ (getRegion s b).state = .loaded ∧ a ≠ b
      (v.getLsbD 63 = true → (both → ∃ t, exec (.twinPair v) s = .next t ∧ (getRegion t a).twin = some (b, true) ∧
          (getRegion t b).twin = some (a, false) ∧ t = { s with regions := t.regions }) ∧
        (¬ both → exec (.twinPair v) s = .next s)) ∧
      (v.getLsbD 63 = false → (getRegion s a).state = .loaded → ∀ p b, (getRegion s a).twin = some (p, b) →
        ∃ t, exec (.twinUnpair v) s = .next t ∧ (getRegion t a).twin = none ∧ (getRegion t p).twin = none ∧
          t = { s with regions := t.regions })) ∧
    ∀ (rid : Nat) (v : BitVec 32),
      let r := getRegion s rid
      exec (.tctlClr rid) s = .next (setRegion s rid
        { r with stale := 0, reclaimed := 0, discarded := 0, purged := 0, replays := 0, failed := 0 }) ∧
      exec (.leakthrWrite rid v) s = .next (setRegion s rid { r with leakThr := v, leakArmed := true })

/-- R289, R292, R294, R295, R391, R398, R402, R421: the registers of the ports, translators, Link Engine and islands: a
range table is loaded from memory; an invalidation drops the entries it names in every translator; KCMD rereads and
revokes entries; MSGGO appends to the host's ring or waits while it is full, MSGACK takes the message held, and a host
entry enters MSGIN; an operating point is requested unless it is 3 for an island in use, and the highest of request and
clamps takes effect. A block of a die that is not enabled takes no access (log 117). -/
def Obligations.UnitRegistersAct : Prop :=
  ∀ (s : State),
    (∀ p (a : Word) u rs, loadRanges s a.toNat = (u, rs) →
      let x := getPort u p
      let keep (j : Job) : Job := { j with ranges := if j.held.isSome then none else some (j.ranges.getD x.xlate.ranges) }
      let gens := x.gens.map fun e => (e.1, e.2.map keep)
      exec (.prtabLoad p a) s = .next (setPort u p
        { x with xlate := { x.xlate with ranges := rs }, queue := x.queue.map keep, waiting := x.waiting.map keep, gens := gens })) ∧
    (∀ d (a : Word) u rs, loadRanges s a.toNat = (u, rs) →
      exec (.hrtabLoad d a) s = .next (setDie u d { getDie u d with xlate := { (getDie u d).xlate with ranges := rs } })) ∧
    (∀ (va : Word) (asid : BitVec 32),
      let drops (i : Instr) (gone : TlbEntry → Prop) : Prop := ∃ t, exec i s = .next t ∧
        t = { s with ports := t.ports, dies := t.dies } ∧
        (∀ e ∈ t.ports, (∀ x ∈ e.2.xlate.tlb, ¬ gone x) ∧ ∃ p, (e.1, p) ∈ s.ports ∧ e.2 = { p with xlate := e.2.xlate } ∧
          e.2.xlate.ranges = p.xlate.ranges ∧ (∀ x ∈ e.2.xlate.tlb, x ∈ p.xlate.tlb) ∧ ∀ x ∈ p.xlate.tlb, ¬ gone x → x ∈ e.2.xlate.tlb) ∧
        (∀ e ∈ t.dies, (∀ x ∈ e.2.xlate.tlb, ¬ gone x) ∧ ∃ p, (e.1, p) ∈ s.dies ∧ e.2 = { p with xlate := e.2.xlate } ∧
          e.2.xlate.ranges = p.xlate.ranges ∧ (∀ x ∈ e.2.xlate.tlb, x ∈ p.xlate.tlb) ∧ ∀ x ∈ p.xlate.tlb, ¬ gone x → x ∈ e.2.xlate.tlb)
      drops (.tlbinvPage va asid) (fun x => x.asid = asid ∧ x.holds asid (va.toNat % 2 ^ 57) = true) ∧
      drops (.tlbinvAsid asid) (fun x => x.asid = asid) ∧ drops .tlbinvAll (fun _ => True)) ∧
    (∀ i u bs bad, readMem s (s.link.ktbase.toNat + 32 * i) 32 = (u, bs, bad) →
      exec (.kcmdRereadKey i) s = .next { u with link := { u.link with keys := Tab.set [] u.link.keys i bs } } ∧
      ∃ t, exec (.kcmdRevoke i) s = .next t ∧ t.mem = (writeMem u (s.link.ktbase.toNat + 32 * i) (revokeEntry bs) false).1.mem ∧
        (Tab.get [] u.link.keys i ≠ [] → Tab.get [] t.link.keys i = revokeEntry (Tab.get [] u.link.keys i))) ∧
    (∀ bs : List Byte, bs.length = 32 → keyField (revokeEntry bs) 0 24 = keyField bs 0 24 ∧
      keyField (revokeEntry bs) 24 4 % 2 ^ 20 = (keyField bs 24 4 + 1) % 2 ^ 20 ∧ keyField (revokeEntry bs) 28 1 < 128) ∧
    (∀ i u bs bad, readMem s (s.link.ctbase.toNat + 64 * i) 64 = (u, bs, bad) →
      exec (.kcmdRereadConn i) s = .next { u with link := { u.link with conns := Tab.set [] u.link.conns i bs } }) ∧
    (∀ th : Nat,
      let l := s.link
      let m := l.msgout
      let pri := m.getD 0 0 == 1 && (m.getD 1 0).getLsbD 1 && l.hpctl.getLsbD 3
      let full : Prop := 2 ^ l.ringsz.toNat ≤ (l.d2htail - l.d2hhead).toNat
      let ends (u : State) : Prop := exec (.msggo th) s = .next (if (getThread u th).block = .msggo then
        setThread u th { getThread u th with block := .none, pc := (getThread u th).pc + 4 } else u)
      (pri = true → ends { s with sent := s.sent ++ [.pageRequest (BitVec.ofNat 32 (leNat ((m.drop 4).take 4) % 2 ^ 20))
        (BitVec.ofNat 64 (leNat ((m.drop 8).take 8))) ((m.getD 1 0).getLsbD 0)] }) ∧
      (pri = false → full → exec (.msggo th) s = .next s) ∧
      (pri = false → ¬ full → ∀ u, (writeMem s (hostAddr (l.d2hbase.toNat + 64 * (l.d2htail.toNat % 2 ^ l.ringsz.toNat))) m false).1 = u →
        ends { u with link := { u.link with d2htail := u.link.d2htail + 1 }, sent := u.sent ++ [.msix 0] })) ∧
    (msginValid s = false → exec .msgack s = .next s) ∧
    (msginValid s = true → ∃ t, exec .msgack s = .next t ∧ msginValid t = false ∧ t.link.h2dhead = s.link.h2dhead + 1 ∧
      t = { s with link := t.link }) ∧
    (let l := s.link
     (l.h2dtail = l.h2dhead ∨ msginValid s = true → exec .hostMessageArrival s = .next s) ∧
     (l.h2dtail ≠ l.h2dhead → msginValid s = false → ∀ u m bad,
       readMem s (hostAddr (l.h2dbase.toNat + 64 * (l.h2dhead.toNat % 2 ^ l.ringsz.toNat))) 64 = (u, m, bad) →
       let ty := (m.getD 0 0).toNat
       ∃ t, exec .hostMessageArrival s = .next t ∧
        (ty = 2 ∨ ty = 4 ∨ 128 ≤ ty → t.link.msgin = m.set 1 (m.getD 1 0 ||| 0x80) ∧
          ∀ k < 64, (getThread t k).wake = ((getThread s k).wake || s.service.dies.contains (k / 8))) ∧
        (ty ≠ 2 → ty ≠ 4 → ty < 128 → t = { u with link := { u.link with h2dhead := u.link.h2dhead + 1 } }))) ∧
    (∀ (hi : Bool) (v : Word), ∃ t, exec (.opreqWrite hi v) s = .next t ∧ t = { s with service := { s.service with opreq := t.service.opreq } } ∧
      ∀ j < 32, let i := if hi then 32 + j else j
        pointOf t.service.opreq i = if v.extractLsb' (2 * j) 2 = 3 ∧ islandInUse s i = true then pointOf s.service.opreq i
          else v.extractLsb' (2 * j) 2) ∧
    (∀ i, ∃ t, exec (.operatingPointChange i) s = .next t ∧
      t = { s with service := { s.service with opnow := t.service.opnow } } ∧
      (pointOf t.service.opnow i).toNat = max (max (pointOf s.service.opreq i).toNat s.service.powerClamp.toNat)
        (if s.service.hot.any (fun e => e.1 == i / 8) then 2 else 0)) ∧
    ∀ (host : Bool) (off size : Nat) (v : Word),
      (∀ u, storePcb s (if host then none else some 0) off size v = .ok u → exec (.registerWrite host off size v) s = .next u) ∧
      (storePcb s (if host then none else some 0) off size v = .bad ∨ storePcb s (if host then none else some 0) off size v = .full →
        exec (.registerWrite host off size v) s = .next s) ∧
      (off = 0xA808 → size = 4 → exec (.registerWrite host off size v) s = .next { s with invAsid := v.extractLsb' 0 32 }) ∧
      (∀ p < 128, off = 0x8000 + 64 * p → size = 8 →
        let x := getPort s p
        (p / 16 ∉ s.service.dies → exec (.registerWrite host off size v) s = .next s) ∧
        (p / 16 ∈ s.service.dies → exec (.registerWrite host off size v) s = .next (setPort s p (if x.en then { x with en := v.getLsbD 63 }
          else { x with en := v.getLsbD 63, owner := v.extractLsb' 56 7, copy := v.getLsbD 55 }))))

/-- R385, R386, R389, R390, R415: host reads and writes through BAR0 to the registers, BAR2 to HBM and BAR4 to the
banks; poisoned data is refused and counted while PACC is 0; what a BAR does not reach aborts or is discarded; the
device answers every snoop. -/
def Obligations.HostAccessesAreAnswered : Prop :=
  ∀ (s : State) (off n : Nat) (data : List Byte),
    let sends (u : State) (x : Sent) : State := { u with sent := u.sent ++ [x] }
    let answers (i : Instr) (u : State) (bs : List Byte) (bad : Bool) : Prop :=
      (bad = false ∨ u.link.hpctl.getLsbD 0 = true → exec i s = .next (sends u (.completion bs bad))) ∧
      (bad = true → u.link.hpctl.getLsbD 0 = false →
        exec i s = .next (sends { u with link := { u.link with aborts := u.link.aborts + 1 } } .abort))
    (∀ u bs bad, barHbm s off n = true → readMem s off n = (u, bs, bad) → answers (.hostRead 2 off n) u bs bad) ∧
    (barHbm s off n = false → exec (.hostRead 2 off n) s = .next (sends s .abort)) ∧
    (∀ u bs bad, barBank s off n = true → loadBank s (bankBase + off) n = some (u, bs, bad) → answers (.hostRead 4 off n) u bs bad) ∧
    (barBank s off n = false ∨ loadBank s (bankBase + off) n = none → exec (.hostRead 4 off n) s = .next (sends s .abort)) ∧
    (s.service.ready = false → off < 0xF000 → exec (.hostRead 0 off n) s = .next (sends s (.completion (leBytes n 0) false)) ∧
      ∀ p, exec (.hostWrite 0 off data p) s = .next s) ∧
    ((s.service.ready = true ∨ 0xF000 ≤ off) →
      (∀ u w, loadPcb s none off n = some (u, w) → exec (.hostRead 0 off n) s = .next (sends u (.completion (leBytes n w.toNat) false))) ∧
      (loadPcb s none off n = none → exec (.hostRead 0 off n) s = .next (sends s .abort)) ∧
      (∀ u, storePcb s none off data.length (BitVec.ofNat 64 (leNat data)) = .ok u → exec (.hostWrite 0 off data false) s = .next u) ∧
      (storePcb s none off data.length (BitVec.ofNat 64 (leNat data)) = .bad ∨
        storePcb s none off data.length (BitVec.ofNat 64 (leNat data)) = .full → exec (.hostWrite 0 off data false) s = .next s) ∧
      exec (.hostWrite 0 off data true) s = .next s) ∧
    (∀ p, (barHbm s off data.length = true → exec (.hostWrite 2 off data p) s = .next (writeMem s off data p).1) ∧
      (barHbm s off data.length = false → exec (.hostWrite 2 off data p) s = .next s) ∧
      (barBank s off data.length = true → ∀ u, storeBank s (bankBase + off) data p = .ok u →
        exec (.hostWrite 4 off data p) s = .next u) ∧
      (∀ c, barBank s off data.length = false ∨ storeBank s (bankBase + off) data p = .error c →
        exec (.hostWrite 4 off data p) s = .next s)) ∧
    (∀ bar p, bar ≠ 0 → bar ≠ 2 → bar ≠ 4 → exec (.hostRead bar off n) s = .next s ∧ exec (.hostWrite bar off data p) s = .next s) ∧
    ∀ a, exec (.cxlSnoop a) s = .next (sends s (.snoopAnswer a))

/-- R415 to R418, R421 to R423, R427 to R429: bring-up ends READY with a verified bundle and a working channel on each
die, else in BOOTFAIL; attestation answers; telemetry changes once a period and the power clamp with it; heat clamps,
lifts and shuts down; a failing cluster, channel, bank or port goes out of service. -/
def Obligations.ServiceEngineActs : Prop :=
  ∀ (s : State),
    let v := s.service
    let doe (u : State) (bs : List Byte) : State := { u with sent := u.sent ++ [.doe bs] }
    (∀ b, ∃ t, exec (.packageReset b) s = .next t ∧
      let g := powerGood s
      let bundle := match verified v.flashA v.fused.toNat with | some x => some x | none => verified v.flashB v.fused.toNat
      (bundle = none → t.service.bootfail = true ∧ t.service.ready = false) ∧
      ∀ x, bundle = some x →
        let u := recordFailures { g with service := { g.service with running := x } } b
        (noChannel u = true → t.service.bootfail = true ∧ t.service.ready = false) ∧
        (noChannel u = false → t.service.ready = true ∧ t.service.running = x ∧ t.service.flashA = v.flashA ∧
          v.fused.toNat ≤ t.service.fused.toNat ∧ ∀ d ∈ v.dies, d < 8 → (getThread t (8 * d)).wait = false)) ∧
    exec .getId s = .next (doe s Config.certificates) ∧
    (∀ nonce : List Byte, (nonce.length ≠ 48 → exec (.getMeas nonce) s = .next s) ∧
      (nonce.length = 48 →
        let m := nonce ++ leBytes 4 v.fused.toNat ++ leBytes 8 (health v).toNat ++ leBytes 4 v.capgen.toNat ++
          [1, 2, 3, 4].flatMap fun t => leBytes 2 t ++ leBytes 2 (bundleSvn v) ++ sha384 (component v.running t)
        exec (.getMeas nonce) s = .next (doe s (m ++ ecdsaSign (sha384 m))))) ∧
    (∀ o (data : List Byte), ((v.ready = true ∨ v.bootfail = true) → data.length ≤ 4096 →
        exec (.writeFw o data) s = .next (doe { s with service := { v with flashA := Mem.write v.flashA o data } } [0])) ∧
      ((v.ready = false ∧ v.bootfail = false) ∨ 4096 < data.length → exec (.writeFw o data) s = .next (doe s [1]))) ∧
    (∀ r : Readings, (s.htime < v.teltick.toNat + 2 ^ 20 → exec (.telemetryUpdate r) s = .next s) ∧
      (v.teltick.toNat + 2 ^ 20 ≤ s.htime → ∃ t, exec (.telemetryUpdate r) s = .next t ∧ t = { s with service := t.service } ∧
        t.service.pwr = BitVec.ofNat 32 r.power ∧ t.service.energy = v.energy + BitVec.ofNat 64 r.energy ∧
        t.service.teltick = BitVec.ofNat 64 s.htime ∧
        let limit := v.plim.toNat * 1000
        let p := t.service.pwr.toNat
        (limit < p → t.service.powerClamp = if v.powerClamp < 2 then v.powerClamp + 1 else 2) ∧
        (p ≤ limit → limit * 95 ≤ p * 100 → t.service.powerClamp = v.powerClamp) ∧
        (p * 100 < limit * 95 → v.coolPeriods ≠ 7 → t.service.powerClamp = v.powerClamp ∧ t.service.coolPeriods = v.coolPeriods + 1) ∧
        (p * 100 < limit * 95 → v.coolPeriods = 7 → t.service.coolPeriods = 0 ∧
          t.service.powerClamp = if v.powerClamp = 0 then 0 else v.powerClamp - 1))) ∧
    (∀ die temp, v.dies.contains die = true →
      (105 ≤ temp → ∃ t, exec (.thermalClamp die temp) s = .next t ∧ t.service.thermal = true ∧
        t.service.hot.any (fun e => e.1 == die) = true ∧ t = { s with service := { v with hot := t.service.hot, thermal := true } }) ∧
      (temp < 105 →
        let now := v.hot.find? (fun e => e.1 == die)
        ∃ t, exec (.thermalClamp die temp) s = .next t ∧
          t = { s with service := { v with hot := t.service.hot, thermal := !t.service.hot.isEmpty } } ∧
          (now = none → t.service.hot = v.hot) ∧
          (∀ e, now = some e → 95 ≤ temp → t.service.hot.find? (fun e => e.1 == die) = some (die, none)) ∧
          (∀ d, now = some (d, none) → temp < 95 → t.service.hot.find? (fun e => e.1 == die) = some (die, some s.htime)) ∧
          (∀ d τ, now = some (d, some τ) → temp < 95 →
            t.service.hot = if τ + 2 ^ 20 ≤ s.htime then v.hot.filter (fun e => e.1 != die) else v.hot)) ∧
      (115 ≤ temp → v.fatal = false → ∃ t, exec (.thermalShutdown die temp) s = .next t ∧ t.service.fatal = true ∧
        ∀ rid, let r := getRegion s rid
          r.state = .loaded → r.stopped = false → r.freezeAt = none →
            (getRegion t rid).freezeAt = some (s.htime + 1 + signalDelay r)) ∧
      (temp < 115 ∨ v.fatal = true → exec (.thermalShutdown die temp) s = .next s) ∧
      (∀ c p router, c < 320 → physicalCol s die (c / 16) (c % 16) = some p → p < 17 →
        ∃ t, exec (.clusterFailing die c router) s = .next t ∧ t = { s with service := { v with failing := t.service.failing } } ∧
          (t.service.failing.contains (die, c / 16, p) = true ∨ v.mapped.contains (die, c / 16, p) = true) ∧
          (router = true → ∀ q < 17, t.service.failing.contains (die, c / 16, q) = true ∨ v.mapped.contains (die, c / 16, q) = true))) ∧
    (∀ die temp c router, v.dies.contains die = false → exec (.thermalClamp die temp) s = .next s ∧
      exec (.thermalShutdown die temp) s = .next s ∧ exec (.clusterFailing die c router) s = .next s) ∧
    (∀ ix,
      let fails (bank : Bool) (die : Nat) (known : List Nat) (now : Service → List Nat) (cause : Nat) : Prop :=
        (die ∈ v.dies → ix ∉ known → ∃ t, exec (.memoryFailure bank ix) s = .next t ∧ now t.service = known ++ [ix] ∧
          t.service.degraded = true ∧ t.service.rcause.getLsbD cause = true) ∧
        (die ∉ v.dies ∨ ix ∈ known → exec (.memoryFailure bank ix) s = .next s)
      fails true (ix / 128) v.failedBanks Service.failedBanks 3 ∧ fails false (ix / 64) v.failedChannels Service.failedChannels 2) ∧
    ∀ p, (p < 6 → s.link.ethUp.getLsbD p = true → ∃ t, exec (.ethernetPortDown p) s = .next t ∧
        t.link.ethUp = s.link.ethUp &&& ~~~(BitVec.ofNat 6 (2 ^ p)) ∧ t.service.degraded = true ∧ t.service.capgen = v.capgen + 1 ∧
        t.service.rcause.getLsbD 5 = true) ∧
      (6 ≤ p ∨ s.link.ethUp.getLsbD p = false → exec (.ethernetPortDown p) s = .next s)

/-- R16, R33, R34, R44, R141 to R144: a packet is delivered unless an earlier one of its source and destination is still
on its way: into the arrivals, into the capture buffer of a stopped region, or discarded for a reserved kind; a tile
packet takes lines of its cluster's pool first; an arriving token joins its key's oldest entry with an empty cell, or
opens an entry in its set's lowest free way, or waits, and later ones that find an entry go past it; one for a route
word's slot is discarded, and a stale one is counted (which of the two comes first is notes/assumptions/100.md's
reading); a token that cannot be placed and has waited 65,536 ticks with no entry of its set or of the overflow buffer
freed freezes its region with MATCH_OVERFLOW. -/
def Obligations.TokensArriveAndMatch : Prop :=
  ∀ (s : State) (c : Nat),
    let k := getCluster s c
    (∀ n p, s.net[n]? = some p → (s.net.take n).any (fun q => q.src == p.src && q.dst == p.dst) = false →
      let r := getRegion s p.region
      let u := { s with net := s.net.eraseIdx n }
      let v := if fromMemory p.src then setRegion u p.region { r with wdSeen := true } else u
      let y := getCluster v p.dst
      let a : Arrival := { region := p.region, src := p.src, tok := p.tok, data := p.data, since := s.htime }
      let ends (t : State) : Prop := exec (.packetRouting n) s = .next t
      let open_ : Prop := p.tok.kind ≠ .res6 ∧ p.tok.kind ≠ .res7
      (r.state = .free → ends u) ∧
      (r.state ≠ .free →
        (¬ open_ → ends (addDiscarded v p.region (nodeField r p.dst p.tok.dst.slot) 1)) ∧
        (open_ → isStopped s p.region = true → ends (setCluster v p.dst { y with capture := y.capture ++ [a] })) ∧
        (open_ → isStopped s p.region = false → ends (setCluster v p.dst { y with arrivals := y.arrivals ++ [a] })))) ∧
    (∀ n p q m, s.net[n]? = some p → m < n → s.net[m]? = some q → q.src = p.src → q.dst = p.dst →
      exec (.packetRouting n) s = .next s) ∧
    (∀ a rest, k.arrivals = a :: rest → a.data = none → a.tok.kind ≠ .marker →
      let r := getRegion s a.region
      let x := getSlot s c a.tok.dst.slot
      let node := nodeField r c a.tok.dst.slot
      let u := setCluster s c { k with arrivals := rest }
      let v := noteLast (channelToken u c a) a.region c a.tok
      let done (t : State) : Prop := ∀ i ∈ [Instr.tokenArrival c, .ejectionWaitPlacement c], exec i s = .next t
      (x.rw = true → done (addDiscarded u a.region node 1)) ∧
      (x.rw = false → isLive r a.tok.tag = false → done (addStale u a.region node 1)) ∧
      (x.rw = false → isLive r a.tok.tag = true →
        (∀ i, matchEntry k a = some i → done (joinEntry v c i a)) ∧
        (matchEntry k a = none → ∀ p, newPlace s c a = some p → done (openEntry v c a p)) ∧
        (matchEntry k a = none → newPlace s c a = none →
          exec (.ejectionWaitPlacement c) s = .next s ∧
          (rest = [] → exec (.tokenArrival c) s = .next s) ∧
          (∀ b more i, rest = b :: more → isPlain b = true → getSlot s c b.tok.dst.slot = x → x.rw = false →
            isLive (getRegion s b.region) b.tok.tag = true → matchEntry k b = some i →
            let w := setCluster s c { k with arrivals := a :: more }
            exec (.tokenArrival c) s = .next (joinEntry (noteLast (channelToken w c b) b.region c b.tok) c i b)) ∧
          (a.since + 65536 ≤ s.htime → r.freezeAt = none → isStopped s a.region = false →
            ∃ w d, exec (.matchOverflow c) s = .next w ∧
              w = raiseCause (faultFreeze s a.region) a.region aMATCH_OVERFLOW c a.tok.dst.slot
                (tagBits a.tok.tag a.tok.kind a.tok.flag) d) ∧
          (r.freezeAt ≠ none ∨ isStopped s a.region = true → exec (.matchOverflow c) s = .next s))) ∧
      (s.htime < a.since + 65536 → exec (.matchOverflow c) s = .next s)) ∧
    (∀ (rid : Nat) (t : Tok),
      let x := getSlot s c t.dst.slot
      noteLast s rid c t = if t.flag.last = true ∧ awaitsPacket s rid c t.dst.slot t.tag = false then
        setSlot s c t.dst.slot { x with last := x.last ||| BitVec.ofNat 4 (2 ^ t.dst.port.toNat) } else s) ∧
    (∀ (now : Nat) (gone : List Entry),
      let frees (a : Arrival) : Bool := gone.any fun e => match e.place with
        | .over _ => true
        | .way _ => setIndex e.slot e.tag == setIndex a.tok.dst.slot a.tok.tag
        | .bypass => false
      waitAnew now gone k = { k with arrivals := k.arrivals.map fun a => if frees a then { a with since := now } else a }) ∧
    (∀ a d rest, k.arrivals = a :: rest → a.data = some d →
      let h := handleOf a.tok.payload
      let x := getSlot s c a.tok.dst.slot
      let node := nodeField (getRegion s a.region) c a.tok.dst.slot
      let u := setCluster s c { k with arrivals := rest }
      (x.rw = true → exec (.tilePacketDelivery c) s = .next (addDiscarded u a.region node 1)) ∧
      (x.rw = false → isLive (getRegion s a.region) a.tok.tag = false →
        exec (.tilePacketDelivery c) s = .next (addStale u a.region node 1)) ∧
      (x.rw = false → isLive (getRegion s a.region) a.tok.tag = true →
        (allocLines s a.region c a.tok.tag h.lines = none → exec (.tilePacketDelivery c) s = .next s) ∧
        ∀ u b g, allocLines s a.region c a.tok.tag h.lines = some (u, b, g) →
          exec (.tilePacketDelivery c) s = .next (modCluster (markFull (writeLines u c b d) c b h.lines) c fun k =>
            { k with arrivals := k.arrivals.set 0 { a with data := none, tok := { a.tok with payload :=
              ({ h with base := b, gen := g.toNat, res := 0, owner := c % 512 } : Handle).word } } }))) ∧
    -- the key's entry, the ways of its set and the cells
    (∀ a i, matchEntry k a = some i → ∃ e, k.entries[i]? = some e ∧ e.region = a.region ∧ e.slot = a.tok.dst.slot ∧
      e.tag = a.tok.tag ∧ e.st = .part ∧ e.cells.getD a.tok.dst.port.toNat none = none ∧
      ∀ e' ∈ k.entries, e'.region = a.region → e'.slot = a.tok.dst.slot → e'.tag = a.tok.tag → e'.st = .part →
        e'.cells.getD a.tok.dst.port.toNat none = none → e.seq ≤ e'.seq) ∧
    (∀ n w, freeWay k n = some w → w < 8 ∧ (∀ e ∈ k.entries, e.inSet n = true → e.place ≠ .way w) ∧
      ∀ j < w, ∃ e ∈ k.entries, e.inSet n = true ∧ e.place = .way j)

/-- R27, R145 to R148, R236, R240, R241: a waiting firing is ready when its lines are full, an error firing when one is
stale; the dispatcher of an engine hands it the ready firing of the context next in turn, of its oldest colour, matched
first, which keeps its entry until the engine takes it and stays where it was when the engine passes it over; a match's
KEEP cells stay as an entry; a quad owner answers the firings that wait for its lines and serves their reads in order.
-/
def Obligations.FiringsBecomeReadyAndIssue : Prop :=
  ∀ (s : State) (c eng : Nat),
    let k := getCluster s c
    (s.service.fatal = true ∨ nextIssue s c eng = none → exec (.firingDispatch c eng) s = .next s) ∧
    (∀ i e, s.service.fatal = false → nextIssue s c eng = some i → k.entries[i]? = some e →
      let f := firingOf s c e
      let given := setCluster s c { k with entries := k.entries.modify i fun e => { e with st := .issued f.agent f.stale } }
      exec (.firingDispatch c eng) s = .next (sendToEngine given f)) ∧
    (∀ e, canIssue s c eng e = true ↔
      let x := getSlot s c e.slot
      x.occ = true ∧ x.rw = false ∧ (x.word.extractLsb' 125 3).toNat = eng ∧ isStopped s e.region = false ∧
      ((∃ n b, e.st = .ready n b) ∨ ∃ n b t, e.st = .held n b t ∧ t < s.htime) ∧
      boundReady s c x.word = true ∧ engineWaits s c eng e = false) ∧
    (∀ i, nextIssue s c eng = some i → ∃ e, k.entries[i]? = some e ∧ canIssue s c eng e = true ∧
      ∀ e' ∈ k.entries, canIssue s c eng e' = true → rankBelow (issueRank s c eng e') (issueRank s c eng e) = false) ∧
    ((∀ e ∈ k.entries, canIssue s c eng e = false) → nextIssue s c eng = none) ∧
    -- an engine takes a firing, or passes it over
    (∀ (f : Firing) (i : Nat) (e : Entry), f.cluster = c → issuedEntry k f = some i → k.entries[i]? = some e →
      takeFiring s f = noteFiring (modCluster (takeEntry (recordConsumed s c e) c i) c fun k =>
        { k with lastCtx := Tab.set 255 k.lastCtx (wordEcl f.word) f.tag.ctx.toNat }) f ∧
      requeue s f = setCluster s c { k with entries := k.entries.modify i fun e => { e with st := .held f.agent f.stale s.htime } }) ∧
    (∀ i e n j, (lineWaits k)[j]? = some i → k.entries[i]? = some e → e.st = .lines n →
      let w := (getSlot s c e.slot).word
      let toks := tokensOf e (wordPorts w)
      let hs := lineHandles s c w toks
      let st := match handlesAre s c hs with
        | .ready => Match.ready n false
        | .stale => .ready n (handlesAre s c (hs.filter fun e => (tileOperands s c w toks).contains e) == .stale)
        | .waiting => .lines n
      let u := setCluster s c (putEntry k i { e with st := st })
      exec (.tileOperandReady c j) s = .next u ∧
      ∀ owner m, (quadWaits s owner)[m]? = some (c, i) → exec (.quadLineStateQuery owner m) s = .next u) ∧
    -- a taken match leaves its KEEP cells behind (notes/assumptions/99.md)
    (∀ i (e : Entry), (∀ n b, e.st ≠ .ready n b) ∨ (∀ t, some t ∈ e.cells → t.flag.keep = false) →
      putEntry k i e = { k with entries := k.entries.set i e }) ∧
    (∀ i (e : Entry) n b t, e.st = .ready n b → some t ∈ e.cells → t.flag.keep = true →
      putEntry k i e = { k with entries := k.entries.set i { e with cells := keptCells e, st := .part } ++ [{ e with place := .bypass }] }) ∧
    (∀ (e : Entry) t, some t ∈ keptCells e ↔ some t ∈ e.cells ∧ t.flag.keep = true) ∧
    (k.quad = [] → exec (.quadReadServe c) s = .next s) ∧
    (∀ f rest, k.quad = f :: rest →
      let joins (g : Firing) : Bool := wordEcl f.word == 2 && wordEcl g.word == 2 && quadReads s c g == quadReads s c f
      exec (.quadReadServe c) s = .next ((f :: rest.filter joins).foldl (quadServed c)
        (setCluster s c { k with quad := rest.filter fun g => !(rest.filter joins).contains g }))) ∧
    (∀ f : Firing,
      let mine := (tileOperands s f.cluster f.word f.toks).filter fun e => tileCluster f.cluster (handleOf e.1) == c
      let g := { f with stale := f.stale || handlesAre s f.cluster mine == .stale }
      (nextOwner s f c = none → quadServed c s f = { s with issued := s.issued ++ [g] }) ∧
      ∀ o, nextOwner s f c = some o → quadServed c s f = setCluster s o { getCluster s o with quad := (getCluster s o).quad ++ [g] }) ∧
    (∀ f x, sendToEngine s f = x →
      let slot := getSlot s f.cluster f.slot
      let broken : Prop := slot.broken = true ∨ (wordRwi f.word ≠ 0 ∧ (getSlot s f.cluster (f.slot + 1)).broken = true)
      let illegal : Prop := slot.bad = true ∨ brokenByOpwr s f = true
      (broken → x = takeFiring (fireBroken s f) f) ∧ (¬ broken → illegal → x = takeFiring (fireIllegal s f) f) ∧
      (¬ broken → ¬ illegal → foreignTag slot f.tag = true → x = takeFiring (fireForeign s f) f) ∧
      (¬ broken → ¬ illegal → foreignTag slot f.tag = false →
        (quadOwners s f = [] → x = { s with issued := s.issued ++ [f] }) ∧
        ∀ o rest, quadOwners s f = o :: rest → x = modCluster (takeFiring s f) o fun k => { k with quad := k.quad ++ [f] }))

/-- R19, R21, R43, R96, R164, R171 to R174: a purge request is absorbed, fails the activation or raises a purge signal;
the irrevocable bit is set unless a purge is pending; raised flags join f7, or are counted or dropped; a frame access is
one step; a purge frees and quarantines its colour under the context's next generation and replays it; a failure
restamps it and reports it; a quarantined number comes back when its ticks have passed; a replay takes the context's
next colour on the old spawn line and sends its carried tokens again, or fails where a tile of theirs is stale. That
signals wait while their region is stopped is R374; that a failing replay has counted is notes/assumptions/106.md. -/
def Obligations.ColoursAtTheirHome : Prop :=
  ∀ (s : State) (rid : Nat) (t : Tag),
    let r := getRegion s rid
    let put (k : Colour) : State := setRegion s rid (setColour r t k)
    (isLive r t = false → exec (.purgeRequest rid t) s = .next s ∧ exec (.irrevocableHandshake rid t) s = .next s ∧
      (∀ fl, exec (.flagUpdate rid t fl) s = .next (addStale s rid 0 1)) ∧ ∀ q, exec (.frameRequest rid t q) s = .next s) ∧
    (∀ k, liveColour r t = some k →
      (isPending s r t = true → exec (.purgeRequest rid t) s = .next s ∧ exec (.irrevocableHandshake rid t) s = .next s ∧
        ∀ fl, exec (.flagUpdate rid t fl) s = .next s) ∧
      (isPending s r t = false →
        let st := spawnState s r t
        let raise (g : Signal) : State := raiseSignal (setSpawnState s r t (st ||| 0x80)) rid g
        exec (.irrevocableHandshake rid t) s = .next (put { k with irrev := true }) ∧
        (∀ fl, exec (.flagUpdate rid t fl) s = .next (put { k with flags := k.flags ||| fl })) ∧
        (irrevBelow r t = true → exec (.purgeRequest rid t) s = .next (raise (.fail t 1 ePOISON))) ∧
        (irrevBelow r t = false → st.testBit 6 = true → exec (.purgeRequest rid t) s = .next (raise (.fail t 4 ePOISON))) ∧
        (irrevBelow r t = false → st.testBit 6 = false → st % 4 = 3 →
          exec (.purgeRequest rid t) s = .next (raise (.fail t 3 ePOISON))) ∧
        (irrevBelow r t = false → st.testBit 6 = false → st % 4 ≠ 3 →
          exec (.purgeRequest rid t) s = .next (raise (.purge t true))) ∧
        ∀ g, (getRegion (raise g) rid).signals = r.signals ++ [(s.htime + signalDelay r, g)]) ∧
      (∀ (i : BitVec 3) (op : BitVec 2) (v : Word), i ≠ 7 →
        let old := k.f.toList.getD i.toNat 0
        let new := match op.toNat with | 0 => v | 1 => old ||| v | _ => old &&& ~~~v
        exec (.frameRequest rid t (.set i op v)) s = .next (put { k with f := k.f.set! i.toNat new })) ∧
      (∀ (op : BitVec 2) (v : Word),
        let new := match op.toNat with | 0 => v | 1 => f7 k ||| v | _ => f7 k &&& ~~~v
        let mode := new.extractLsb' 8 3
        exec (.frameRequest rid t (.set 7 op v)) s = .next
          (put { k with flags := new.extractLsb' 0 6, rmode := if mode.toNat ≤ 5 then mode else k.rmode })) ∧
      (∀ i p, exec (.frameRequest rid t (.get i p)) s = .next s) ∧
      exec (.frameRequest rid t (.flagsGet false)) s = .next s ∧
      exec (.frameRequest rid t (.flagsGet true)) s = .next (put { k with flags := 0 }) ∧
      ∀ m b mode, exec (.frameRequest rid t (.flagsClr m b mode)) s =
        .next (put { k with flags := k.flags &&& ~~~m, rmode := if b then mode else k.rmode })) ∧
    -- when signals take effect
    (let due (p : Signal → Bool) : Option Nat := r.signals.findIdx? fun g => decide (g.1 ≤ s.htime) && p g.2
     (isStopped s rid = true → exec (.purgeEffect rid) s = .next s ∧ exec (.activationFailEffect rid) s = .next s) ∧
     (due isPurge = none → exec (.purgeEffect rid) s = .next s) ∧
     (due isFail = none → exec (.activationFailEffect rid) s = .next s) ∧
     (∀ (i at_ : Nat) (replay : Bool), isStopped s rid = false → due isPurge = some i → r.signals[i]? = some (at_, .purge t replay) →
       exec (.purgeEffect rid) s =
         .next (purgeColour (setRegion s rid { r with signals := removeAt r.signals i }) rid t replay)) ∧
     ∀ (i at_ : Nat) (why code : BitVec 8), isStopped s rid = false → due isFail = some i →
       r.signals[i]? = some (at_, .fail t why code) →
       exec (.activationFailEffect rid) s =
         .next (failColour (setRegion s rid { r with signals := removeAt r.signals i }) rid t why code)) ∧
    -- what a purge and a failure do to a live colour
    (∀ k, liveColour r t = some k →
      let x := getCtx r t.ctx.toNat
      let new : Tag := { t with gen := x.gen + 1 }
      let gone (u : State) : Prop := (∀ e ∈ u.clusters, ∀ z ∈ e.2.entries, z.region = rid → z.tag ≠ t) ∧
        ∀ w ∈ u.waiters, w.firing.region = rid → w.firing.tag ≠ t
      (∀ replay,
        let u := purgeColour s rid t replay
        let y := getCtx (getRegion u rid) t.ctx.toNat
        gone u ∧ y.gen = x.gen + 1 ∧ y.live = x.live.filter (fun c => c.col != t.col) ∧ y.ptr = x.ptr ∧
        y.quarantine = x.quarantine ++ [(t.col, 65536)] ∧
        (replay = false → y.waiting = x.waiting) ∧
        (replay = true → y.waiting = x.waiting ++ [{ line := k.line, parent := k.parent, rmode := k.rmode0 }])) ∧
      ∀ why code,
        let u := failColour s rid t why code
        let y := getCtx (getRegion u rid) t.ctx.toNat
        gone u ∧ y.gen = x.gen + 1 ∧ y.ptr = x.ptr ∧ y.quarantine = x.quarantine ∧ y.waiting = x.waiting ∧
        y.live = (x.live.map fun c => if c.col = t.col then { c with gen := x.gen + 1 } else c).map
          (fun c => if c.succ = some t then { c with succ := some new } else c) ∧
        (getRegion u rid).failed = satInc r.failed) ∧
    -- quarantine, waits for a colour, replays
    (exec (.quarantineExpiry rid) s = .next (setRegion s rid
      { r with ctxs := (r.ctxs.map fun e => (e.1, { e.2 with quarantine := e.2.quarantine.filter fun q => q.2 != 0 })).filter
                 fun e => e.2 != Ctx.none })) ∧
    (∀ ctx : BitVec 8,
      let wake (e : Entry) : Entry :=
        if e.region = rid then { e with st := match e.st with | .held n b _ => .ready n b | x => x } else e
      (allocRefused (getCtx r ctx.toNat) = true → exec (.colourAllocation rid ctx) s = .next s) ∧
      (allocRefused (getCtx r ctx.toNat) = false → exec (.colourAllocation rid ctx) s = .next { s with
        clusters := s.clusters.map fun c => (c.1, { c.2 with entries := c.2.entries.map wake }) })) ∧
    ((∀ e ∈ r.ctxs, e.2.waiting = [] ∨ allocRefused e.2 = true) → exec (.replay rid) s = .next s) ∧
    (isStopped s rid = true → exec (.replay rid) s = .next s) ∧
    (∀ ctx x w rest, r.ctxs.find? (fun e => !e.2.waiting.isEmpty && !allocRefused e.2) = some (ctx, x) →
      x.waiting = w :: rest → isStopped s rid = false → getCtx r ctx = x → ctx < 256 →
      let a := spawnAddr s r ctx w.line
      let tag : Tag := { ctx := BitVec.ofNat 8 ctx, col := x.ptr, gen := x.gen }
      ∃ v k, exec (.replay rid) s = .next
          (if carriedFresh v ((homeOf v (getRegion s rid) ctx).getD 0) a then resend v rid tag a
           else requestFail v rid tag 2 eREPLAY_STALE) ∧
        (getRegion v rid).replays = satInc r.replays ∧
        getCtx (getRegion v rid) ctx = { x with waiting := rest, ptr := x.ptr + 1, live := x.live ++ [k] } ∧
        k.col = x.ptr ∧ k.gen = x.gen ∧ k.line = w.line ∧ k.parent = w.parent ∧ k.rmode = w.rmode ∧ k.flags = 0 ∧
        k.irrev = false ∧ k.key.toNat = peek s (a + 12) 2 % 4096 ∧
        (∀ i : Fin 7, k.f[i].toNat = peek s (a + 48 + 8 * i.val) 8) ∧
        peek v (a + 7) 1 % 4 = min 3 (peek s (a + 7) 1 % 4 + 1) ∧ (peek v (a + 7) 1).testBit 5 = false ∧
        ∀ b, b ≠ a + 7 → Mem.byte v.mem b = Mem.byte s.mem b)

/-- R35, R38, R168, R180: a configuration packet passes mapped-out clusters, counts down at the others and is taken at
zero, waits for its slot and replaces the predecessor once that is done, a node with a route word with both its packets
at once; while its region is stopped it goes on waiting; a wait of 2^24 ticks at an occupied slot raises SPLICE_BLOCKED
once, with the slot's node and the image's address. R71, R121, R159, R170, R177: a SRC stream emits its next value, the
last with LAST, under a colour of its own with XFM new, and waits while its region is stopped or a stream of its ORD
node is ahead; equal digests let the primary's token pass and unequal ones, or none in 2^20 ticks, purge the strand, or
fail it where CMPX purged it before for the key or it cannot be replayed; a marker saves its node or joins the ports
that have theirs, one of no epoch in progress is discarded and counted, and MARK's inputs and nodes that have forwarded
take none; a sink token enters its ring in order, waking the region's threads, or waits while 1,024 stand there. -/
def Obligations.FabricEventsAct : Prop :=
  -- Config Packets Take Their Slots
  (∀ (s : State) (c : Nat),
      (∀ n h, s.hops[n]? = some h →
        let drop : State := { s with hops := s.hops.eraseIdx n }
        let out := s.service.mapped.contains (h.die, h.row, h.col)
        let before := (s.service.mapped.filter fun m => m.1 == h.die && m.2.1 == h.row && decide (m.2.2 < h.col)).length
        (17 ≤ h.col → exec (.configPacketHop n) s = .next drop) ∧
        (h.col < 17 → out = true → exec (.configPacketHop n) s = .next { s with hops := s.hops.set n { h with col := h.col + 1 } }) ∧
        (h.col < 17 → out = false → h.count ≠ 0 →
          exec (.configPacketHop n) s = .next { s with hops := s.hops.set n { h with col := h.col + 1, count := h.count - 1 } }) ∧
        (h.col < 17 → out = false → h.count = 0 →
          let at_ := clusterKey h.die (16 * h.row + (h.col - before))
          let x := getSlot s at_ h.slot
          exec (.configPacketHop n) s = .next (spliceInto
            (setSlot drop at_ h.slot { x with waiting := some h.what, since := s.htime, blocked := false }) at_
            (if h.what.rw then h.slot - 1 else h.slot)))) ∧
      ∀ slot,
        let x := getSlot s c slot
        let stopped := ((regionOf s c).map (isStopped s)).getD false
        (x.waiting = none → exec (.spliceReplacement c slot) s = .next s ∧ exec (.spliceTimeLimit c slot) s = .next s) ∧
        (regionOf s c = none → exec (.spliceTimeLimit c slot) s = .next s) ∧
        ∀ w, x.waiting = some w →
          exec (.spliceReplacement c slot) s = .next (spliceInto s c (if w.rw then slot - 1 else slot)) ∧
          (stopped = true → exec (.spliceReplacement c slot) s = .next s ∧ exec (.spliceTimeLimit c slot) s = .next s) ∧
          (w.rw = false → slotDone s c slot = false → exec (.spliceReplacement c slot) s = .next s) ∧
          (stopped = false → w.rw = false → slotDone s c slot = true → wordRwi w.word = 0 →
            exec (.spliceReplacement c slot) s = .next (installConfig (vacateFor s c slot) c slot w)) ∧
          (w.rw = false → wordRwi w.word ≠ 0 → (getSlot s c (slot + 1)).waiting = none →
            exec (.spliceReplacement c slot) s = .next s) ∧
          (∀ v, w.rw = false → wordRwi w.word ≠ 0 → (getSlot s c (slot + 1)).waiting = some v → v.rw = true →
            (slotDone s c (slot + 1) = false → exec (.spliceReplacement c slot) s = .next s) ∧
            (stopped = false → slotDone s c slot = true → slotDone s c (slot + 1) = true →
              exec (.spliceReplacement c slot) s = .next
                (installConfig (installConfig (vacateFor (vacateFor s c slot) c (slot + 1)) c (slot + 1) v) c slot w))) ∧
          (x.blocked = true ∨ (x.occ = false ∧ x.rw = false) ∨ s.htime < x.since + 2 ^ 24 →
            exec (.spliceTimeLimit c slot) s = .next s) ∧
          ∀ rid, regionOf s c = some rid → isStopped s rid = false → x.occ = true ∨ x.rw = true → x.blocked = false →
            x.since + 2 ^ 24 ≤ s.htime →
            exec (.spliceTimeLimit c slot) s = .next (raiseCause (setSlot s c slot { x with blocked := true }) rid aSPLICE_BLOCKED
              c slot 0 (leBytes 1 2 ++ leBytes 3 0 ++ leBytes 4 (nodeField (getRegion s rid) c slot) ++
                leBytes 8 (getRegion s rid).imageAt.toNat))) ∧
  -- Fabric Events Act
  (∀ (s : State) (c : Nat),
      let k := getCluster s c
      (∀ n st, k.streams[n]? = some st →
        let f := st.firing
        let o := streamOp st
        let x : Xfm := if o.xfm = .new then .new else .keep
        let last := decide (st.left = 1)
        let ahead := (k.streams.take n).any fun y =>
          f.word.getLsbD 101 && y.firing.slot == f.slot && y.firing.region == f.region && y.firing.cluster == f.cluster
        (isStopped s f.region = true ∨ ahead = true → exec (.srcStreamEmit c n) s = .next s) ∧
        (tagUnder s f x = .refused → exec (.srcStreamEmit c n) s = .next s) ∧
        ∀ tg, isStopped s f.region = false → ahead = false → tagUnder s f x = tg → tg ≠ .refused →
          let v := match tg with | .tag v _ => v | _ => s
          let u := emit v f o x tg (outTo (destinations s f o) .scalar { Flag.none with last := last }
            (narrow o.fmt (st.next.toNat % 2 ^ fmtBits o.fmt))) 0 0
          exec (.srcStreamEmit c n) s = .next (modCluster u c fun k =>
            { k with streams := if last then k.streams.eraseIdx n
                                else k.streams.set n { st with left := st.left - 1, next := st.next + o.imm.signExtend 64 } })) ∧
      (∀ n w, k.cmpx[n]? = some w →
        let f := w.firing
        let rest : Cluster := { k with cmpx := k.cmpx.eraseIdx n }
        let ahead := (k.cmpx.take n).any fun y =>
          f.word.getLsbD 101 && y.firing.slot == f.slot && y.firing.region == f.region && y.firing.cluster == f.cluster
        (digestFor s w = none ∨ ahead = true → exec (.cmpxDigestArrival c n) s = .next s) ∧
        (∀ j d, ahead = false → digestFor s w = some j → s.digests[j]? = some d →
          let u := setCluster { s with digests := s.digests.eraseIdx j } c rest
          (d.digest = w.digest → ∀ p, (getRegion s f.region).twin = some (p, true) → exec (.cmpxDigestArrival c n) s = .next
            (emit u f (rawOp f.word) .keep (.tag u f.tag) (passTo (destinations u f (rawOp f.word)) (tokAt f 0)) 0 0)) ∧
          (d.digest = w.digest → (∀ p, (getRegion s f.region).twin ≠ some (p, true)) → exec (.cmpxDigestArrival c n) s = .next u) ∧
          (d.digest ≠ w.digest → exec (.cmpxDigestArrival c n) s = .next (cmpxFail u w (some d.digest)))) ∧
        (s.htime < w.since + 2 ^ 20 → exec (.cmpxTimeout c n) s = .next s) ∧
        (w.since + 2 ^ 20 ≤ s.htime → exec (.cmpxTimeout c n) s = .next (cmpxFail (setCluster s c rest) w none))) ∧
      (∀ (w : Cmpx) (other : Option Nat),
        let f := w.firing
        let r := getRegion s f.region
        let st := spawnState s r f.tag
        (liveColour r f.tag = none → cmpxFail s w other = s) ∧
        ∀ x, liveColour r f.tag = some x →
          let mark := (f.tag.ctx, x.key, w.key)
          let replayable := !r.twinPurges.contains mark && !irrevBelow r f.tag && !st.testBit 6 && decide (st % 4 ≠ 3)
          (replayable = true → cmpxFail s w other =
            requestPurge (setRegion s f.region { r with twinPurges := r.twinPurges ++ [mark] }) f.region f.tag) ∧
          (replayable = false → ∀ p, r.twin = some (p, true) → p ≠ f.region →
            let digest (d : Option Nat) : Nat := ((d.map Config.digest8).getD 0).toNat
            let detail := leBytes 1 f.region ++ leBytes 1 p ++ leBytes 1 f.tag.ctx.toNat ++ leBytes 5 0 ++ leBytes 8 w.key.toNat ++
              leBytes 8 (digest (some w.digest)) ++ leBytes 8 (digest other)
            let a := raiseCause s f.region aTWIN_MISMATCH f.cluster f.slot (tagBits f.tag .scalar Flag.none) detail
            let b := raiseTo a (getRegion s p).owner aTWIN_MISMATCH p (twinNode a f p) 0 detail
            cmpxFail s w other = requestFail b f.region f.tag
              (if irrevBelow r f.tag then 1 else if st.testBit 6 then 4 else 3) ePOISON)) ∧
      (firstArrival k (fun a => a.tok.kind == .marker) = none → exec (.markerArrival c) s = .next s) ∧
      (∀ i a, firstArrival k (fun a => a.tok.kind == .marker) = some i → k.arrivals[i]? = some a →
        let u := dropArrival s c i
        let slot := a.tok.dst.slot
        let x := getSlot s c slot
        let r := getRegion s a.region
        let bit : BitVec 4 := BitVec.ofNat 4 (2 ^ a.tok.dst.port.toNat)
        let isMark : Prop := wordEcl x.word = 0 ∧ wordOpc x.word = 0x23
        let saved (v : State) (seen : BitVec 4) : State := modSnapshot v a.region fun p =>
          { p with saving := (p.saving.filter fun z => !(z.1 == c && z.2.1 == slot)) ++ [(c, slot, seen)] }
        (x.rw = true ∨ (¬ isMark ∧ r.snapshot.map Snapshot.epoch ≠ some a.tok.payload) →
          exec (.markerArrival c) s = .next (addDiscarded u a.region (nodeField r c slot) 1)) ∧
        (x.rw = false → isMark → exec (.markerArrival c) s = .next u) ∧
        (x.rw = false → ¬ isMark → r.snapshot.map Snapshot.epoch = some a.tok.payload →
          (forwarded r c slot = true → exec (.markerArrival c) s = .next u) ∧
          (forwarded r c slot = false → savingAt r c slot = none →
            exec (.markerArrival c) s = .next (saved (saveNode u a.region c slot) bit)) ∧
          ∀ z, forwarded r c slot = false → savingAt r c slot = some z →
            exec (.markerArrival c) s = .next (saved u (z.2.2 ||| bit)))) ∧
      ∀ rid, let r := getRegion s rid
        (r.sinkWait = [] ∨ 1024 ≤ r.sinks.length ∨ r.stopped = true → exec (.sinkRingEntry rid) s = .next s) ∧
        ∀ t rest, r.sinkWait = t :: rest → r.sinks.length < 1024 → r.stopped = false →
          ∃ u, exec (.sinkRingEntry rid) s = .next u ∧ (getRegion u rid) = { r with sinks := r.sinks ++ [t], sinkWait := rest } ∧
            u = { setRegion s rid (getRegion u rid) with threads := u.threads } ∧
            ∀ th, getThread u th = if th < 64 ∧ (getThread s th).region = r.handle then { getThread s th with wake := true }
              else getThread s th)

/-- R32, R44, R120, R374: a region stops on the tick that its freeze names, its tokens under way captured, and is FROZEN
once everything issued has drained, when the FREEZEs that wait end with that tick; it resumes on the tick that its thaw
names, when the THAWs end with that; a spanning region's signal is relayed, and a member out of reach loses the span,
freezes the region at the signal's tick and raises SPAN_LOST. -/
def Obligations.RegionsFreezeAndThaw : Prop :=
  ∀ (s : State) (rid : Nat),
    let r := getRegion s rid
    (∀ t, r.freezeAt = some t →
      (s.htime < t ∨ r.state ≠ .loaded ∨ r.stopped = true → exec (.freezeEffect rid) s = .next s) ∧
      (t ≤ s.htime → r.state = .loaded → r.stopped = false →
        let v := captureTokens (setRegion s rid { r with stopped := true, frozenAt := t, freezeAt := none, reports := [] }) rid
        (∀ p ∈ v.net, p.region ≠ rid) ∧ (∀ e ∈ v.clusters, ∀ a ∈ e.2.arrivals, a.region ≠ rid) ∧
        ∃ u, exec (.freezeEffect rid) s = .next u ∧
          u = abandonInjections (returnNacked (flushCombining v rid) rid) rid ∧
          (getRegion u rid).stopped = true ∧ (getRegion u rid).frozenAt = t ∧ (getRegion u rid).state = .loaded ∧
          (r.thawAt = none → (getRegion u rid).freezeAt = none))) ∧
    (r.freezeAt = none → r.state = .loaded → r.stopped = true → r.thawAt = none →
      (drained s rid = false → exec (.freezeEffect rid) s = .next s) ∧
      (drained s rid = true →
        let u := reissue (setRegion s rid { r with state := .frozen }) rid fun b => b == .graphTurn
        (getRegion u rid).state = .frozen ∧
        exec (.freezeEffect rid) s = .next ((waitingThreads u rid).foldl (fun v e => match e.2 with
          | .freeze rd => finishX (blockOn v e.1 .none) e.1 rd (BitVec.ofNat 64 r.frozenAt)
          | _ => v) u))) ∧
    (r.freezeAt = none → r.state ≠ .loaded ∨ r.stopped = false ∨ r.thawAt.isSome = true → exec (.freezeEffect rid) s = .next s) ∧
    (r.thawAt = none → exec (.thawEffect rid) s = .next s) ∧
    (∀ t, r.thawAt = some t →
      (s.htime < t ∨ r.state ≠ .loaded → exec (.thawEffect rid) s = .next s) ∧
      (t ≤ s.htime → r.state = .loaded →
        let ticks := t - r.frozenAt
        let a := agePackets (setRegion s rid { r with
          state := .loaded, stopped := false, thawAt := none, wdStart := r.wdStart + ticks,
          snapshot := r.snapshot.map fun p => { p with due := p.due + ticks } }) rid ticks
        let v := linkThaw (bankThaw (plumbThaw (raisePending (releaseHeld (thawTokens a rid) rid) rid) rid ticks) rid) rid
        ∃ u, exec (.thawEffect rid) s = .next u ∧
        u = (waitingThreads v rid).foldl (fun v e => match e.2 with
          | .thaw rd => finishX (blockOn v e.1 .none) e.1 rd (BitVec.ofNat 64 t)
          | _ => v) v ∧
        (getRegion u rid).stopped = false ∧ (getRegion u rid).thawAt = none ∧ (getRegion u rid).state = .loaded)) ∧
    ∀ reached,
      let t := signalTick r
      let v : State := { setRegion s rid { r with relayed := t } with sent := s.sent ++ [.relay rid t] }
      (r.span = [] ∨ t ≤ r.relayed → exec (.spanSignalRelay rid reached) s = .next s) ∧
      (r.span ≠ [] → r.relayed < t →
        (reached = true ∨ r.lost = true → exec (.spanSignalRelay rid reached) s = .next v) ∧
        (reached = false → r.lost = false →
          let runs := r.state == .loaded && (!r.stopped || r.thawAt.isSome)
          let tick := if runs then some (r.freezeAt.getD t) else r.freezeAt
          let u := setRegion v rid { r with relayed := t, lost := true, freezeAt := tick }
          ∀ e, e ∈ r.span → (r.span.find? fun e => bits e.2 15 4 != ownPackage && (portToward v (e.2.extractLsb' 4 12)).isNone)
              = some e →
            exec (.spanSignalRelay rid reached) s = .next (raiseRegion u rid aSPAN_LOST (leBytes 8 e.2.toNat))))

/-! ### Encodings, reset and steps -/

/-- R80 to R82, R107: words written out from the encodings of 03 decode to the instructions they stand for. -/
def Obligations.EncodingsDecodeToTheirInstructions : Prop :=
  decodeHawk 0x00430800#32 = .ok (.add 2 3 1) ∧ decodeHawk 0x702218D8#32 = .ok (.fdiv 1 2 3 .rdn false) ∧
  decodeHawk 0x702219C8#32 = .ok (.fcmpLt 1 2 3 false) ∧ decodeHawk 0x816A4860#32 = .ok (.atomSwap 11 10 9 .pkg false) ∧
  decodeHawk 0xC1AE0001#32 = .ok (.gload 13 14 true) ∧ decodeHawk 0xC9E08001#32 = .ok (.snkpop 15 16 true)

/-- R80 to R82: encoding and decoding agree on every Hawk word, in both directions: no word has two meanings and no
operand bit is lost. -/
def Obligations.HawkEncodingsRoundTrip : Prop :=
  (∀ (i : Instr) (w : BitVec 32), encodeHawk i = some w → decodeHawk w = .ok i) ∧
  (∀ (i : Instr) (w : BitVec 32), decodeHawk w = .ok i → encodeHawk i = some w) ∧
  ∀ (i : Instr) (bs rest : List Byte), (encodeHawk i).isSome = true → encode i = some bs →
    bs.length = 4 ∧ decodeHawkBytes (bs ++ rest) = .ok (i, rest)

/-- R70 to R73, R77: encoding and decoding agree on every operator word, in both directions; what decodes is well
formed. -/
def Obligations.OperatorEncodingsRoundTrip : Prop :=
  (∀ (i : Instr) (w : Word128), i.wellFormed = true → encodeOp i = some w → decodeOp w = .ok i) ∧
  (∀ (i : Instr) (w : Word128), decodeOp w = .ok i → encodeOp i = some w ∧ i.wellFormed = true) ∧
  ∀ (i : Instr) (bs rest : List Byte), i.wellFormed = true → (encodeOp i).isSome = true → encode i = some bs →
    bs.length = 16 ∧ decodeOpBytes (bs ++ rest) = .ok (i, rest)

/-- R46, R132: what package reset leaves: memory reads as zero with valid check bits and every bank word is plain; every
thread's registers are zero, in supervisor mode with IE clear, at HVEC with HCAUSE zero; thread 0 of each die runs and
the others wait; time is zero. -/
def Obligations.ResetLeavesTheStatedState : Prop :=
  let s := State.reset
  (∀ a, Mem.byte s.mem a = 0 ∧ Tab.get 0 s.chk a = 0 ∧ wordMode s a = .plain) ∧ s.htime = 0 ∧
  (∀ th < 64, let t := getThread s th
    (∀ r : Reg, t.getX r = 0 ∧ t.getD r = 0) ∧ t.mode = true ∧ t.ie = false ∧ t.vec = 0xFF00000000000000 ∧ t.pc = t.vec ∧
    t.cause = 0 ∧ t.timecmp = 0xFFFFFFFFFFFFFFFF ∧ t.halt = false ∧ t.wait = decide (th % 8 ≠ 0)) ∧
  (∀ c, (getCluster s c).entries = [] ∧ (∀ l, (getLine s c l).full = false ∧ (getLine s c l).gen = 0) ∧
    (getCluster s c).w0 = .unbound ∧ (getCluster s c).w1 = .unbound) ∧
  (∀ rid, (getRegion s rid).state = .free) ∧ ∀ n, (getCrew s n).gen = 0

/-- 04 R106, R114; 03 R77, R80: a step runs the instruction that decoding names. The word at a runnable thread's pc in
its core's SRAM decodes to i: the step is exec i, then the turn passes; a word that decodes to nothing takes the
illegal-encoding exception; a fetch from elsewhere gives its word, its trap or its wait; an issued operator word is
performed by exec of what it decodes to, and one that is no instruction as R77 says, and then its matched entry leaves
the store unless it was passed over; an event and a tick do what they are. That a misaligned pc traps MISALIGN is
notes/assumptions/109.md. -/
def Obligations.StepsRunTheDecodedInstruction : Prop :=
  ∀ (s : State),
    let after (x : Host.Outcome State Fault Refusal) : Host.Outcome State Fault Refusal :=
      match x with | .next t => .next (passTurn t) | .fault r => .fault r | .refused r => .refused r
    let performed (x : Host.Outcome State Fault Refusal) : Host.Outcome State Fault Refusal :=
      match x with | .next t => .next (passTurn (takeFiring t s.firing)) | .fault r => .fault r | .refused r => .refused r
    (∀ th, s.turn = .hawk th → runnable s.now = true → SramAt s s.now.pc 4 →
      let w : BitVec 32 := BitVec.ofNat 32 (leNat (Mem.read s.mem (sramOf s s.now.pc) 4))
      (∀ i, decodeHawk w = .ok i → step s = after (exec i s)) ∧
      (∀ e, decodeHawk w = .error e → step s = after (exec (.illegalEncoding w) s))) ∧
    (∀ th, s.turn = .hawk th → runnable s.now = true → s.now.pc.toNat % 4 ≠ 0 →
      step s = .next (passTurn (trap s th cMISALIGN 0 s.now.pc))) ∧
    (∀ th, s.turn = .hawk th → runnable (getThread s th) = true →
      (∀ u w, fetchWord s th = .ok u w → (∀ i, decodeHawk w = .ok i → step s = after (exec i u)) ∧
        ∀ e, decodeHawk w = .error e → step s = after (exec (.illegalEncoding w) u)) ∧
      (∀ c d v, fetchWord s th = .trap c d v → step s = .next (passTurn (trap s th c d v))) ∧
      ∀ u, fetchWord s th = .wait u → step s = .next (passTurn u)) ∧
    (∀ th, s.turn = .hawk th → runnable (getThread s th) = false → step s = .next (passTurn s)) ∧
    (s.turn = .firing → (∀ i, decodeOp s.firing.word = .ok i → step s = performed (exec i s)) ∧
      (∀ e, decodeOp s.firing.word = .error e →
        step s = .next (passTurn (takeFiring (fireIllegal s s.firing) s.firing)))) ∧
    (∀ i, s.turn = .event i → step s = after (exec i s)) ∧
    (s.turn = .tick → step s = .next (passTurn (tickTurn s)) ∧ (tickTurn s).htime = s.htime + 1)

/-- The schedule's invariant is kept by every step, from every state: the inbox holds only events from outside, nothing
is issued while another agent moves, and a Hawk moves only when it can perform a word (the model's schedule,
notes/assumptions/1.md). -/
def Obligations.EveryStepKeepsTheSchedule : Prop :=
  ∀ (s t : State), s.scheduled → step s = .next t → t.scheduled

/-- The schedule's invariant holds at reset (notes/assumptions/1.md). -/
def Obligations.ResetIsScheduled : Prop :=
  State.reset.scheduled

/-- 02 R46 with the model's table of bytes: a read after a write of the same bytes gives them, every other byte is as
before, and the canonical form is kept. -/
def Obligations.MemoryWritesAreReadBack : Prop :=
  ∀ (m : Tab Byte) (a : Nat) (bs : List Byte),
    Mem.read (Mem.write m a bs) a bs.length = bs ∧
    (∀ x, x < a ∨ a + bs.length ≤ x → Mem.byte (Mem.write m a bs) x = Mem.byte m x) ∧
    (Memory.wf m = true → Memory.wf (Mem.write m a bs) = true ∧
      ∀ m', Memory.wf m' = true → (∀ x, Mem.byte m' x = Mem.byte (Mem.write m a bs) x) → m' = Mem.write m a bs)
end

