-- ==== Sys2Proof/Laws/Decode.lean ====
section
/-! SUPPORT. The fields of an encoded word are the operands it was made of: what the decoder reads from each word format
of 03 R70 to R81. -/

namespace Sys2Proof

theorem toNat_append (n m : Nat) (x : BitVec n) (y : BitVec m) : (x ++ y).toNat = x.toNat * 2 ^ m + y.toNat := by
  rw [BitVec.toNat_append, Nat.shiftLeft_eq, Nat.mul_comm, ← Nat.two_pow_add_eq_or_of_lt y.isLt]

/-! ### The word formats as numbers -/

theorem baseWord_toNat (op : BitVec 6) (d a b : Reg) (fn : BitVec 11) :
    (baseWord op d a b fn).toNat = op.toNat * 2 ^ 26 + d.toNat * 2 ^ 21 + a.toNat * 2 ^ 16 + b.toNat * 2 ^ 11 + fn.toNat := by
  have h := toNat_append _ _ (op ++ d ++ a ++ b) fn
  rw [toNat_append _ _ (op ++ d ++ a) b, toNat_append _ _ (op ++ d) a, toNat_append _ _ op d] at h
  refine Eq.trans h ?_
  omega

theorem immWord_toNat (op : BitVec 6) (d a : Reg) (i : BitVec 16) :
    (immWord op d a i).toNat = op.toNat * 2 ^ 26 + d.toNat * 2 ^ 21 + a.toNat * 2 ^ 16 + i.toNat := by
  have h := toNat_append _ _ (op ++ d ++ a) i
  rw [toNat_append _ _ (op ++ d) a, toNat_append _ _ op d] at h
  refine Eq.trans h ?_
  omega

theorem jumpWord_toNat (op : BitVec 6) (off : BitVec 26) :
    (jumpWord op off).toNat = op.toNat * 2 ^ 26 + off.toNat := by
  have h := toNat_append _ _ (op) off
  refine Eq.trans h ?_
  omega

theorem fpuWord_toNat (d a b : Reg) (ffn : BitVec 5) (rm : BitVec 3) (sp : Bool) :
    (fpuWord d a b ffn rm sp).toNat = (0x1C#6).toNat * 2 ^ 26 + d.toNat * 2 ^ 21 + a.toNat * 2 ^ 16 + b.toNat * 2 ^ 11 + ffn.toNat * 2 ^ 6 + rm.toNat * 2 ^ 3 + (BitVec.ofBool sp).toNat * 2 ^ 2 + (0#2).toNat := by
  have h := toNat_append _ _ (0x1C#6 ++ d ++ a ++ b ++ ffn ++ rm ++ (BitVec.ofBool sp)) 0#2
  rw [toNat_append _ _ (0x1C#6 ++ d ++ a ++ b ++ ffn ++ rm) (BitVec.ofBool sp), toNat_append _ _ (0x1C#6 ++ d ++ a ++ b ++ ffn) rm, toNat_append _ _ (0x1C#6 ++ d ++ a ++ b) ffn, toNat_append _ _ (0x1C#6 ++ d ++ a) b, toNat_append _ _ (0x1C#6 ++ d) a, toNat_append _ _ 0x1C#6 d] at h
  refine Eq.trans h ?_
  omega

theorem ffmaWord_toNat (d a b c : Reg) (rm : BitVec 3) (sp : Bool) :
    (ffmaWord d a b c rm sp).toNat = (0x1D#6).toNat * 2 ^ 26 + d.toNat * 2 ^ 21 + a.toNat * 2 ^ 16 + b.toNat * 2 ^ 11 + c.toNat * 2 ^ 6 + rm.toNat * 2 ^ 3 + (BitVec.ofBool sp).toNat * 2 ^ 2 + (0#2).toNat := by
  have h := toNat_append _ _ (0x1D#6 ++ d ++ a ++ b ++ c ++ rm ++ (BitVec.ofBool sp)) 0#2
  rw [toNat_append _ _ (0x1D#6 ++ d ++ a ++ b ++ c ++ rm) (BitVec.ofBool sp), toNat_append _ _ (0x1D#6 ++ d ++ a ++ b ++ c) rm, toNat_append _ _ (0x1D#6 ++ d ++ a ++ b) c, toNat_append _ _ (0x1D#6 ++ d ++ a) b, toNat_append _ _ (0x1D#6 ++ d) a, toNat_append _ _ 0x1D#6 d] at h
  refine Eq.trans h ?_
  omega

/-! ### Their fields -/

@[simp] theorem hOp_baseWord (op : BitVec 6) (d a b : Reg) (fn : BitVec 11) : hOp (baseWord op d a b fn) = op := by
  apply BitVec.eq_of_toNat_eq
  have := op.isLt; have := d.isLt; have := a.isLt; have := b.isLt; have := fn.isLt
  simp only [hOp, BitVec.extractLsb'_toNat, baseWord_toNat, Nat.shiftRight_eq_div_pow]
  omega

@[simp] theorem hRd_baseWord (op : BitVec 6) (d a b : Reg) (fn : BitVec 11) : hRd (baseWord op d a b fn) = d := by
  apply BitVec.eq_of_toNat_eq
  have := op.isLt; have := d.isLt; have := a.isLt; have := b.isLt; have := fn.isLt
  simp only [hRd, BitVec.extractLsb'_toNat, baseWord_toNat, Nat.shiftRight_eq_div_pow]
  omega

@[simp] theorem hRa_baseWord (op : BitVec 6) (d a b : Reg) (fn : BitVec 11) : hRa (baseWord op d a b fn) = a := by
  apply BitVec.eq_of_toNat_eq
  have := op.isLt; have := d.isLt; have := a.isLt; have := b.isLt; have := fn.isLt
  simp only [hRa, BitVec.extractLsb'_toNat, baseWord_toNat, Nat.shiftRight_eq_div_pow]
  omega

@[simp] theorem hRb_baseWord (op : BitVec 6) (d a b : Reg) (fn : BitVec 11) : hRb (baseWord op d a b fn) = b := by
  apply BitVec.eq_of_toNat_eq
  have := op.isLt; have := d.isLt; have := a.isLt; have := b.isLt; have := fn.isLt
  simp only [hRb, BitVec.extractLsb'_toNat, baseWord_toNat, Nat.shiftRight_eq_div_pow]
  omega

@[simp] theorem hFn_baseWord (op : BitVec 6) (d a b : Reg) (fn : BitVec 11) : hFn (baseWord op d a b fn) = fn := by
  apply BitVec.eq_of_toNat_eq
  have := op.isLt; have := d.isLt; have := a.isLt; have := b.isLt; have := fn.isLt
  simp only [hFn, BitVec.extractLsb'_toNat, baseWord_toNat, Nat.shiftRight_eq_div_pow]
  omega

@[simp] theorem hOp_immWord (op : BitVec 6) (d a : Reg) (i : BitVec 16) : hOp (immWord op d a i) = op := by
  apply BitVec.eq_of_toNat_eq
  have := op.isLt; have := d.isLt; have := a.isLt; have := i.isLt
  simp only [hOp, BitVec.extractLsb'_toNat, immWord_toNat, Nat.shiftRight_eq_div_pow]
  omega

@[simp] theorem hRd_immWord (op : BitVec 6) (d a : Reg) (i : BitVec 16) : hRd (immWord op d a i) = d := by
  apply BitVec.eq_of_toNat_eq
  have := op.isLt; have := d.isLt; have := a.isLt; have := i.isLt
  simp only [hRd, BitVec.extractLsb'_toNat, immWord_toNat, Nat.shiftRight_eq_div_pow]
  omega

@[simp] theorem hRa_immWord (op : BitVec 6) (d a : Reg) (i : BitVec 16) : hRa (immWord op d a i) = a := by
  apply BitVec.eq_of_toNat_eq
  have := op.isLt; have := d.isLt; have := a.isLt; have := i.isLt
  simp only [hRa, BitVec.extractLsb'_toNat, immWord_toNat, Nat.shiftRight_eq_div_pow]
  omega

@[simp] theorem hImm_immWord (op : BitVec 6) (d a : Reg) (i : BitVec 16) : hImm (immWord op d a i) = i := by
  apply BitVec.eq_of_toNat_eq
  have := op.isLt; have := d.isLt; have := a.isLt; have := i.isLt
  simp only [hImm, BitVec.extractLsb'_toNat, immWord_toNat, Nat.shiftRight_eq_div_pow]
  omega

@[simp] theorem hOp_jumpWord (op : BitVec 6) (off : BitVec 26) : hOp (jumpWord op off) = op := by
  apply BitVec.eq_of_toNat_eq
  have := op.isLt; have := off.isLt
  simp only [hOp, BitVec.extractLsb'_toNat, jumpWord_toNat, Nat.shiftRight_eq_div_pow]
  omega

@[simp] theorem hOff_jumpWord (op : BitVec 6) (off : BitVec 26) : hOff (jumpWord op off) = off := by
  apply BitVec.eq_of_toNat_eq
  have := op.isLt; have := off.isLt
  simp only [hOff, BitVec.extractLsb'_toNat, jumpWord_toNat, Nat.shiftRight_eq_div_pow]
  omega

@[simp] theorem hOp_fpuWord (d a b : Reg) (ffn : BitVec 5) (rm : BitVec 3) (sp : Bool) : hOp (fpuWord d a b ffn rm sp) = 0x1C#6 := by
  apply BitVec.eq_of_toNat_eq
  have := d.isLt; have := a.isLt; have := b.isLt; have := ffn.isLt; have := rm.isLt
  have := (BitVec.ofBool sp).isLt
  simp only [hOp, BitVec.extractLsb'_toNat, fpuWord_toNat, Nat.shiftRight_eq_div_pow, BitVec.toNat_ofNat]
  omega

@[simp] theorem hRd_fpuWord (d a b : Reg) (ffn : BitVec 5) (rm : BitVec 3) (sp : Bool) : hRd (fpuWord d a b ffn rm sp) = d := by
  apply BitVec.eq_of_toNat_eq
  have := d.isLt; have := a.isLt; have := b.isLt; have := ffn.isLt; have := rm.isLt
  have := (BitVec.ofBool sp).isLt
  simp only [hRd, BitVec.extractLsb'_toNat, fpuWord_toNat, Nat.shiftRight_eq_div_pow, BitVec.toNat_ofNat]
  omega

@[simp] theorem hRa_fpuWord (d a b : Reg) (ffn : BitVec 5) (rm : BitVec 3) (sp : Bool) : hRa (fpuWord d a b ffn rm sp) = a := by
  apply BitVec.eq_of_toNat_eq
  have := d.isLt; have := a.isLt; have := b.isLt; have := ffn.isLt; have := rm.isLt
  have := (BitVec.ofBool sp).isLt
  simp only [hRa, BitVec.extractLsb'_toNat, fpuWord_toNat, Nat.shiftRight_eq_div_pow, BitVec.toNat_ofNat]
  omega

@[simp] theorem hRb_fpuWord (d a b : Reg) (ffn : BitVec 5) (rm : BitVec 3) (sp : Bool) : hRb (fpuWord d a b ffn rm sp) = b := by
  apply BitVec.eq_of_toNat_eq
  have := d.isLt; have := a.isLt; have := b.isLt; have := ffn.isLt; have := rm.isLt
  have := (BitVec.ofBool sp).isLt
  simp only [hRb, BitVec.extractLsb'_toNat, fpuWord_toNat, Nat.shiftRight_eq_div_pow, BitVec.toNat_ofNat]
  omega

@[simp] theorem hRc_fpuWord (d a b : Reg) (ffn : BitVec 5) (rm : BitVec 3) (sp : Bool) : hRc (fpuWord d a b ffn rm sp) = ffn := by
  apply BitVec.eq_of_toNat_eq
  have := d.isLt; have := a.isLt; have := b.isLt; have := ffn.isLt; have := rm.isLt
  have := (BitVec.ofBool sp).isLt
  simp only [hRc, BitVec.extractLsb'_toNat, fpuWord_toNat, Nat.shiftRight_eq_div_pow, BitVec.toNat_ofNat]
  omega

@[simp] theorem hRm_fpuWord (d a b : Reg) (ffn : BitVec 5) (rm : BitVec 3) (sp : Bool) : hRm (fpuWord d a b ffn rm sp) = rm := by
  apply BitVec.eq_of_toNat_eq
  have := d.isLt; have := a.isLt; have := b.isLt; have := ffn.isLt; have := rm.isLt
  have := (BitVec.ofBool sp).isLt
  simp only [hRm, BitVec.extractLsb'_toNat, fpuWord_toNat, Nat.shiftRight_eq_div_pow, BitVec.toNat_ofNat]
  omega

@[simp] theorem hLow_fpuWord (d a b : Reg) (ffn : BitVec 5) (rm : BitVec 3) (sp : Bool) : hLow (fpuWord d a b ffn rm sp) = 0#2 := by
  apply BitVec.eq_of_toNat_eq
  have := d.isLt; have := a.isLt; have := b.isLt; have := ffn.isLt; have := rm.isLt
  have := (BitVec.ofBool sp).isLt
  simp only [hLow, BitVec.extractLsb'_toNat, fpuWord_toNat, Nat.shiftRight_eq_div_pow, BitVec.toNat_ofNat]
  omega

@[simp] theorem hOp_ffmaWord (d a b c : Reg) (rm : BitVec 3) (sp : Bool) : hOp (ffmaWord d a b c rm sp) = 0x1D#6 := by
  apply BitVec.eq_of_toNat_eq
  have := d.isLt; have := a.isLt; have := b.isLt; have := c.isLt; have := rm.isLt
  have := (BitVec.ofBool sp).isLt
  simp only [hOp, BitVec.extractLsb'_toNat, ffmaWord_toNat, Nat.shiftRight_eq_div_pow, BitVec.toNat_ofNat]
  omega

@[simp] theorem hRd_ffmaWord (d a b c : Reg) (rm : BitVec 3) (sp : Bool) : hRd (ffmaWord d a b c rm sp) = d := by
  apply BitVec.eq_of_toNat_eq
  have := d.isLt; have := a.isLt; have := b.isLt; have := c.isLt; have := rm.isLt
  have := (BitVec.ofBool sp).isLt
  simp only [hRd, BitVec.extractLsb'_toNat, ffmaWord_toNat, Nat.shiftRight_eq_div_pow, BitVec.toNat_ofNat]
  omega

@[simp] theorem hRa_ffmaWord (d a b c : Reg) (rm : BitVec 3) (sp : Bool) : hRa (ffmaWord d a b c rm sp) = a := by
  apply BitVec.eq_of_toNat_eq
  have := d.isLt; have := a.isLt; have := b.isLt; have := c.isLt; have := rm.isLt
  have := (BitVec.ofBool sp).isLt
  simp only [hRa, BitVec.extractLsb'_toNat, ffmaWord_toNat, Nat.shiftRight_eq_div_pow, BitVec.toNat_ofNat]
  omega

@[simp] theorem hRb_ffmaWord (d a b c : Reg) (rm : BitVec 3) (sp : Bool) : hRb (ffmaWord d a b c rm sp) = b := by
  apply BitVec.eq_of_toNat_eq
  have := d.isLt; have := a.isLt; have := b.isLt; have := c.isLt; have := rm.isLt
  have := (BitVec.ofBool sp).isLt
  simp only [hRb, BitVec.extractLsb'_toNat, ffmaWord_toNat, Nat.shiftRight_eq_div_pow, BitVec.toNat_ofNat]
  omega

@[simp] theorem hRc_ffmaWord (d a b c : Reg) (rm : BitVec 3) (sp : Bool) : hRc (ffmaWord d a b c rm sp) = c := by
  apply BitVec.eq_of_toNat_eq
  have := d.isLt; have := a.isLt; have := b.isLt; have := c.isLt; have := rm.isLt
  have := (BitVec.ofBool sp).isLt
  simp only [hRc, BitVec.extractLsb'_toNat, ffmaWord_toNat, Nat.shiftRight_eq_div_pow, BitVec.toNat_ofNat]
  omega

@[simp] theorem hRm_ffmaWord (d a b c : Reg) (rm : BitVec 3) (sp : Bool) : hRm (ffmaWord d a b c rm sp) = rm := by
  apply BitVec.eq_of_toNat_eq
  have := d.isLt; have := a.isLt; have := b.isLt; have := c.isLt; have := rm.isLt
  have := (BitVec.ofBool sp).isLt
  simp only [hRm, BitVec.extractLsb'_toNat, ffmaWord_toNat, Nat.shiftRight_eq_div_pow, BitVec.toNat_ofNat]
  omega

@[simp] theorem hLow_ffmaWord (d a b c : Reg) (rm : BitVec 3) (sp : Bool) : hLow (ffmaWord d a b c rm sp) = 0#2 := by
  apply BitVec.eq_of_toNat_eq
  have := d.isLt; have := a.isLt; have := b.isLt; have := c.isLt; have := rm.isLt
  have := (BitVec.ofBool sp).isLt
  simp only [hLow, BitVec.extractLsb'_toNat, ffmaWord_toNat, Nat.shiftRight_eq_div_pow, BitVec.toNat_ofNat]
  omega

@[simp] theorem hSp_fpuWord (d a b : Reg) (ffn : BitVec 5) (rm : BitVec 3) (sp : Bool) : hSp (fpuWord d a b ffn rm sp) = sp := by
  have h : (BitVec.ofBool sp).toNat = if sp then 1 else 0 := by cases sp <;> rfl
  rw [hSp, BitVec.getLsbD, Nat.testBit_eq_decide_div_mod_eq, fpuWord_toNat, h]
  cases sp <;> simp <;> omega

@[simp] theorem hSp_ffmaWord (d a b c : Reg) (rm : BitVec 3) (sp : Bool) : hSp (ffmaWord d a b c rm sp) = sp := by
  have h : (BitVec.ofBool sp).toNat = if sp then 1 else 0 := by cases sp <;> rfl
  rw [hSp, BitVec.getLsbD, Nat.testBit_eq_decide_div_mod_eq, ffmaWord_toNat, h]
  cases sp <;> simp <;> omega

end Sys2Proof
end

