-- ==== Sys2Proof/Laws/Fire.lean ====
section
/-! SUPPORT. What a firing does, once for every operator: error operands, refused colours, errors, results, waits. -/

namespace Sys2Proof.Machine

theorem performs_tag (s : State) (x : Xfm) (h : Performs s x) : tagUnder s s.firing x ≠ .refused := by
  intro e
  simp [Performs, e, TagIs.granted] at h

theorem performs_find (s : State) (x : Xfm) (h : Performs s x) : s.firing.toks.find? (fun t => t.kind == .error) = none := by
  simpa using h.2.2

/-- A firing that performs answers what its body does, in the state with its colour. -/
theorem fireTagged_performs (s : State) (o : Op) (x : Xfm) (errs : Firing → List (Nat × Dst)) (body : State → Firing → TagIs → Act)
    (h : Performs s x) :
    fireTagged s o x errs body =
      match body (s.coloured x) s.firing (tagUnder s s.firing x) with
      | .error code elem => emitError (s.coloured x) s.firing o x (tagUnder s s.firing x) (errs s.firing)
          (errorPayload (getRegion s s.firing.region) s.firing.cluster s.firing.slot elem code)
      | .done u outs raised elem => emit u s.firing o x (tagUnder s s.firing x) outs raised elem
      | .purge => requestPurge s s.firing.region s.firing.tag
      | .hold => requeue s s.firing
      | .later u => u := by
  have hf := performs_find s x h
  have hs := h.2.1
  have ht := performs_tag s x h
  rw [fireTagged, State.coloured]
  dsimp only
  generalize tagUnder s s.firing x = tg at ht ⊢
  rw [hf, hs]
  cases tg with
  | refused => exact absurd rfl ht
  | tag u t => dsimp only; generalize body u s.firing (.tag u t) = a; cases a <;> rfl
  | none => dsimp only; generalize body s s.firing .none = a; cases a <;> rfl
  | dead => dsimp only; generalize body s s.firing .dead = a; cases a <;> rfl

/-- The same for the operators that do not look at their results' tag. -/
theorem fire_performs (s : State) (o : Op) (body : State → Firing → Act) (h : Performs s o.xfm) :
    fire s o body =
      match body (s.coloured o.xfm) s.firing with
      | .error code elem => emitError (s.coloured o.xfm) s.firing o o.xfm (tagUnder s s.firing o.xfm)
          (destinations s s.firing o) (errorPayload (getRegion s s.firing.region) s.firing.cluster s.firing.slot elem code)
      | .done u outs raised elem => emit u s.firing o o.xfm (tagUnder s s.firing o.xfm) outs raised elem
      | .purge => requestPurge s s.firing.region s.firing.tag
      | .hold => requeue s s.firing
      | .later u => u := by
  rw [fire, fireWith, fireTagged_performs s o o.xfm _ _ h]

theorem fire_done (s : State) (o : Op) (body : State → Firing → Act) (h : Performs s o.xfm) (u : State) (outs : List Out)
    (raised : Flags) (elem : Nat) (hb : body (s.coloured o.xfm) s.firing = .done u outs raised elem) :
    fire s o body = emit u s.firing o o.xfm (tagUnder s s.firing o.xfm) outs raised elem := by
  rw [fire_performs s o body h, hb]

theorem fire_error (s : State) (o : Op) (body : State → Firing → Act) (h : Performs s o.xfm) (code : BitVec 8) (elem : Nat)
    (hb : body (s.coloured o.xfm) s.firing = .error code elem) :
    fire s o body = emitError (s.coloured o.xfm) s.firing o o.xfm (tagUnder s s.firing o.xfm) (destinations s s.firing o)
      (errorPayload (getRegion s s.firing.region) s.firing.cluster s.firing.slot elem code) := by
  rw [fire_performs s o body h, hb]

theorem fire_later (s : State) (o : Op) (body : State → Firing → Act) (h : Performs s o.xfm) (u : State)
    (hb : body (s.coloured o.xfm) s.firing = .later u) : fire s o body = u := by
  rw [fire_performs s o body h, hb]

theorem fire_hold (s : State) (o : Op) (body : State → Firing → Act) (h : Performs s o.xfm)
    (hb : body (s.coloured o.xfm) s.firing = .hold) : fire s o body = requeue s s.firing := by
  rw [fire_performs s o body h, hb]

theorem fire_purge (s : State) (o : Op) (body : State → Firing → Act) (h : Performs s o.xfm)
    (hb : body (s.coloured o.xfm) s.firing = .purge) : fire s o body = requestPurge s s.firing.region s.firing.tag := by
  rw [fire_performs s o body h, hb]

theorem emits_done (i : Instr) (s : State) (o : Op) (body : State → Firing → Act) (hi : exec i s = .next (fire s o body))
    (h : Performs s o.xfm) (u : State) (outs : List Out) (fl : Flags) (n : Nat)
    (hb : body (s.coloured o.xfm) s.firing = .done u outs fl n) : Emits i s o u outs fl n := by
  rw [Emits, hi, fire_done s o body h _ _ _ _ hb]

theorem emitsError_error (i : Instr) (s : State) (o : Op) (body : State → Firing → Act)
    (hi : exec i s = .next (fire s o body)) (h : Performs s o.xfm) (c : BitVec 8) (n : Nat)
    (hb : body (s.coloured o.xfm) s.firing = .error c n) : EmitsError i s o c n := by
  rw [EmitsError, hi, fire_error s o body h _ _ hb]

/-- A refused colour leaves the firing matched (01 R21). -/
theorem fireTagged_refused (s : State) (o : Op) (x : Xfm) (errs : Firing → List (Nat × Dst)) (body : State → Firing → TagIs → Act)
    (h : (tagUnder s s.firing x).granted = false) : fireTagged s o x errs body = requeue s s.firing := by
  rw [fireTagged]
  dsimp only
  generalize tagUnder s s.firing x = tg at h ⊢
  cases tg <;> simp_all [TagIs.granted]

/-- An error operand passes on, whatever the operator (01 R28). -/
theorem fireTagged_errorOperand (s : State) (o : Op) (x : Xfm) (errs : Firing → List (Nat × Dst))
    (body : State → Firing → TagIs → Act) (h : (tagUnder s s.firing x).granted = true) (t : Tok)
    (ht : s.firing.toks.find? (fun t => t.kind == .error) = some t) :
    fireTagged s o x errs body = emitError (s.coloured x) s.firing o x (tagUnder s s.firing x) (errs s.firing) t.payload := by
  rw [fireTagged, State.coloured]
  dsimp only
  generalize tagUnder s s.firing x = tg at h ⊢
  cases tg <;> simp_all [TagIs.granted]

/-- A firing put back changes nothing but its cluster's entries. -/
theorem requeue_frame (s : State) (f : Firing) :
    requeue s f = { s with clusters := (requeue s f).clusters } := rfl

/-- Under keep, tokens without flags join the network and nothing else happens before they are sent (01 R20). -/
theorem emit_keep (s : State) (f : Firing) (o : Op) (t : Tag) (outs : List Out) (n : Nat) :
    emit s f o .keep (.tag s t) outs 0 n =
      sendOuts s f (outs.map fun k => k.tok t (strandIrrev s f.region f.tag)) := by
  simp [emit, putFlags, flagsTrap]

/-- Under exit without a parent nothing is sent. -/
theorem emit_exit_none (s : State) (f : Firing) (o : Op) (outs : List Out) (n : Nat) :
    emit s f o .exit .none outs 0 n = s := by
  simp [emit, putFlags, flagsTrap, sendOuts]

end Sys2Proof.Machine
end

