-- ==== Sys2Proof/Laws/Tab.lean ====
section
/-! SUPPORT. Laws of sparse tables and of byte memory: what a read answers after a write, and that the canonical form is
kept. -/

namespace Sys2Proof.Machine

variable {α : Type}

theorem Tab.get_append (d : α) (t u : Tab α) (i : Nat) :
    Tab.get d (t ++ u) i = if t.any (fun e => e.1 == i) then Tab.get d t i else Tab.get d u i := by
  induction t with
  | nil => simp
  | cons e t ih =>
    obtain ⟨k, v⟩ := e
    by_cases h : k = i
    · simp [Tab.get, h]
    · have hb : (k == i) = false := beq_eq_false_iff_ne.mpr h
      simp only [List.cons_append, Tab.get, h, if_false, ih, List.any_cons, hb, Bool.false_or]

theorem Tab.get_filter_key (d : α) (t : Tab α) (p : Nat → Bool) (i : Nat) :
    Tab.get d (t.filter fun e => p e.1) i = if p i then Tab.get d t i else d := by
  induction t with
  | nil => simp [Tab.get]
  | cons e t ih =>
    obtain ⟨k, v⟩ := e
    by_cases h : k = i
    · subst h; by_cases hp : p k <;> simp [Tab.get, hp, ih]
    · by_cases hk : p k <;> simp [Tab.get, hk, h, ih]

theorem Tab.get_of_absent (d : α) (t : Tab α) (i : Nat) (h : t.any (fun e => e.1 == i) = false) : Tab.get d t i = d := by
  induction t with
  | nil => rfl
  | cons e t ih =>
    obtain ⟨k, v⟩ := e
    simp only [List.any_cons, Bool.or_eq_false_iff, beq_eq_false_iff_ne] at h
    simp [Tab.get, h.1, ih h.2]

theorem Tab.get_insert (d v : α) (t : Tab α) (i j : Nat) (h : t.any (fun e => e.1 == i) = false) :
    Tab.get d (Tab.insert i v t) j = if i = j then v else Tab.get d t j := by
  induction t with
  | nil => simp [Tab.insert, Tab.get]
  | cons e t ih =>
    obtain ⟨k, w⟩ := e
    simp only [List.any_cons, Bool.or_eq_false_iff, beq_eq_false_iff_ne] at h
    unfold Tab.insert
    by_cases hk : i < k
    · simp [hk, Tab.get]
    · by_cases hj : k = j
      · subst hj
        have hik : ¬ i = k := fun x => h.1 x.symm
        simp [hk, Tab.get, hik]
      · simp [hk, Tab.get, hj, ih h.2]

theorem Tab.absent_filter (t : Tab α) (i : Nat) : (t.filter fun e => e.1 != i).any (fun e => e.1 == i) = false := by
  simp [List.any_filter]

/-- A table after a write: the key written reads as the value, every other key as before. -/
theorem Tab.get_set [DecidableEq α] (d v : α) (t : Tab α) (i j : Nat) :
    Tab.get d (Tab.set d t i v) j = if i = j then v else Tab.get d t j := by
  unfold Tab.set
  have hf (j : Nat) : Tab.get d (t.filter fun e => e.1 != i) j = if i = j then d else Tab.get d t j := by
    rw [Tab.get_filter_key d t (fun k => k != i) j]
    by_cases h : i = j
    · simp [h]
    · have h' : ¬ j = i := fun x => h x.symm
      simp [h, h']
  by_cases hv : v = d
  · simp [hv, hf]
  · rw [if_neg hv, Tab.get_insert d v _ i j (Tab.absent_filter t i), hf]
    by_cases h : i = j <;> simp [h]

@[simp] theorem Tab.get_set_same [DecidableEq α] (d v : α) (t : Tab α) (i : Nat) : Tab.get d (Tab.set d t i v) i = v := by
  simp [Tab.get_set]

theorem Tab.get_set_other [DecidableEq α] (d v : α) (t : Tab α) {i j : Nat} (h : i ≠ j) :
    Tab.get d (Tab.set d t i v) j = Tab.get d t j := by
  simp [Tab.get_set, h]

/-! ### The canonical form -/

theorem Tab.wfFrom_mono [DecidableEq α] (d : α) (t : Tab α) (a b : Nat) (h : a ≤ b) (hw : Tab.wfFrom d b t = true) :
    Tab.wfFrom d a t = true := by
  cases t with
  | nil => rfl
  | cons e t =>
    obtain ⟨k, v⟩ := e
    simp only [Tab.wfFrom, Bool.and_eq_true, decide_eq_true_eq] at hw ⊢
    exact ⟨⟨by omega, hw.1.2⟩, hw.2⟩

theorem Tab.wfFrom_filter [DecidableEq α] (d : α) (p : Nat × α → Bool) (t : Tab α) (b : Nat)
    (hw : Tab.wfFrom d b t = true) : Tab.wfFrom d b (t.filter p) = true := by
  induction t generalizing b with
  | nil => rfl
  | cons e t ih =>
    obtain ⟨k, v⟩ := e
    simp only [Tab.wfFrom, Bool.and_eq_true, decide_eq_true_eq] at hw
    by_cases hp : p (k, v)
    · simp only [List.filter_cons, hp, if_true, Tab.wfFrom, Bool.and_eq_true, decide_eq_true_eq]
      exact ⟨hw.1, ih _ hw.2⟩
    · simp only [List.filter_cons, hp]
      exact Tab.wfFrom_mono d _ b (k + 1) (by omega) (ih _ hw.2)

theorem Tab.wfFrom_insert [DecidableEq α] (d v : α) (t : Tab α) (i b : Nat) (hv : v ≠ d) (hb : b ≤ i)
    (ha : t.any (fun e => e.1 == i) = false) (hw : Tab.wfFrom d b t = true) :
    Tab.wfFrom d b (Tab.insert i v t) = true := by
  induction t generalizing b with
  | nil => simp [Tab.insert, Tab.wfFrom, hb, hv]
  | cons e t ih =>
    obtain ⟨k, w⟩ := e
    simp only [Tab.wfFrom, Bool.and_eq_true, decide_eq_true_eq] at hw
    simp only [List.any_cons, Bool.or_eq_false_iff, beq_eq_false_iff_ne] at ha
    unfold Tab.insert
    by_cases hk : i < k
    · simp only [hk, if_true, Tab.wfFrom, Bool.and_eq_true, decide_eq_true_eq]
      exact ⟨⟨hb, hv⟩, ⟨by omega, hw.1.2⟩, hw.2⟩
    · simp only [hk, if_false, Tab.wfFrom, Bool.and_eq_true, decide_eq_true_eq]
      exact ⟨hw.1, ih (k + 1) (by have := ha.1; omega) ha.2 hw.2⟩

/-- A write keeps the canonical form of a table. -/
theorem Tab.wf_set [DecidableEq α] (d v : α) (t : Tab α) (i : Nat) (hw : Tab.wf d t = true) :
    Tab.wf d (Tab.set d t i v) = true := by
  unfold Tab.wf Tab.set at *
  by_cases hv : v = d
  · simpa [hv] using Tab.wfFrom_filter d _ t 0 hw
  · simpa [hv] using Tab.wfFrom_insert d v _ i 0 hv (Nat.zero_le i) (Tab.absent_filter t i) (Tab.wfFrom_filter d _ t 0 hw)

/-- A table that drops a range keeps its canonical form. -/
theorem Tab.wf_clear [DecidableEq α] (d : α) (t : Tab α) (lo n : Nat) (hw : Tab.wf d t = true) :
    Tab.wf d (Tab.clear t lo n) = true := Tab.wfFrom_filter d _ t 0 hw

theorem Tab.get_clear (d : α) (t : Tab α) (lo n i : Nat) :
    Tab.get d (Tab.clear t lo n) i = if i < lo ∨ lo + n ≤ i then Tab.get d t i else d := by
  rw [Tab.clear, Tab.get_filter_key d t (fun k => decide (k < lo) || decide (lo + n ≤ k)) i]
  simp

/-! ### Byte memory -/

theorem Mem.entries_any (a : Nat) (bs : List (BitVec 8)) (x : Nat) (h : x < a ∨ a + bs.length ≤ x) :
    (Mem.entries a bs).any (fun e => e.1 == x) = false := by
  induction bs generalizing a with
  | nil => rfl
  | cons b bs ih =>
    unfold Mem.entries
    have ht := ih (a + 1) (by simp only [List.length_cons] at h; omega)
    have hne : a ≠ x := by simp only [List.length_cons] at h; omega
    have hne' : (a == x) = false := beq_eq_false_iff_ne.mpr hne
    by_cases hb : b = 0
    · rw [if_pos hb]; exact ht
    · rw [if_neg hb, List.any_cons, hne', Bool.false_or]; exact ht

theorem Mem.get_entries (a : Nat) (bs : List (BitVec 8)) (x : Nat) :
    Tab.get 0 (Mem.entries a bs) x = if a ≤ x then bs.getD (x - a) 0 else 0 := by
  induction bs generalizing a with
  | nil => simp [Mem.entries, Tab.get]
  | cons b bs ih =>
    unfold Mem.entries
    by_cases hx : a = x
    · subst hx
      by_cases hb : b = 0
      · subst hb
        simp only [if_true, Nat.le_refl, Nat.sub_self, List.getD_cons_zero]
        exact Tab.get_of_absent _ _ _ (Mem.entries_any (a + 1) bs a (by omega))
      · rw [if_neg hb]; simp [Tab.get]
    · have hstep : Tab.get 0 (if b = 0 then Mem.entries (a + 1) bs else (a, b) :: Mem.entries (a + 1) bs) x =
          Tab.get 0 (Mem.entries (a + 1) bs) x := by
        by_cases hb : b = 0
        · rw [if_pos hb]
        · rw [if_neg hb, Tab.get, if_neg hx]
      rw [hstep, ih]
      by_cases hle : a ≤ x
      · have h1 : a + 1 ≤ x := by omega
        have h2 : x - a = (x - (a + 1)) + 1 := by omega
        simp [hle, h1, h2]
      · have h1 : ¬ a + 1 ≤ x := by omega
        simp [hle, h1]

/-- A byte after a write: the bytes written are the ones given, every other byte is as before. -/
theorem Mem.byte_write (m : Tab (BitVec 8)) (a : Nat) (bs : List (BitVec 8)) (x : Nat) :
    Mem.byte (Mem.write m a bs) x = if a ≤ x ∧ x < a + bs.length then bs.getD (x - a) 0 else Mem.byte m x := by
  unfold Mem.byte Mem.write
  rw [List.append_assoc, Tab.get_append, Tab.get_filter_key 0 m (fun k => decide (k < a)), Tab.get_append,
    Tab.get_filter_key 0 m (fun k => decide (a + bs.length ≤ k)), Mem.get_entries]
  by_cases h1 : x < a
  · have h2 : ¬ a ≤ x := by omega
    have h3 : ¬ a + bs.length ≤ x := by omega
    by_cases hk : (m.filter fun e => decide (e.1 < a)).any (fun e => e.1 == x) = true
    · simp [hk, h1, h2]
    · have hk' : m.any (fun e => e.1 == x) = false := by
        simp only [Bool.not_eq_true, List.any_filter, List.any_eq_false, Bool.and_eq_true, decide_eq_true_eq, beq_iff_eq] at hk ⊢
        intro e he hx; exact hk e he ⟨by omega, hx⟩
      rw [if_neg hk, Mem.entries_any a bs x (Or.inl h1)]
      have h0 := Tab.get_of_absent (0 : BitVec 8) m x hk'
      simpa [h3, h2] using h0.symm
  · have hk : (m.filter fun e => decide (e.1 < a)).any (fun e => e.1 == x) = false := by
      simp only [List.any_filter, List.any_eq_false, Bool.and_eq_true, decide_eq_true_eq, beq_iff_eq]
      rintro e he ⟨h4, h5⟩; omega
    rw [hk]
    by_cases h3 : a + bs.length ≤ x
    · rw [Mem.entries_any a bs x (Or.inr h3)]
      have h2 : ¬ (a ≤ x ∧ x < a + bs.length) := by omega
      simp [h3, h2]
    · have h2 : a ≤ x ∧ x < a + bs.length := by omega
      by_cases he : (Mem.entries a bs).any (fun e => e.1 == x) = true
      · simp [he, h2]
      · have hz := Tab.get_of_absent 0 _ x (Bool.not_eq_true _ ▸ he)
        rw [Mem.get_entries] at hz
        simp [he, h3, h2]
        simpa [h2] using hz.symm

theorem Mem.byte_write_other (m : Tab (BitVec 8)) (a : Nat) (bs : List (BitVec 8)) (x : Nat) (h : x < a ∨ a + bs.length ≤ x) :
    Mem.byte (Mem.write m a bs) x = Mem.byte m x := by
  rw [Mem.byte_write, if_neg (by omega)]

/-- Reading back what was written gives it. -/
theorem Mem.read_write (m : Tab (BitVec 8)) (a : Nat) (bs : List (BitVec 8)) : Mem.read (Mem.write m a bs) a bs.length = bs := by
  unfold Mem.read
  apply List.ext_getElem
  · simp
  · intro i h1 h2
    simp only [List.getElem_map, List.getElem_range, Mem.byte_write]
    simp [h2]

theorem Mem.read_write_other (m : Tab (BitVec 8)) (a : Nat) (bs : List (BitVec 8)) (x n : Nat)
    (h : x + n ≤ a ∨ a + bs.length ≤ x) : Mem.read (Mem.write m a bs) x n = Mem.read m x n := by
  unfold Mem.read
  apply List.map_congr_left
  intro i hi
  rw [List.mem_range] at hi
  exact Mem.byte_write_other m a bs (x + i) (by omega)

theorem Mem.read_length (m : Tab (BitVec 8)) (a n : Nat) : (Mem.read m a n).length = n := by simp [Mem.read]

theorem Mem.wfFrom_entries (a : Nat) (bs : List (BitVec 8)) (t : Tab (BitVec 8)) (b : Nat) (hb : b ≤ a)
    (ht : Tab.wfFrom 0 (a + bs.length) t = true) : Tab.wfFrom 0 b (Mem.entries a bs ++ t) = true := by
  induction bs generalizing a b with
  | nil => exact Tab.wfFrom_mono 0 t b a hb ht
  | cons x bs ih =>
    have h := ih (a + 1) (b := a + 1) (Nat.le_refl _) (by simpa [Nat.add_comm, Nat.add_left_comm, Nat.add_assoc] using ht)
    unfold Mem.entries
    by_cases hx : x = 0
    · simp only [hx, if_true]; exact Tab.wfFrom_mono 0 _ b (a + 1) (by omega) h
    · simp only [hx, if_false, List.cons_append, Tab.wfFrom, Bool.and_eq_true, decide_eq_true_eq]
      exact ⟨⟨hb, hx⟩, h⟩

theorem Tab.wfFrom_filter_ge (t : Tab (BitVec 8)) (c b : Nat) (hw : Tab.wfFrom 0 b t = true) :
    Tab.wfFrom 0 c (t.filter fun e => decide (c ≤ e.1)) = true := by
  induction t generalizing b with
  | nil => rfl
  | cons e t ih =>
    obtain ⟨k, v⟩ := e
    simp only [Tab.wfFrom, Bool.and_eq_true, decide_eq_true_eq] at hw
    by_cases hk : c ≤ k
    · simp only [List.filter_cons, hk, decide_true, if_true, Tab.wfFrom, Bool.and_eq_true, decide_eq_true_eq]
      exact ⟨⟨trivial, hw.1.2⟩, Tab.wfFrom_filter 0 _ t (k + 1) hw.2⟩
    · simp only [List.filter_cons, hk, decide_false]
      exact ih _ hw.2

theorem Tab.wfFrom_key (t : Tab (BitVec 8)) (b : Nat) (h : Tab.wfFrom 0 b t = true) : ∀ x ∈ t, b ≤ x.1 := by
  induction t generalizing b with
  | nil => simp
  | cons e t ih =>
    obtain ⟨k, v⟩ := e
    simp only [Tab.wfFrom, Bool.and_eq_true, decide_eq_true_eq] at h
    intro x hx
    rcases List.mem_cons.mp hx with rfl | hx
    · exact h.1.1
    · have := ih (k + 1) h.2 x hx; omega

theorem Tab.wfFrom_filter_lt (t u : Tab (BitVec 8)) (a b : Nat) (hw : Tab.wfFrom 0 b t = true) (hu : Tab.wfFrom 0 (max a b) u = true) :
    Tab.wfFrom 0 b (t.filter (fun e => decide (e.1 < a)) ++ u) = true := by
  induction t generalizing b with
  | nil => exact Tab.wfFrom_mono 0 u b _ (by omega) hu
  | cons e t ih =>
    obtain ⟨k, v⟩ := e
    simp only [Tab.wfFrom, Bool.and_eq_true, decide_eq_true_eq] at hw
    by_cases hk : k < a
    · simp only [List.filter_cons, hk, decide_true, if_true, List.cons_append, Tab.wfFrom, Bool.and_eq_true, decide_eq_true_eq]
      refine ⟨hw.1, ih (k + 1) hw.2 (Tab.wfFrom_mono 0 u _ _ ?_ hu)⟩
      omega
    · simp only [List.filter_cons, hk, decide_false]
      have hn : t.filter (fun e => decide (e.1 < a)) = [] := by
        rw [List.filter_eq_nil_iff]
        intro x hx
        have := Tab.wfFrom_key t (k + 1) hw.2 x hx
        simp; omega
      simp only [hn, List.nil_append, Bool.false_eq_true, if_false]
      exact Tab.wfFrom_mono 0 u b _ (by omega) hu
/-- A write keeps the canonical form of memory. -/
theorem Mem.wf_write (m : Tab (BitVec 8)) (a : Nat) (bs : List (BitVec 8)) (hw : Memory.wf m = true) :
    Memory.wf (Mem.write m a bs) = true := by
  unfold Memory.wf Tab.wf Mem.write at *
  rw [List.append_assoc]
  apply Tab.wfFrom_filter_lt _ _ a 0 hw
  have h := Tab.wfFrom_filter_ge m (a + bs.length) 0 hw
  simpa using Mem.wfFrom_entries a bs _ a (Nat.le_refl a) h

end Sys2Proof.Machine
end

