-- ==== Sys2Proof/Laws/Memory.lean ====
section
/-! SUPPORT. Laws of memory with its check bits: reads of words that hold no error, and the canonical form of memory and
check bits under every memory operation. -/

namespace Sys2Proof.Machine

/-- A unit that holds no error. -/
def UnitClean (s : State) (u : Nat) : Prop :=
  unitFailed s (kindOf u) u = false ∧ unitState (kindOf u) (Tab.get 0 s.chk u) = .clean

theorem readUnit_clean (s : State) (u : Nat) (h : UnitClean s u) : readUnit s u = (s, false) := by
  unfold readUnit
  simp only [h.1, h.2, Bool.false_eq_true, if_false]

/-- Reading units that hold no error changes nothing. -/
theorem readUnits_clean (s : State) (us : List Nat) (h : ∀ u ∈ us, UnitClean s u) : readUnits s us = (s, false) := by
  induction us with
  | nil => rfl
  | cons u us ih =>
    unfold readUnits
    rw [readUnit_clean s u (h u List.mem_cons_self)]
    simp only [ih fun v hv => h v (List.mem_cons_of_mem _ hv)]
    rfl

/-- An aligned access of up to 8 bytes outside HBM touches one word. -/
theorem unitsOf_word (p n : Nat) (hk : kindOf p = .sram) (ha : p % n = 0) (hn : n = 1 ∨ n = 2 ∨ n = 4 ∨ n = 8) :
    unitsOf p n = [p / 8 * 8] := by
  have h1 : (p + n + 8 - 1) / 8 - p / 8 = 1 := by rcases hn with rfl | rfl | rfl | rfl <;> omega
  unfold unitsOf
  rw [hk]
  simp only [unitOf, h1]
  simp

theorem readMem_word (s : State) (p n : Nat) (hk : kindOf p = .sram) (ha : p % n = 0) (hn : n = 1 ∨ n = 2 ∨ n = 4 ∨ n = 8)
    (hc : UnitClean s (p / 8 * 8)) : readMem s p n = (s, Mem.read s.mem p n, false) := by
  unfold readMem
  rw [unitsOf_word p n hk ha hn, readUnits_clean s _ fun u hu => by rw [List.mem_singleton] at hu; exact hu ▸ hc]

/-! ### Little-endian bytes -/

theorem leBytes_length (n v : Nat) : (leBytes n v).length = n := by
  induction n generalizing v with
  | zero => rfl
  | succ n ih => simp [leBytes, ih]

theorem leNat_leBytes (n v : Nat) : leNat (leBytes n v) = v % 2 ^ (8 * n) := by
  induction n generalizing v with
  | zero => simp [leBytes, leNat, Nat.mod_one]
  | succ n ih =>
    have h : 2 ^ (8 * (n + 1)) = 256 * 2 ^ (8 * n) := by rw [Nat.mul_succ, Nat.pow_add, Nat.mul_comm]
    simp only [leBytes, leNat, ih, BitVec.toNat_ofNat, h]
    rw [Nat.mod_mul]

/-! ### The canonical form (02; State.memoryWf) -/

/-- Memory and check bits are canonical. -/
def Wf (s : State) : Prop := Memory.wf s.mem = true ∧ Tab.wf 0 s.chk = true

theorem wf_setMem (s : State) (m : Tab Byte) (h : Wf s) (hm : Memory.wf m = true) : Wf (setMem s m) := ⟨hm, h.2⟩
theorem wf_setChk (s : State) (u : Nat) (v : BitVec 16) (h : Wf s) : Wf (setChk s u v) := ⟨h.1, Tab.wf_set _ _ _ _ h.2⟩
theorem wf_write (s : State) (a : Nat) (bs : List Byte) (h : Wf s) : Wf (setMem s (Mem.write s.mem a bs)) :=
  wf_setMem s _ h (Mem.wf_write _ _ _ h.1)
theorem wf_countPce (s : State) (a : Nat) (h : Wf s) : Wf (countPce s a) := h
theorem wf_countPue (s : State) (a : Nat) (h : Wf s) : Wf (countPue s a) := h

theorem wf_readUnit (s : State) (u : Nat) (h : Wf s) : Wf (readUnit s u).1 := by
  unfold readUnit
  dsimp only
  split
  · split
    · exact h
    · exact h
  · split
    · exact h
    · split <;> exact h
    · rename_i b _
      cases b with
      | none =>
        dsimp only
        split
        · exact wf_countPce _ _ (wf_setChk _ _ _ h)
        · exact wf_setChk _ _ _ h
      | some i =>
        dsimp only [flipBit]
        split
        · exact wf_countPce _ _ (wf_write _ _ _ (wf_setChk _ _ _ h))
        · exact wf_write _ _ _ (wf_setChk _ _ _ h)

theorem wf_readUnits (s : State) (us : List Nat) (h : Wf s) : Wf (readUnits s us).1 := by
  induction us generalizing s with
  | nil => exact h
  | cons u us ih => exact ih _ (wf_readUnit s u h)

theorem wf_readMem (s : State) (a n : Nat) (h : Wf s) : Wf (readMem s a n).1 := wf_readUnits _ _ h

theorem wf_writeUnit (s : State) (u a : Nat) (bs : List Byte) (p : Bool) (h : Wf s) : Wf (writeUnit s u a bs p).1 := by
  unfold writeUnit
  dsimp only
  have hr := wf_readUnit s u h
  split
  · exact wf_setChk _ _ _ (wf_write _ _ _ h)
  · split
    · exact wf_setChk _ _ _ (wf_write _ _ _ hr)
    · split
      · exact wf_setChk _ _ _ (wf_write _ _ _ hr)
      · exact wf_setChk _ _ _ (wf_write _ _ _ hr)
      · exact hr

theorem wf_writeUnits (s : State) (a : Nat) (bs : List Byte) (p : Bool) (us : List Nat) (h : Wf s) :
    Wf (writeUnits s a bs p us).1 := by
  induction us generalizing s with
  | nil => exact h
  | cons u us ih => exact ih _ (wf_writeUnit s u _ _ p h)

/-- Every write of bytes keeps the canonical form. -/
theorem wf_writeMem (s : State) (a : Nat) (bs : List Byte) (p : Bool) (h : Wf s) : Wf (writeMem s a bs p).1 :=
  wf_writeUnits _ _ _ _ _ h

end Sys2Proof.Machine
end

