-- ==== Sys2Proof/Laws/State.lean ====
section
/-! SUPPORT. One lemma per field per update of the state, and what each access answers after each update. -/

namespace Sys2Proof.Machine

/-! ### setThread -/

@[simp] theorem setThread_turn (s : State) (th : Nat) (t : Thread) : (setThread s th t).turn = s.turn := rfl
@[simp] theorem setThread_steps (s : State) (th : Nat) (t : Thread) : (setThread s th t).steps = s.steps := rfl
@[simp] theorem setThread_inbox (s : State) (th : Nat) (t : Thread) : (setThread s th t).inbox = s.inbox := rfl
@[simp] theorem setThread_sent (s : State) (th : Nat) (t : Thread) : (setThread s th t).sent = s.sent := rfl
@[simp] theorem setThread_firing (s : State) (th : Nat) (t : Thread) : (setThread s th t).firing = s.firing := rfl
@[simp] theorem setThread_issued (s : State) (th : Nat) (t : Thread) : (setThread s th t).issued = s.issued := rfl
@[simp] theorem setThread_htime (s : State) (th : Nat) (t : Thread) : (setThread s th t).htime = s.htime := rfl
@[simp] theorem setThread_mem (s : State) (th : Nat) (t : Thread) : (setThread s th t).mem = s.mem := rfl
@[simp] theorem setThread_chk (s : State) (th : Nat) (t : Thread) : (setThread s th t).chk = s.chk := rfl
@[simp] theorem setThread_threads (s : State) (th : Nat) (t : Thread) : (setThread s th t).threads = Tab.set (Thread.reset true) s.threads th t := rfl
@[simp] theorem setThread_dies (s : State) (th : Nat) (t : Thread) : (setThread s th t).dies = s.dies := rfl
@[simp] theorem setThread_regions (s : State) (th : Nat) (t : Thread) : (setThread s th t).regions = s.regions := rfl
@[simp] theorem setThread_clusters (s : State) (th : Nat) (t : Thread) : (setThread s th t).clusters = s.clusters := rfl
@[simp] theorem setThread_ports (s : State) (th : Nat) (t : Thread) : (setThread s th t).ports = s.ports := rfl
@[simp] theorem setThread_banks (s : State) (th : Nat) (t : Thread) : (setThread s th t).banks = s.banks := rfl
@[simp] theorem setThread_bankWords (s : State) (th : Nat) (t : Thread) : (setThread s th t).bankWords = s.bankWords := rfl
@[simp] theorem setThread_waiters (s : State) (th : Nat) (t : Thread) : (setThread s th t).waiters = s.waiters := rfl
@[simp] theorem setThread_nacked (s : State) (th : Nat) (t : Thread) : (setThread s th t).nacked = s.nacked := rfl
@[simp] theorem setThread_net (s : State) (th : Nat) (t : Thread) : (setThread s th t).net = s.net := rfl
@[simp] theorem setThread_hops (s : State) (th : Nat) (t : Thread) : (setThread s th t).hops = s.hops := rfl
@[simp] theorem setThread_digests (s : State) (th : Nat) (t : Thread) : (setThread s th t).digests = s.digests := rfl
@[simp] theorem setThread_plumb (s : State) (th : Nat) (t : Thread) : (setThread s th t).plumb = s.plumb := rfl
@[simp] theorem setThread_link (s : State) (th : Nat) (t : Thread) : (setThread s th t).link = s.link := rfl
@[simp] theorem setThread_launch (s : State) (th : Nat) (t : Thread) : (setThread s th t).launch = s.launch := rfl
@[simp] theorem setThread_lastCommit (s : State) (th : Nat) (t : Thread) : (setThread s th t).lastCommit = s.lastCommit := rfl
@[simp] theorem setThread_invVa (s : State) (th : Nat) (t : Thread) : (setThread s th t).invVa = s.invVa := rfl
@[simp] theorem setThread_invAsid (s : State) (th : Nat) (t : Thread) : (setThread s th t).invAsid = s.invAsid := rfl
@[simp] theorem setThread_service (s : State) (th : Nat) (t : Thread) : (setThread s th t).service = s.service := rfl

/-! ### setRegion -/

@[simp] theorem setRegion_turn (s : State) (r : Nat) (x : Region) : (setRegion s r x).turn = s.turn := rfl
@[simp] theorem setRegion_steps (s : State) (r : Nat) (x : Region) : (setRegion s r x).steps = s.steps := rfl
@[simp] theorem setRegion_inbox (s : State) (r : Nat) (x : Region) : (setRegion s r x).inbox = s.inbox := rfl
@[simp] theorem setRegion_sent (s : State) (r : Nat) (x : Region) : (setRegion s r x).sent = s.sent := rfl
@[simp] theorem setRegion_firing (s : State) (r : Nat) (x : Region) : (setRegion s r x).firing = s.firing := rfl
@[simp] theorem setRegion_issued (s : State) (r : Nat) (x : Region) : (setRegion s r x).issued = s.issued := rfl
@[simp] theorem setRegion_htime (s : State) (r : Nat) (x : Region) : (setRegion s r x).htime = s.htime := rfl
@[simp] theorem setRegion_mem (s : State) (r : Nat) (x : Region) : (setRegion s r x).mem = s.mem := rfl
@[simp] theorem setRegion_chk (s : State) (r : Nat) (x : Region) : (setRegion s r x).chk = s.chk := rfl
@[simp] theorem setRegion_threads (s : State) (r : Nat) (x : Region) : (setRegion s r x).threads = s.threads := rfl
@[simp] theorem setRegion_dies (s : State) (r : Nat) (x : Region) : (setRegion s r x).dies = s.dies := rfl
@[simp] theorem setRegion_regions (s : State) (r : Nat) (x : Region) : (setRegion s r x).regions = Tab.set Region.free s.regions r x := rfl
@[simp] theorem setRegion_clusters (s : State) (r : Nat) (x : Region) : (setRegion s r x).clusters = s.clusters := rfl
@[simp] theorem setRegion_ports (s : State) (r : Nat) (x : Region) : (setRegion s r x).ports = s.ports := rfl
@[simp] theorem setRegion_banks (s : State) (r : Nat) (x : Region) : (setRegion s r x).banks = s.banks := rfl
@[simp] theorem setRegion_bankWords (s : State) (r : Nat) (x : Region) : (setRegion s r x).bankWords = s.bankWords := rfl
@[simp] theorem setRegion_waiters (s : State) (r : Nat) (x : Region) : (setRegion s r x).waiters = s.waiters := rfl
@[simp] theorem setRegion_nacked (s : State) (r : Nat) (x : Region) : (setRegion s r x).nacked = s.nacked := rfl
@[simp] theorem setRegion_net (s : State) (r : Nat) (x : Region) : (setRegion s r x).net = s.net := rfl
@[simp] theorem setRegion_hops (s : State) (r : Nat) (x : Region) : (setRegion s r x).hops = s.hops := rfl
@[simp] theorem setRegion_digests (s : State) (r : Nat) (x : Region) : (setRegion s r x).digests = s.digests := rfl
@[simp] theorem setRegion_plumb (s : State) (r : Nat) (x : Region) : (setRegion s r x).plumb = s.plumb := rfl
@[simp] theorem setRegion_link (s : State) (r : Nat) (x : Region) : (setRegion s r x).link = s.link := rfl
@[simp] theorem setRegion_launch (s : State) (r : Nat) (x : Region) : (setRegion s r x).launch = s.launch := rfl
@[simp] theorem setRegion_lastCommit (s : State) (r : Nat) (x : Region) : (setRegion s r x).lastCommit = s.lastCommit := rfl
@[simp] theorem setRegion_invVa (s : State) (r : Nat) (x : Region) : (setRegion s r x).invVa = s.invVa := rfl
@[simp] theorem setRegion_invAsid (s : State) (r : Nat) (x : Region) : (setRegion s r x).invAsid = s.invAsid := rfl
@[simp] theorem setRegion_service (s : State) (r : Nat) (x : Region) : (setRegion s r x).service = s.service := rfl

/-! ### setCluster -/

@[simp] theorem setCluster_turn (s : State) (c : Nat) (x : Cluster) : (setCluster s c x).turn = s.turn := rfl
@[simp] theorem setCluster_steps (s : State) (c : Nat) (x : Cluster) : (setCluster s c x).steps = s.steps := rfl
@[simp] theorem setCluster_inbox (s : State) (c : Nat) (x : Cluster) : (setCluster s c x).inbox = s.inbox := rfl
@[simp] theorem setCluster_sent (s : State) (c : Nat) (x : Cluster) : (setCluster s c x).sent = s.sent := rfl
@[simp] theorem setCluster_firing (s : State) (c : Nat) (x : Cluster) : (setCluster s c x).firing = s.firing := rfl
@[simp] theorem setCluster_issued (s : State) (c : Nat) (x : Cluster) : (setCluster s c x).issued = s.issued := rfl
@[simp] theorem setCluster_htime (s : State) (c : Nat) (x : Cluster) : (setCluster s c x).htime = s.htime := rfl
@[simp] theorem setCluster_mem (s : State) (c : Nat) (x : Cluster) : (setCluster s c x).mem = s.mem := rfl
@[simp] theorem setCluster_chk (s : State) (c : Nat) (x : Cluster) : (setCluster s c x).chk = s.chk := rfl
@[simp] theorem setCluster_threads (s : State) (c : Nat) (x : Cluster) : (setCluster s c x).threads = s.threads := rfl
@[simp] theorem setCluster_dies (s : State) (c : Nat) (x : Cluster) : (setCluster s c x).dies = s.dies := rfl
@[simp] theorem setCluster_regions (s : State) (c : Nat) (x : Cluster) : (setCluster s c x).regions = s.regions := rfl
@[simp] theorem setCluster_clusters (s : State) (c : Nat) (x : Cluster) : (setCluster s c x).clusters = Tab.set Cluster.reset s.clusters c x := rfl
@[simp] theorem setCluster_ports (s : State) (c : Nat) (x : Cluster) : (setCluster s c x).ports = s.ports := rfl
@[simp] theorem setCluster_banks (s : State) (c : Nat) (x : Cluster) : (setCluster s c x).banks = s.banks := rfl
@[simp] theorem setCluster_bankWords (s : State) (c : Nat) (x : Cluster) : (setCluster s c x).bankWords = s.bankWords := rfl
@[simp] theorem setCluster_waiters (s : State) (c : Nat) (x : Cluster) : (setCluster s c x).waiters = s.waiters := rfl
@[simp] theorem setCluster_nacked (s : State) (c : Nat) (x : Cluster) : (setCluster s c x).nacked = s.nacked := rfl
@[simp] theorem setCluster_net (s : State) (c : Nat) (x : Cluster) : (setCluster s c x).net = s.net := rfl
@[simp] theorem setCluster_hops (s : State) (c : Nat) (x : Cluster) : (setCluster s c x).hops = s.hops := rfl
@[simp] theorem setCluster_digests (s : State) (c : Nat) (x : Cluster) : (setCluster s c x).digests = s.digests := rfl
@[simp] theorem setCluster_plumb (s : State) (c : Nat) (x : Cluster) : (setCluster s c x).plumb = s.plumb := rfl
@[simp] theorem setCluster_link (s : State) (c : Nat) (x : Cluster) : (setCluster s c x).link = s.link := rfl
@[simp] theorem setCluster_launch (s : State) (c : Nat) (x : Cluster) : (setCluster s c x).launch = s.launch := rfl
@[simp] theorem setCluster_lastCommit (s : State) (c : Nat) (x : Cluster) : (setCluster s c x).lastCommit = s.lastCommit := rfl
@[simp] theorem setCluster_invVa (s : State) (c : Nat) (x : Cluster) : (setCluster s c x).invVa = s.invVa := rfl
@[simp] theorem setCluster_invAsid (s : State) (c : Nat) (x : Cluster) : (setCluster s c x).invAsid = s.invAsid := rfl
@[simp] theorem setCluster_service (s : State) (c : Nat) (x : Cluster) : (setCluster s c x).service = s.service := rfl

/-! ### setDie -/

@[simp] theorem setDie_turn (s : State) (d : Nat) (x : Die) : (setDie s d x).turn = s.turn := rfl
@[simp] theorem setDie_steps (s : State) (d : Nat) (x : Die) : (setDie s d x).steps = s.steps := rfl
@[simp] theorem setDie_inbox (s : State) (d : Nat) (x : Die) : (setDie s d x).inbox = s.inbox := rfl
@[simp] theorem setDie_sent (s : State) (d : Nat) (x : Die) : (setDie s d x).sent = s.sent := rfl
@[simp] theorem setDie_firing (s : State) (d : Nat) (x : Die) : (setDie s d x).firing = s.firing := rfl
@[simp] theorem setDie_issued (s : State) (d : Nat) (x : Die) : (setDie s d x).issued = s.issued := rfl
@[simp] theorem setDie_htime (s : State) (d : Nat) (x : Die) : (setDie s d x).htime = s.htime := rfl
@[simp] theorem setDie_mem (s : State) (d : Nat) (x : Die) : (setDie s d x).mem = s.mem := rfl
@[simp] theorem setDie_chk (s : State) (d : Nat) (x : Die) : (setDie s d x).chk = s.chk := rfl
@[simp] theorem setDie_threads (s : State) (d : Nat) (x : Die) : (setDie s d x).threads = s.threads := rfl
@[simp] theorem setDie_dies (s : State) (d : Nat) (x : Die) : (setDie s d x).dies = Tab.set Die.reset s.dies d x := rfl
@[simp] theorem setDie_regions (s : State) (d : Nat) (x : Die) : (setDie s d x).regions = s.regions := rfl
@[simp] theorem setDie_clusters (s : State) (d : Nat) (x : Die) : (setDie s d x).clusters = s.clusters := rfl
@[simp] theorem setDie_ports (s : State) (d : Nat) (x : Die) : (setDie s d x).ports = s.ports := rfl
@[simp] theorem setDie_banks (s : State) (d : Nat) (x : Die) : (setDie s d x).banks = s.banks := rfl
@[simp] theorem setDie_bankWords (s : State) (d : Nat) (x : Die) : (setDie s d x).bankWords = s.bankWords := rfl
@[simp] theorem setDie_waiters (s : State) (d : Nat) (x : Die) : (setDie s d x).waiters = s.waiters := rfl
@[simp] theorem setDie_nacked (s : State) (d : Nat) (x : Die) : (setDie s d x).nacked = s.nacked := rfl
@[simp] theorem setDie_net (s : State) (d : Nat) (x : Die) : (setDie s d x).net = s.net := rfl
@[simp] theorem setDie_hops (s : State) (d : Nat) (x : Die) : (setDie s d x).hops = s.hops := rfl
@[simp] theorem setDie_digests (s : State) (d : Nat) (x : Die) : (setDie s d x).digests = s.digests := rfl
@[simp] theorem setDie_plumb (s : State) (d : Nat) (x : Die) : (setDie s d x).plumb = s.plumb := rfl
@[simp] theorem setDie_link (s : State) (d : Nat) (x : Die) : (setDie s d x).link = s.link := rfl
@[simp] theorem setDie_launch (s : State) (d : Nat) (x : Die) : (setDie s d x).launch = s.launch := rfl
@[simp] theorem setDie_lastCommit (s : State) (d : Nat) (x : Die) : (setDie s d x).lastCommit = s.lastCommit := rfl
@[simp] theorem setDie_invVa (s : State) (d : Nat) (x : Die) : (setDie s d x).invVa = s.invVa := rfl
@[simp] theorem setDie_invAsid (s : State) (d : Nat) (x : Die) : (setDie s d x).invAsid = s.invAsid := rfl
@[simp] theorem setDie_service (s : State) (d : Nat) (x : Die) : (setDie s d x).service = s.service := rfl

/-! ### setBank -/

@[simp] theorem setBank_turn (s : State) (b : Nat) (x : Bank) : (setBank s b x).turn = s.turn := rfl
@[simp] theorem setBank_steps (s : State) (b : Nat) (x : Bank) : (setBank s b x).steps = s.steps := rfl
@[simp] theorem setBank_inbox (s : State) (b : Nat) (x : Bank) : (setBank s b x).inbox = s.inbox := rfl
@[simp] theorem setBank_sent (s : State) (b : Nat) (x : Bank) : (setBank s b x).sent = s.sent := rfl
@[simp] theorem setBank_firing (s : State) (b : Nat) (x : Bank) : (setBank s b x).firing = s.firing := rfl
@[simp] theorem setBank_issued (s : State) (b : Nat) (x : Bank) : (setBank s b x).issued = s.issued := rfl
@[simp] theorem setBank_htime (s : State) (b : Nat) (x : Bank) : (setBank s b x).htime = s.htime := rfl
@[simp] theorem setBank_mem (s : State) (b : Nat) (x : Bank) : (setBank s b x).mem = s.mem := rfl
@[simp] theorem setBank_chk (s : State) (b : Nat) (x : Bank) : (setBank s b x).chk = s.chk := rfl
@[simp] theorem setBank_threads (s : State) (b : Nat) (x : Bank) : (setBank s b x).threads = s.threads := rfl
@[simp] theorem setBank_dies (s : State) (b : Nat) (x : Bank) : (setBank s b x).dies = s.dies := rfl
@[simp] theorem setBank_regions (s : State) (b : Nat) (x : Bank) : (setBank s b x).regions = s.regions := rfl
@[simp] theorem setBank_clusters (s : State) (b : Nat) (x : Bank) : (setBank s b x).clusters = s.clusters := rfl
@[simp] theorem setBank_ports (s : State) (b : Nat) (x : Bank) : (setBank s b x).ports = s.ports := rfl
@[simp] theorem setBank_banks (s : State) (b : Nat) (x : Bank) : (setBank s b x).banks = Tab.set Bank.reset s.banks b x := rfl
@[simp] theorem setBank_bankWords (s : State) (b : Nat) (x : Bank) : (setBank s b x).bankWords = s.bankWords := rfl
@[simp] theorem setBank_waiters (s : State) (b : Nat) (x : Bank) : (setBank s b x).waiters = s.waiters := rfl
@[simp] theorem setBank_nacked (s : State) (b : Nat) (x : Bank) : (setBank s b x).nacked = s.nacked := rfl
@[simp] theorem setBank_net (s : State) (b : Nat) (x : Bank) : (setBank s b x).net = s.net := rfl
@[simp] theorem setBank_hops (s : State) (b : Nat) (x : Bank) : (setBank s b x).hops = s.hops := rfl
@[simp] theorem setBank_digests (s : State) (b : Nat) (x : Bank) : (setBank s b x).digests = s.digests := rfl
@[simp] theorem setBank_plumb (s : State) (b : Nat) (x : Bank) : (setBank s b x).plumb = s.plumb := rfl
@[simp] theorem setBank_link (s : State) (b : Nat) (x : Bank) : (setBank s b x).link = s.link := rfl
@[simp] theorem setBank_launch (s : State) (b : Nat) (x : Bank) : (setBank s b x).launch = s.launch := rfl
@[simp] theorem setBank_lastCommit (s : State) (b : Nat) (x : Bank) : (setBank s b x).lastCommit = s.lastCommit := rfl
@[simp] theorem setBank_invVa (s : State) (b : Nat) (x : Bank) : (setBank s b x).invVa = s.invVa := rfl
@[simp] theorem setBank_invAsid (s : State) (b : Nat) (x : Bank) : (setBank s b x).invAsid = s.invAsid := rfl
@[simp] theorem setBank_service (s : State) (b : Nat) (x : Bank) : (setBank s b x).service = s.service := rfl

/-! ### setPort -/

@[simp] theorem setPort_turn (s : State) (p : Nat) (x : Port) : (setPort s p x).turn = s.turn := rfl
@[simp] theorem setPort_steps (s : State) (p : Nat) (x : Port) : (setPort s p x).steps = s.steps := rfl
@[simp] theorem setPort_inbox (s : State) (p : Nat) (x : Port) : (setPort s p x).inbox = s.inbox := rfl
@[simp] theorem setPort_sent (s : State) (p : Nat) (x : Port) : (setPort s p x).sent = s.sent := rfl
@[simp] theorem setPort_firing (s : State) (p : Nat) (x : Port) : (setPort s p x).firing = s.firing := rfl
@[simp] theorem setPort_issued (s : State) (p : Nat) (x : Port) : (setPort s p x).issued = s.issued := rfl
@[simp] theorem setPort_htime (s : State) (p : Nat) (x : Port) : (setPort s p x).htime = s.htime := rfl
@[simp] theorem setPort_mem (s : State) (p : Nat) (x : Port) : (setPort s p x).mem = s.mem := rfl
@[simp] theorem setPort_chk (s : State) (p : Nat) (x : Port) : (setPort s p x).chk = s.chk := rfl
@[simp] theorem setPort_threads (s : State) (p : Nat) (x : Port) : (setPort s p x).threads = s.threads := rfl
@[simp] theorem setPort_dies (s : State) (p : Nat) (x : Port) : (setPort s p x).dies = s.dies := rfl
@[simp] theorem setPort_regions (s : State) (p : Nat) (x : Port) : (setPort s p x).regions = s.regions := rfl
@[simp] theorem setPort_clusters (s : State) (p : Nat) (x : Port) : (setPort s p x).clusters = s.clusters := rfl
@[simp] theorem setPort_ports (s : State) (p : Nat) (x : Port) : (setPort s p x).ports = Tab.set Port.reset s.ports p x := rfl
@[simp] theorem setPort_banks (s : State) (p : Nat) (x : Port) : (setPort s p x).banks = s.banks := rfl
@[simp] theorem setPort_bankWords (s : State) (p : Nat) (x : Port) : (setPort s p x).bankWords = s.bankWords := rfl
@[simp] theorem setPort_waiters (s : State) (p : Nat) (x : Port) : (setPort s p x).waiters = s.waiters := rfl
@[simp] theorem setPort_nacked (s : State) (p : Nat) (x : Port) : (setPort s p x).nacked = s.nacked := rfl
@[simp] theorem setPort_net (s : State) (p : Nat) (x : Port) : (setPort s p x).net = s.net := rfl
@[simp] theorem setPort_hops (s : State) (p : Nat) (x : Port) : (setPort s p x).hops = s.hops := rfl
@[simp] theorem setPort_digests (s : State) (p : Nat) (x : Port) : (setPort s p x).digests = s.digests := rfl
@[simp] theorem setPort_plumb (s : State) (p : Nat) (x : Port) : (setPort s p x).plumb = s.plumb := rfl
@[simp] theorem setPort_link (s : State) (p : Nat) (x : Port) : (setPort s p x).link = s.link := rfl
@[simp] theorem setPort_launch (s : State) (p : Nat) (x : Port) : (setPort s p x).launch = s.launch := rfl
@[simp] theorem setPort_lastCommit (s : State) (p : Nat) (x : Port) : (setPort s p x).lastCommit = s.lastCommit := rfl
@[simp] theorem setPort_invVa (s : State) (p : Nat) (x : Port) : (setPort s p x).invVa = s.invVa := rfl
@[simp] theorem setPort_invAsid (s : State) (p : Nat) (x : Port) : (setPort s p x).invAsid = s.invAsid := rfl
@[simp] theorem setPort_service (s : State) (p : Nat) (x : Port) : (setPort s p x).service = s.service := rfl

/-! ### setMem -/

@[simp] theorem setMem_turn (s : State) (m : Tab Byte) : (setMem s m).turn = s.turn := rfl
@[simp] theorem setMem_steps (s : State) (m : Tab Byte) : (setMem s m).steps = s.steps := rfl
@[simp] theorem setMem_inbox (s : State) (m : Tab Byte) : (setMem s m).inbox = s.inbox := rfl
@[simp] theorem setMem_sent (s : State) (m : Tab Byte) : (setMem s m).sent = s.sent := rfl
@[simp] theorem setMem_firing (s : State) (m : Tab Byte) : (setMem s m).firing = s.firing := rfl
@[simp] theorem setMem_issued (s : State) (m : Tab Byte) : (setMem s m).issued = s.issued := rfl
@[simp] theorem setMem_htime (s : State) (m : Tab Byte) : (setMem s m).htime = s.htime := rfl
@[simp] theorem setMem_mem (s : State) (m : Tab Byte) : (setMem s m).mem = m := rfl
@[simp] theorem setMem_chk (s : State) (m : Tab Byte) : (setMem s m).chk = s.chk := rfl
@[simp] theorem setMem_threads (s : State) (m : Tab Byte) : (setMem s m).threads = s.threads := rfl
@[simp] theorem setMem_dies (s : State) (m : Tab Byte) : (setMem s m).dies = s.dies := rfl
@[simp] theorem setMem_regions (s : State) (m : Tab Byte) : (setMem s m).regions = s.regions := rfl
@[simp] theorem setMem_clusters (s : State) (m : Tab Byte) : (setMem s m).clusters = s.clusters := rfl
@[simp] theorem setMem_ports (s : State) (m : Tab Byte) : (setMem s m).ports = s.ports := rfl
@[simp] theorem setMem_banks (s : State) (m : Tab Byte) : (setMem s m).banks = s.banks := rfl
@[simp] theorem setMem_bankWords (s : State) (m : Tab Byte) : (setMem s m).bankWords = s.bankWords := rfl
@[simp] theorem setMem_waiters (s : State) (m : Tab Byte) : (setMem s m).waiters = s.waiters := rfl
@[simp] theorem setMem_nacked (s : State) (m : Tab Byte) : (setMem s m).nacked = s.nacked := rfl
@[simp] theorem setMem_net (s : State) (m : Tab Byte) : (setMem s m).net = s.net := rfl
@[simp] theorem setMem_hops (s : State) (m : Tab Byte) : (setMem s m).hops = s.hops := rfl
@[simp] theorem setMem_digests (s : State) (m : Tab Byte) : (setMem s m).digests = s.digests := rfl
@[simp] theorem setMem_plumb (s : State) (m : Tab Byte) : (setMem s m).plumb = s.plumb := rfl
@[simp] theorem setMem_link (s : State) (m : Tab Byte) : (setMem s m).link = s.link := rfl
@[simp] theorem setMem_launch (s : State) (m : Tab Byte) : (setMem s m).launch = s.launch := rfl
@[simp] theorem setMem_lastCommit (s : State) (m : Tab Byte) : (setMem s m).lastCommit = s.lastCommit := rfl
@[simp] theorem setMem_invVa (s : State) (m : Tab Byte) : (setMem s m).invVa = s.invVa := rfl
@[simp] theorem setMem_invAsid (s : State) (m : Tab Byte) : (setMem s m).invAsid = s.invAsid := rfl
@[simp] theorem setMem_service (s : State) (m : Tab Byte) : (setMem s m).service = s.service := rfl

/-! ### setChk -/

@[simp] theorem setChk_turn (s : State) (u : Nat) (v : BitVec 16) : (setChk s u v).turn = s.turn := rfl
@[simp] theorem setChk_steps (s : State) (u : Nat) (v : BitVec 16) : (setChk s u v).steps = s.steps := rfl
@[simp] theorem setChk_inbox (s : State) (u : Nat) (v : BitVec 16) : (setChk s u v).inbox = s.inbox := rfl
@[simp] theorem setChk_sent (s : State) (u : Nat) (v : BitVec 16) : (setChk s u v).sent = s.sent := rfl
@[simp] theorem setChk_firing (s : State) (u : Nat) (v : BitVec 16) : (setChk s u v).firing = s.firing := rfl
@[simp] theorem setChk_issued (s : State) (u : Nat) (v : BitVec 16) : (setChk s u v).issued = s.issued := rfl
@[simp] theorem setChk_htime (s : State) (u : Nat) (v : BitVec 16) : (setChk s u v).htime = s.htime := rfl
@[simp] theorem setChk_mem (s : State) (u : Nat) (v : BitVec 16) : (setChk s u v).mem = s.mem := rfl
@[simp] theorem setChk_chk (s : State) (u : Nat) (v : BitVec 16) : (setChk s u v).chk = Tab.set 0 s.chk u v := rfl
@[simp] theorem setChk_threads (s : State) (u : Nat) (v : BitVec 16) : (setChk s u v).threads = s.threads := rfl
@[simp] theorem setChk_dies (s : State) (u : Nat) (v : BitVec 16) : (setChk s u v).dies = s.dies := rfl
@[simp] theorem setChk_regions (s : State) (u : Nat) (v : BitVec 16) : (setChk s u v).regions = s.regions := rfl
@[simp] theorem setChk_clusters (s : State) (u : Nat) (v : BitVec 16) : (setChk s u v).clusters = s.clusters := rfl
@[simp] theorem setChk_ports (s : State) (u : Nat) (v : BitVec 16) : (setChk s u v).ports = s.ports := rfl
@[simp] theorem setChk_banks (s : State) (u : Nat) (v : BitVec 16) : (setChk s u v).banks = s.banks := rfl
@[simp] theorem setChk_bankWords (s : State) (u : Nat) (v : BitVec 16) : (setChk s u v).bankWords = s.bankWords := rfl
@[simp] theorem setChk_waiters (s : State) (u : Nat) (v : BitVec 16) : (setChk s u v).waiters = s.waiters := rfl
@[simp] theorem setChk_nacked (s : State) (u : Nat) (v : BitVec 16) : (setChk s u v).nacked = s.nacked := rfl
@[simp] theorem setChk_net (s : State) (u : Nat) (v : BitVec 16) : (setChk s u v).net = s.net := rfl
@[simp] theorem setChk_hops (s : State) (u : Nat) (v : BitVec 16) : (setChk s u v).hops = s.hops := rfl
@[simp] theorem setChk_digests (s : State) (u : Nat) (v : BitVec 16) : (setChk s u v).digests = s.digests := rfl
@[simp] theorem setChk_plumb (s : State) (u : Nat) (v : BitVec 16) : (setChk s u v).plumb = s.plumb := rfl
@[simp] theorem setChk_link (s : State) (u : Nat) (v : BitVec 16) : (setChk s u v).link = s.link := rfl
@[simp] theorem setChk_launch (s : State) (u : Nat) (v : BitVec 16) : (setChk s u v).launch = s.launch := rfl
@[simp] theorem setChk_lastCommit (s : State) (u : Nat) (v : BitVec 16) : (setChk s u v).lastCommit = s.lastCommit := rfl
@[simp] theorem setChk_invVa (s : State) (u : Nat) (v : BitVec 16) : (setChk s u v).invVa = s.invVa := rfl
@[simp] theorem setChk_invAsid (s : State) (u : Nat) (v : BitVec 16) : (setChk s u v).invAsid = s.invAsid := rfl
@[simp] theorem setChk_service (s : State) (u : Nat) (v : BitVec 16) : (setChk s u v).service = s.service := rfl

/-! ### setCrew -/

@[simp] theorem setCrew_turn (s : State) (c : Nat) (x : Crew) : (setCrew s c x).turn = s.turn := rfl
@[simp] theorem setCrew_steps (s : State) (c : Nat) (x : Crew) : (setCrew s c x).steps = s.steps := rfl
@[simp] theorem setCrew_inbox (s : State) (c : Nat) (x : Crew) : (setCrew s c x).inbox = s.inbox := rfl
@[simp] theorem setCrew_sent (s : State) (c : Nat) (x : Crew) : (setCrew s c x).sent = s.sent := rfl
@[simp] theorem setCrew_firing (s : State) (c : Nat) (x : Crew) : (setCrew s c x).firing = s.firing := rfl
@[simp] theorem setCrew_issued (s : State) (c : Nat) (x : Crew) : (setCrew s c x).issued = s.issued := rfl
@[simp] theorem setCrew_htime (s : State) (c : Nat) (x : Crew) : (setCrew s c x).htime = s.htime := rfl
@[simp] theorem setCrew_mem (s : State) (c : Nat) (x : Crew) : (setCrew s c x).mem = s.mem := rfl
@[simp] theorem setCrew_chk (s : State) (c : Nat) (x : Crew) : (setCrew s c x).chk = s.chk := rfl
@[simp] theorem setCrew_threads (s : State) (c : Nat) (x : Crew) : (setCrew s c x).threads = s.threads := rfl
@[simp] theorem setCrew_dies (s : State) (c : Nat) (x : Crew) : (setCrew s c x).dies = s.dies := rfl
@[simp] theorem setCrew_regions (s : State) (c : Nat) (x : Crew) : (setCrew s c x).regions = s.regions := rfl
@[simp] theorem setCrew_clusters (s : State) (c : Nat) (x : Crew) : (setCrew s c x).clusters = s.clusters := rfl
@[simp] theorem setCrew_ports (s : State) (c : Nat) (x : Crew) : (setCrew s c x).ports = s.ports := rfl
@[simp] theorem setCrew_banks (s : State) (c : Nat) (x : Crew) : (setCrew s c x).banks = s.banks := rfl
@[simp] theorem setCrew_bankWords (s : State) (c : Nat) (x : Crew) : (setCrew s c x).bankWords = s.bankWords := rfl
@[simp] theorem setCrew_waiters (s : State) (c : Nat) (x : Crew) : (setCrew s c x).waiters = s.waiters := rfl
@[simp] theorem setCrew_nacked (s : State) (c : Nat) (x : Crew) : (setCrew s c x).nacked = s.nacked := rfl
@[simp] theorem setCrew_net (s : State) (c : Nat) (x : Crew) : (setCrew s c x).net = s.net := rfl
@[simp] theorem setCrew_hops (s : State) (c : Nat) (x : Crew) : (setCrew s c x).hops = s.hops := rfl
@[simp] theorem setCrew_digests (s : State) (c : Nat) (x : Crew) : (setCrew s c x).digests = s.digests := rfl
@[simp] theorem setCrew_plumb (s : State) (c : Nat) (x : Crew) : (setCrew s c x).plumb = { s.plumb with crews := Tab.set Crew.reset s.plumb.crews c x } := rfl
@[simp] theorem setCrew_link (s : State) (c : Nat) (x : Crew) : (setCrew s c x).link = s.link := rfl
@[simp] theorem setCrew_launch (s : State) (c : Nat) (x : Crew) : (setCrew s c x).launch = s.launch := rfl
@[simp] theorem setCrew_lastCommit (s : State) (c : Nat) (x : Crew) : (setCrew s c x).lastCommit = s.lastCommit := rfl
@[simp] theorem setCrew_invVa (s : State) (c : Nat) (x : Crew) : (setCrew s c x).invVa = s.invVa := rfl
@[simp] theorem setCrew_invAsid (s : State) (c : Nat) (x : Crew) : (setCrew s c x).invAsid = s.invAsid := rfl
@[simp] theorem setCrew_service (s : State) (c : Nat) (x : Crew) : (setCrew s c x).service = s.service := rfl

/-! ### send -/

@[simp] theorem send_turn (s : State) (x : Sent) : (send s x).turn = s.turn := rfl
@[simp] theorem send_steps (s : State) (x : Sent) : (send s x).steps = s.steps := rfl
@[simp] theorem send_inbox (s : State) (x : Sent) : (send s x).inbox = s.inbox := rfl
@[simp] theorem send_sent (s : State) (x : Sent) : (send s x).sent = s.sent ++ [x] := rfl
@[simp] theorem send_firing (s : State) (x : Sent) : (send s x).firing = s.firing := rfl
@[simp] theorem send_issued (s : State) (x : Sent) : (send s x).issued = s.issued := rfl
@[simp] theorem send_htime (s : State) (x : Sent) : (send s x).htime = s.htime := rfl
@[simp] theorem send_mem (s : State) (x : Sent) : (send s x).mem = s.mem := rfl
@[simp] theorem send_chk (s : State) (x : Sent) : (send s x).chk = s.chk := rfl
@[simp] theorem send_threads (s : State) (x : Sent) : (send s x).threads = s.threads := rfl
@[simp] theorem send_dies (s : State) (x : Sent) : (send s x).dies = s.dies := rfl
@[simp] theorem send_regions (s : State) (x : Sent) : (send s x).regions = s.regions := rfl
@[simp] theorem send_clusters (s : State) (x : Sent) : (send s x).clusters = s.clusters := rfl
@[simp] theorem send_ports (s : State) (x : Sent) : (send s x).ports = s.ports := rfl
@[simp] theorem send_banks (s : State) (x : Sent) : (send s x).banks = s.banks := rfl
@[simp] theorem send_bankWords (s : State) (x : Sent) : (send s x).bankWords = s.bankWords := rfl
@[simp] theorem send_waiters (s : State) (x : Sent) : (send s x).waiters = s.waiters := rfl
@[simp] theorem send_nacked (s : State) (x : Sent) : (send s x).nacked = s.nacked := rfl
@[simp] theorem send_net (s : State) (x : Sent) : (send s x).net = s.net := rfl
@[simp] theorem send_hops (s : State) (x : Sent) : (send s x).hops = s.hops := rfl
@[simp] theorem send_digests (s : State) (x : Sent) : (send s x).digests = s.digests := rfl
@[simp] theorem send_plumb (s : State) (x : Sent) : (send s x).plumb = s.plumb := rfl
@[simp] theorem send_link (s : State) (x : Sent) : (send s x).link = s.link := rfl
@[simp] theorem send_launch (s : State) (x : Sent) : (send s x).launch = s.launch := rfl
@[simp] theorem send_lastCommit (s : State) (x : Sent) : (send s x).lastCommit = s.lastCommit := rfl
@[simp] theorem send_invVa (s : State) (x : Sent) : (send s x).invVa = s.invVa := rfl
@[simp] theorem send_invAsid (s : State) (x : Sent) : (send s x).invAsid = s.invAsid := rfl
@[simp] theorem send_service (s : State) (x : Sent) : (send s x).service = s.service := rfl

/-! ### modLink -/

@[simp] theorem modLink_turn (s : State) (f : Link → Link) : (modLink s f).turn = s.turn := rfl
@[simp] theorem modLink_steps (s : State) (f : Link → Link) : (modLink s f).steps = s.steps := rfl
@[simp] theorem modLink_inbox (s : State) (f : Link → Link) : (modLink s f).inbox = s.inbox := rfl
@[simp] theorem modLink_sent (s : State) (f : Link → Link) : (modLink s f).sent = s.sent := rfl
@[simp] theorem modLink_firing (s : State) (f : Link → Link) : (modLink s f).firing = s.firing := rfl
@[simp] theorem modLink_issued (s : State) (f : Link → Link) : (modLink s f).issued = s.issued := rfl
@[simp] theorem modLink_htime (s : State) (f : Link → Link) : (modLink s f).htime = s.htime := rfl
@[simp] theorem modLink_mem (s : State) (f : Link → Link) : (modLink s f).mem = s.mem := rfl
@[simp] theorem modLink_chk (s : State) (f : Link → Link) : (modLink s f).chk = s.chk := rfl
@[simp] theorem modLink_threads (s : State) (f : Link → Link) : (modLink s f).threads = s.threads := rfl
@[simp] theorem modLink_dies (s : State) (f : Link → Link) : (modLink s f).dies = s.dies := rfl
@[simp] theorem modLink_regions (s : State) (f : Link → Link) : (modLink s f).regions = s.regions := rfl
@[simp] theorem modLink_clusters (s : State) (f : Link → Link) : (modLink s f).clusters = s.clusters := rfl
@[simp] theorem modLink_ports (s : State) (f : Link → Link) : (modLink s f).ports = s.ports := rfl
@[simp] theorem modLink_banks (s : State) (f : Link → Link) : (modLink s f).banks = s.banks := rfl
@[simp] theorem modLink_bankWords (s : State) (f : Link → Link) : (modLink s f).bankWords = s.bankWords := rfl
@[simp] theorem modLink_waiters (s : State) (f : Link → Link) : (modLink s f).waiters = s.waiters := rfl
@[simp] theorem modLink_nacked (s : State) (f : Link → Link) : (modLink s f).nacked = s.nacked := rfl
@[simp] theorem modLink_net (s : State) (f : Link → Link) : (modLink s f).net = s.net := rfl
@[simp] theorem modLink_hops (s : State) (f : Link → Link) : (modLink s f).hops = s.hops := rfl
@[simp] theorem modLink_digests (s : State) (f : Link → Link) : (modLink s f).digests = s.digests := rfl
@[simp] theorem modLink_plumb (s : State) (f : Link → Link) : (modLink s f).plumb = s.plumb := rfl
@[simp] theorem modLink_link (s : State) (f : Link → Link) : (modLink s f).link = f s.link := rfl
@[simp] theorem modLink_launch (s : State) (f : Link → Link) : (modLink s f).launch = s.launch := rfl
@[simp] theorem modLink_lastCommit (s : State) (f : Link → Link) : (modLink s f).lastCommit = s.lastCommit := rfl
@[simp] theorem modLink_invVa (s : State) (f : Link → Link) : (modLink s f).invVa = s.invVa := rfl
@[simp] theorem modLink_invAsid (s : State) (f : Link → Link) : (modLink s f).invAsid = s.invAsid := rfl
@[simp] theorem modLink_service (s : State) (f : Link → Link) : (modLink s f).service = s.service := rfl

/-! ### modService -/

@[simp] theorem modService_turn (s : State) (f : Service → Service) : (modService s f).turn = s.turn := rfl
@[simp] theorem modService_steps (s : State) (f : Service → Service) : (modService s f).steps = s.steps := rfl
@[simp] theorem modService_inbox (s : State) (f : Service → Service) : (modService s f).inbox = s.inbox := rfl
@[simp] theorem modService_sent (s : State) (f : Service → Service) : (modService s f).sent = s.sent := rfl
@[simp] theorem modService_firing (s : State) (f : Service → Service) : (modService s f).firing = s.firing := rfl
@[simp] theorem modService_issued (s : State) (f : Service → Service) : (modService s f).issued = s.issued := rfl
@[simp] theorem modService_htime (s : State) (f : Service → Service) : (modService s f).htime = s.htime := rfl
@[simp] theorem modService_mem (s : State) (f : Service → Service) : (modService s f).mem = s.mem := rfl
@[simp] theorem modService_chk (s : State) (f : Service → Service) : (modService s f).chk = s.chk := rfl
@[simp] theorem modService_threads (s : State) (f : Service → Service) : (modService s f).threads = s.threads := rfl
@[simp] theorem modService_dies (s : State) (f : Service → Service) : (modService s f).dies = s.dies := rfl
@[simp] theorem modService_regions (s : State) (f : Service → Service) : (modService s f).regions = s.regions := rfl
@[simp] theorem modService_clusters (s : State) (f : Service → Service) : (modService s f).clusters = s.clusters := rfl
@[simp] theorem modService_ports (s : State) (f : Service → Service) : (modService s f).ports = s.ports := rfl
@[simp] theorem modService_banks (s : State) (f : Service → Service) : (modService s f).banks = s.banks := rfl
@[simp] theorem modService_bankWords (s : State) (f : Service → Service) : (modService s f).bankWords = s.bankWords := rfl
@[simp] theorem modService_waiters (s : State) (f : Service → Service) : (modService s f).waiters = s.waiters := rfl
@[simp] theorem modService_nacked (s : State) (f : Service → Service) : (modService s f).nacked = s.nacked := rfl
@[simp] theorem modService_net (s : State) (f : Service → Service) : (modService s f).net = s.net := rfl
@[simp] theorem modService_hops (s : State) (f : Service → Service) : (modService s f).hops = s.hops := rfl
@[simp] theorem modService_digests (s : State) (f : Service → Service) : (modService s f).digests = s.digests := rfl
@[simp] theorem modService_plumb (s : State) (f : Service → Service) : (modService s f).plumb = s.plumb := rfl
@[simp] theorem modService_link (s : State) (f : Service → Service) : (modService s f).link = s.link := rfl
@[simp] theorem modService_launch (s : State) (f : Service → Service) : (modService s f).launch = s.launch := rfl
@[simp] theorem modService_lastCommit (s : State) (f : Service → Service) : (modService s f).lastCommit = s.lastCommit := rfl
@[simp] theorem modService_invVa (s : State) (f : Service → Service) : (modService s f).invVa = s.invVa := rfl
@[simp] theorem modService_invAsid (s : State) (f : Service → Service) : (modService s f).invAsid = s.invAsid := rfl
@[simp] theorem modService_service (s : State) (f : Service → Service) : (modService s f).service = f s.service := rfl

/-! ### modPlumb -/

@[simp] theorem modPlumb_turn (s : State) (f : Plumb → Plumb) : (modPlumb s f).turn = s.turn := rfl
@[simp] theorem modPlumb_steps (s : State) (f : Plumb → Plumb) : (modPlumb s f).steps = s.steps := rfl
@[simp] theorem modPlumb_inbox (s : State) (f : Plumb → Plumb) : (modPlumb s f).inbox = s.inbox := rfl
@[simp] theorem modPlumb_sent (s : State) (f : Plumb → Plumb) : (modPlumb s f).sent = s.sent := rfl
@[simp] theorem modPlumb_firing (s : State) (f : Plumb → Plumb) : (modPlumb s f).firing = s.firing := rfl
@[simp] theorem modPlumb_issued (s : State) (f : Plumb → Plumb) : (modPlumb s f).issued = s.issued := rfl
@[simp] theorem modPlumb_htime (s : State) (f : Plumb → Plumb) : (modPlumb s f).htime = s.htime := rfl
@[simp] theorem modPlumb_mem (s : State) (f : Plumb → Plumb) : (modPlumb s f).mem = s.mem := rfl
@[simp] theorem modPlumb_chk (s : State) (f : Plumb → Plumb) : (modPlumb s f).chk = s.chk := rfl
@[simp] theorem modPlumb_threads (s : State) (f : Plumb → Plumb) : (modPlumb s f).threads = s.threads := rfl
@[simp] theorem modPlumb_dies (s : State) (f : Plumb → Plumb) : (modPlumb s f).dies = s.dies := rfl
@[simp] theorem modPlumb_regions (s : State) (f : Plumb → Plumb) : (modPlumb s f).regions = s.regions := rfl
@[simp] theorem modPlumb_clusters (s : State) (f : Plumb → Plumb) : (modPlumb s f).clusters = s.clusters := rfl
@[simp] theorem modPlumb_ports (s : State) (f : Plumb → Plumb) : (modPlumb s f).ports = s.ports := rfl
@[simp] theorem modPlumb_banks (s : State) (f : Plumb → Plumb) : (modPlumb s f).banks = s.banks := rfl
@[simp] theorem modPlumb_bankWords (s : State) (f : Plumb → Plumb) : (modPlumb s f).bankWords = s.bankWords := rfl
@[simp] theorem modPlumb_waiters (s : State) (f : Plumb → Plumb) : (modPlumb s f).waiters = s.waiters := rfl
@[simp] theorem modPlumb_nacked (s : State) (f : Plumb → Plumb) : (modPlumb s f).nacked = s.nacked := rfl
@[simp] theorem modPlumb_net (s : State) (f : Plumb → Plumb) : (modPlumb s f).net = s.net := rfl
@[simp] theorem modPlumb_hops (s : State) (f : Plumb → Plumb) : (modPlumb s f).hops = s.hops := rfl
@[simp] theorem modPlumb_digests (s : State) (f : Plumb → Plumb) : (modPlumb s f).digests = s.digests := rfl
@[simp] theorem modPlumb_plumb (s : State) (f : Plumb → Plumb) : (modPlumb s f).plumb = f s.plumb := rfl
@[simp] theorem modPlumb_link (s : State) (f : Plumb → Plumb) : (modPlumb s f).link = s.link := rfl
@[simp] theorem modPlumb_launch (s : State) (f : Plumb → Plumb) : (modPlumb s f).launch = s.launch := rfl
@[simp] theorem modPlumb_lastCommit (s : State) (f : Plumb → Plumb) : (modPlumb s f).lastCommit = s.lastCommit := rfl
@[simp] theorem modPlumb_invVa (s : State) (f : Plumb → Plumb) : (modPlumb s f).invVa = s.invVa := rfl
@[simp] theorem modPlumb_invAsid (s : State) (f : Plumb → Plumb) : (modPlumb s f).invAsid = s.invAsid := rfl
@[simp] theorem modPlumb_service (s : State) (f : Plumb → Plumb) : (modPlumb s f).service = s.service := rfl

/-! ### Access after an update -/

@[simp] theorem getThread_setThread_same (s : State) (a : Nat) (x : Thread) : getThread (setThread s a x) a = x :=
  Tab.get_set_same _ _ _ _
theorem getThread_setThread (s : State) (a b : Nat) (x : Thread) : getThread (setThread s a x) b = if a = b then x else getThread s b :=
  Tab.get_set _ _ _ _ _
theorem getThread_setThread_other (s : State) {a b : Nat} (x : Thread) (h : a ≠ b) : getThread (setThread s a x) b = getThread s b :=
  Tab.get_set_other _ _ _ h
@[simp] theorem getThread_setRegion (s : State) (r : Nat) (x : Region) (k : Nat) : getThread (setRegion s r x) k = getThread s k := rfl
@[simp] theorem getThread_setCluster (s : State) (c : Nat) (x : Cluster) (k : Nat) : getThread (setCluster s c x) k = getThread s k := rfl
@[simp] theorem getThread_setDie (s : State) (d : Nat) (x : Die) (k : Nat) : getThread (setDie s d x) k = getThread s k := rfl
@[simp] theorem getThread_setBank (s : State) (b : Nat) (x : Bank) (k : Nat) : getThread (setBank s b x) k = getThread s k := rfl
@[simp] theorem getThread_setPort (s : State) (p : Nat) (x : Port) (k : Nat) : getThread (setPort s p x) k = getThread s k := rfl
@[simp] theorem getThread_setMem (s : State) (m : Tab Byte) (k : Nat) : getThread (setMem s m) k = getThread s k := rfl
@[simp] theorem getThread_setChk (s : State) (u : Nat) (v : BitVec 16) (k : Nat) : getThread (setChk s u v) k = getThread s k := rfl
@[simp] theorem getThread_setCrew (s : State) (c : Nat) (x : Crew) (k : Nat) : getThread (setCrew s c x) k = getThread s k := rfl
@[simp] theorem getThread_send (s : State) (x : Sent) (k : Nat) : getThread (send s x) k = getThread s k := rfl
@[simp] theorem getThread_modLink (s : State) (f : Link → Link) (k : Nat) : getThread (modLink s f) k = getThread s k := rfl
@[simp] theorem getThread_modService (s : State) (f : Service → Service) (k : Nat) : getThread (modService s f) k = getThread s k := rfl
@[simp] theorem getThread_modPlumb (s : State) (f : Plumb → Plumb) (k : Nat) : getThread (modPlumb s f) k = getThread s k := rfl

@[simp] theorem getRegion_setRegion_same (s : State) (a : Nat) (x : Region) : getRegion (setRegion s a x) a = x :=
  Tab.get_set_same _ _ _ _
theorem getRegion_setRegion (s : State) (a b : Nat) (x : Region) : getRegion (setRegion s a x) b = if a = b then x else getRegion s b :=
  Tab.get_set _ _ _ _ _
theorem getRegion_setRegion_other (s : State) {a b : Nat} (x : Region) (h : a ≠ b) : getRegion (setRegion s a x) b = getRegion s b :=
  Tab.get_set_other _ _ _ h
@[simp] theorem getRegion_setThread (s : State) (th : Nat) (t : Thread) (k : Nat) : getRegion (setThread s th t) k = getRegion s k := rfl
@[simp] theorem getRegion_setCluster (s : State) (c : Nat) (x : Cluster) (k : Nat) : getRegion (setCluster s c x) k = getRegion s k := rfl
@[simp] theorem getRegion_setDie (s : State) (d : Nat) (x : Die) (k : Nat) : getRegion (setDie s d x) k = getRegion s k := rfl
@[simp] theorem getRegion_setBank (s : State) (b : Nat) (x : Bank) (k : Nat) : getRegion (setBank s b x) k = getRegion s k := rfl
@[simp] theorem getRegion_setPort (s : State) (p : Nat) (x : Port) (k : Nat) : getRegion (setPort s p x) k = getRegion s k := rfl
@[simp] theorem getRegion_setMem (s : State) (m : Tab Byte) (k : Nat) : getRegion (setMem s m) k = getRegion s k := rfl
@[simp] theorem getRegion_setChk (s : State) (u : Nat) (v : BitVec 16) (k : Nat) : getRegion (setChk s u v) k = getRegion s k := rfl
@[simp] theorem getRegion_setCrew (s : State) (c : Nat) (x : Crew) (k : Nat) : getRegion (setCrew s c x) k = getRegion s k := rfl
@[simp] theorem getRegion_send (s : State) (x : Sent) (k : Nat) : getRegion (send s x) k = getRegion s k := rfl
@[simp] theorem getRegion_modLink (s : State) (f : Link → Link) (k : Nat) : getRegion (modLink s f) k = getRegion s k := rfl
@[simp] theorem getRegion_modService (s : State) (f : Service → Service) (k : Nat) : getRegion (modService s f) k = getRegion s k := rfl
@[simp] theorem getRegion_modPlumb (s : State) (f : Plumb → Plumb) (k : Nat) : getRegion (modPlumb s f) k = getRegion s k := rfl

@[simp] theorem getCluster_setCluster_same (s : State) (a : Nat) (x : Cluster) : getCluster (setCluster s a x) a = x :=
  Tab.get_set_same _ _ _ _
theorem getCluster_setCluster (s : State) (a b : Nat) (x : Cluster) : getCluster (setCluster s a x) b = if a = b then x else getCluster s b :=
  Tab.get_set _ _ _ _ _
theorem getCluster_setCluster_other (s : State) {a b : Nat} (x : Cluster) (h : a ≠ b) : getCluster (setCluster s a x) b = getCluster s b :=
  Tab.get_set_other _ _ _ h
@[simp] theorem getCluster_setThread (s : State) (th : Nat) (t : Thread) (k : Nat) : getCluster (setThread s th t) k = getCluster s k := rfl
@[simp] theorem getCluster_setRegion (s : State) (r : Nat) (x : Region) (k : Nat) : getCluster (setRegion s r x) k = getCluster s k := rfl
@[simp] theorem getCluster_setDie (s : State) (d : Nat) (x : Die) (k : Nat) : getCluster (setDie s d x) k = getCluster s k := rfl
@[simp] theorem getCluster_setBank (s : State) (b : Nat) (x : Bank) (k : Nat) : getCluster (setBank s b x) k = getCluster s k := rfl
@[simp] theorem getCluster_setPort (s : State) (p : Nat) (x : Port) (k : Nat) : getCluster (setPort s p x) k = getCluster s k := rfl
@[simp] theorem getCluster_setMem (s : State) (m : Tab Byte) (k : Nat) : getCluster (setMem s m) k = getCluster s k := rfl
@[simp] theorem getCluster_setChk (s : State) (u : Nat) (v : BitVec 16) (k : Nat) : getCluster (setChk s u v) k = getCluster s k := rfl
@[simp] theorem getCluster_setCrew (s : State) (c : Nat) (x : Crew) (k : Nat) : getCluster (setCrew s c x) k = getCluster s k := rfl
@[simp] theorem getCluster_send (s : State) (x : Sent) (k : Nat) : getCluster (send s x) k = getCluster s k := rfl
@[simp] theorem getCluster_modLink (s : State) (f : Link → Link) (k : Nat) : getCluster (modLink s f) k = getCluster s k := rfl
@[simp] theorem getCluster_modService (s : State) (f : Service → Service) (k : Nat) : getCluster (modService s f) k = getCluster s k := rfl
@[simp] theorem getCluster_modPlumb (s : State) (f : Plumb → Plumb) (k : Nat) : getCluster (modPlumb s f) k = getCluster s k := rfl

@[simp] theorem getDie_setDie_same (s : State) (a : Nat) (x : Die) : getDie (setDie s a x) a = x :=
  Tab.get_set_same _ _ _ _
theorem getDie_setDie (s : State) (a b : Nat) (x : Die) : getDie (setDie s a x) b = if a = b then x else getDie s b :=
  Tab.get_set _ _ _ _ _
theorem getDie_setDie_other (s : State) {a b : Nat} (x : Die) (h : a ≠ b) : getDie (setDie s a x) b = getDie s b :=
  Tab.get_set_other _ _ _ h
@[simp] theorem getDie_setThread (s : State) (th : Nat) (t : Thread) (k : Nat) : getDie (setThread s th t) k = getDie s k := rfl
@[simp] theorem getDie_setRegion (s : State) (r : Nat) (x : Region) (k : Nat) : getDie (setRegion s r x) k = getDie s k := rfl
@[simp] theorem getDie_setCluster (s : State) (c : Nat) (x : Cluster) (k : Nat) : getDie (setCluster s c x) k = getDie s k := rfl
@[simp] theorem getDie_setBank (s : State) (b : Nat) (x : Bank) (k : Nat) : getDie (setBank s b x) k = getDie s k := rfl
@[simp] theorem getDie_setPort (s : State) (p : Nat) (x : Port) (k : Nat) : getDie (setPort s p x) k = getDie s k := rfl
@[simp] theorem getDie_setMem (s : State) (m : Tab Byte) (k : Nat) : getDie (setMem s m) k = getDie s k := rfl
@[simp] theorem getDie_setChk (s : State) (u : Nat) (v : BitVec 16) (k : Nat) : getDie (setChk s u v) k = getDie s k := rfl
@[simp] theorem getDie_setCrew (s : State) (c : Nat) (x : Crew) (k : Nat) : getDie (setCrew s c x) k = getDie s k := rfl
@[simp] theorem getDie_send (s : State) (x : Sent) (k : Nat) : getDie (send s x) k = getDie s k := rfl
@[simp] theorem getDie_modLink (s : State) (f : Link → Link) (k : Nat) : getDie (modLink s f) k = getDie s k := rfl
@[simp] theorem getDie_modService (s : State) (f : Service → Service) (k : Nat) : getDie (modService s f) k = getDie s k := rfl
@[simp] theorem getDie_modPlumb (s : State) (f : Plumb → Plumb) (k : Nat) : getDie (modPlumb s f) k = getDie s k := rfl

@[simp] theorem getBank_setBank_same (s : State) (a : Nat) (x : Bank) : getBank (setBank s a x) a = x :=
  Tab.get_set_same _ _ _ _
theorem getBank_setBank (s : State) (a b : Nat) (x : Bank) : getBank (setBank s a x) b = if a = b then x else getBank s b :=
  Tab.get_set _ _ _ _ _
theorem getBank_setBank_other (s : State) {a b : Nat} (x : Bank) (h : a ≠ b) : getBank (setBank s a x) b = getBank s b :=
  Tab.get_set_other _ _ _ h
@[simp] theorem getBank_setThread (s : State) (th : Nat) (t : Thread) (k : Nat) : getBank (setThread s th t) k = getBank s k := rfl
@[simp] theorem getBank_setRegion (s : State) (r : Nat) (x : Region) (k : Nat) : getBank (setRegion s r x) k = getBank s k := rfl
@[simp] theorem getBank_setCluster (s : State) (c : Nat) (x : Cluster) (k : Nat) : getBank (setCluster s c x) k = getBank s k := rfl
@[simp] theorem getBank_setDie (s : State) (d : Nat) (x : Die) (k : Nat) : getBank (setDie s d x) k = getBank s k := rfl
@[simp] theorem getBank_setPort (s : State) (p : Nat) (x : Port) (k : Nat) : getBank (setPort s p x) k = getBank s k := rfl
@[simp] theorem getBank_setMem (s : State) (m : Tab Byte) (k : Nat) : getBank (setMem s m) k = getBank s k := rfl
@[simp] theorem getBank_setChk (s : State) (u : Nat) (v : BitVec 16) (k : Nat) : getBank (setChk s u v) k = getBank s k := rfl
@[simp] theorem getBank_setCrew (s : State) (c : Nat) (x : Crew) (k : Nat) : getBank (setCrew s c x) k = getBank s k := rfl
@[simp] theorem getBank_send (s : State) (x : Sent) (k : Nat) : getBank (send s x) k = getBank s k := rfl
@[simp] theorem getBank_modLink (s : State) (f : Link → Link) (k : Nat) : getBank (modLink s f) k = getBank s k := rfl
@[simp] theorem getBank_modService (s : State) (f : Service → Service) (k : Nat) : getBank (modService s f) k = getBank s k := rfl
@[simp] theorem getBank_modPlumb (s : State) (f : Plumb → Plumb) (k : Nat) : getBank (modPlumb s f) k = getBank s k := rfl

@[simp] theorem getPort_setPort_same (s : State) (a : Nat) (x : Port) : getPort (setPort s a x) a = x :=
  Tab.get_set_same _ _ _ _
theorem getPort_setPort (s : State) (a b : Nat) (x : Port) : getPort (setPort s a x) b = if a = b then x else getPort s b :=
  Tab.get_set _ _ _ _ _
theorem getPort_setPort_other (s : State) {a b : Nat} (x : Port) (h : a ≠ b) : getPort (setPort s a x) b = getPort s b :=
  Tab.get_set_other _ _ _ h
@[simp] theorem getPort_setThread (s : State) (th : Nat) (t : Thread) (k : Nat) : getPort (setThread s th t) k = getPort s k := rfl
@[simp] theorem getPort_setRegion (s : State) (r : Nat) (x : Region) (k : Nat) : getPort (setRegion s r x) k = getPort s k := rfl
@[simp] theorem getPort_setCluster (s : State) (c : Nat) (x : Cluster) (k : Nat) : getPort (setCluster s c x) k = getPort s k := rfl
@[simp] theorem getPort_setDie (s : State) (d : Nat) (x : Die) (k : Nat) : getPort (setDie s d x) k = getPort s k := rfl
@[simp] theorem getPort_setBank (s : State) (b : Nat) (x : Bank) (k : Nat) : getPort (setBank s b x) k = getPort s k := rfl
@[simp] theorem getPort_setMem (s : State) (m : Tab Byte) (k : Nat) : getPort (setMem s m) k = getPort s k := rfl
@[simp] theorem getPort_setChk (s : State) (u : Nat) (v : BitVec 16) (k : Nat) : getPort (setChk s u v) k = getPort s k := rfl
@[simp] theorem getPort_setCrew (s : State) (c : Nat) (x : Crew) (k : Nat) : getPort (setCrew s c x) k = getPort s k := rfl
@[simp] theorem getPort_send (s : State) (x : Sent) (k : Nat) : getPort (send s x) k = getPort s k := rfl
@[simp] theorem getPort_modLink (s : State) (f : Link → Link) (k : Nat) : getPort (modLink s f) k = getPort s k := rfl
@[simp] theorem getPort_modService (s : State) (f : Service → Service) (k : Nat) : getPort (modService s f) k = getPort s k := rfl
@[simp] theorem getPort_modPlumb (s : State) (f : Plumb → Plumb) (k : Nat) : getPort (modPlumb s f) k = getPort s k := rfl

@[simp] theorem getCrew_setCrew_same (s : State) (a : Nat) (x : Crew) : getCrew (setCrew s a x) a = x := Tab.get_set_same _ _ _ _
theorem getCrew_setCrew (s : State) (a b : Nat) (x : Crew) : getCrew (setCrew s a x) b = if a = b then x else getCrew s b :=
  Tab.get_set _ _ _ _ _

theorem modRegion_eq (s : State) (r : Nat) (f : Region → Region) : modRegion s r f = setRegion s r (f (getRegion s r)) := rfl
theorem modCluster_eq (s : State) (c : Nat) (f : Cluster → Cluster) : modCluster s c f = setCluster s c (f (getCluster s c)) := rfl
theorem modPort_eq (s : State) (p : Nat) (f : Port → Port) : modPort s p f = setPort s p (f (getPort s p)) := rfl

end Sys2Proof.Machine
end

