-- ==== Sys2Proof/Laws/Hawk.lean ====
section
/-! SUPPORT. Laws of the Hawk's shared operations: register access, the end of a word, trap entry and return. -/

namespace Sys2Proof.Machine

/-! ### Registers (04 R107) -/

/-- x0 discards a write; every other register takes its value. -/
theorem Thread.getX_setX (t : Thread) (r q : Reg) (v : Word) :
    (t.setX r v).getX q = if q = r ∧ r ≠ 0 then v else t.getX q := by
  unfold Thread.setX Thread.getX
  by_cases hr : r = 0
  · rw [if_pos hr, if_neg (fun h : q = r ∧ r ≠ 0 => h.2 hr)]
  · rw [if_neg hr]
    by_cases hq : q = r
    · subst hq; rw [if_neg hr, if_pos ⟨rfl, hr⟩]; simp
    · rw [if_neg (fun h : q = r ∧ r ≠ 0 => hq h.1)]
      have h : r.toNat ≠ q.toNat := fun h => hq (BitVec.eq_of_toNat_eq h.symm)
      by_cases h0 : q = 0
      · rw [if_pos h0, if_pos h0]
      · rw [if_neg h0, if_neg h0]; exact Vector.getElem_set_ne r.isLt q.isLt h

theorem Thread.getD_setD (t : Thread) (r q : Reg) (v : Word) : (t.setD r v).getD q = if q = r then v else t.getD q := by
  unfold Thread.setD Thread.getD
  by_cases hq : q = r
  · subst hq; rw [if_pos rfl]; simp
  · rw [if_neg hq]
    exact Vector.getElem_set_ne r.isLt q.isLt fun h => hq (BitVec.eq_of_toNat_eq h.symm)

theorem Thread.setX_eq (t : Thread) (r : Reg) (v : Word) : t.setX r v = { t with x := (t.setX r v).x } := by
  unfold Thread.setX; split <;> rfl

@[simp] theorem Thread.setX_pc (t : Thread) (r : Reg) (v : Word) : (t.setX r v).pc = t.pc := by
  unfold Thread.setX; split <;> rfl

@[simp] theorem Thread.setX_mode (t : Thread) (r : Reg) (v : Word) : (t.setX r v).mode = t.mode := by
  unfold Thread.setX; split <;> rfl

@[simp] theorem Thread.getX_pc (t : Thread) (p : Word) (q : Reg) : { t with pc := p }.getX q = t.getX q := rfl
@[simp] theorem Thread.getD_pc (t : Thread) (p : Word) (q : Reg) : { t with pc := p }.getD q = t.getD q := rfl

/-! ### The thread whose turn it is -/

@[simp] theorem cur_setThread (s : State) (a : Nat) (t : Thread) : cur (setThread s a t) = cur s := rfl
@[simp] theorem now_setThread (s : State) (t : Thread) : (setThread s (cur s) t).now = t := by
  simp [State.now]

/-- The end of an integer word: its result, and nothing else. -/
theorem puts_finishX (s : State) (r : Reg) (v : Word) : PutsX s (finishX s (cur s) r v) r v := by
  refine ⟨(s.now.setX r v).x, ?_, fun q => ?_⟩
  · unfold finishX State.now; rw [Thread.setX_eq]
  · unfold finishX
    rw [now_setThread]
    exact Thread.getX_setX _ _ _ _

/-- The end of a floating-point word with a result in a d register. -/
theorem puts_finishD (s : State) (r : Reg) (v : Word) : PutsD s (finishD s (cur s) r v) r v := by
  refine ⟨(s.now.setD r v).d, rfl, fun q => ?_⟩
  unfold finishD
  rw [now_setThread]
  exact Thread.getD_setD _ _ _ _

theorem yields_of (i : Instr) (s : State) (r : Reg) (v w : Word) (h : exec i s = .next (finishX s (cur s) r v)) (hv : w = v) :
    Yields i s r w := by
  subst hv; exact ⟨_, h, puts_finishX _ _ _⟩

theorem yieldsD_of (i : Instr) (s : State) (r : Reg) (v w : Word) (h : exec i s = .next (finishD s (cur s) r v)) (hv : w = v) :
    YieldsD i s r w := by
  subst hv; exact ⟨_, h, puts_finishD _ _ _⟩

/-! ### Traps (04 R128) -/

/-- A trap that is no double trap: the saved registers, the mode and the handler's address. -/
theorem trap_enters (s : State) (th code detail : Nat) (v : Word) (h : ((getThread s th).mode && !(getThread s th).ie) = false) :
    trap s th code detail v = setThread s th
      { getThread s th with cause := causeWord code false detail, xpc := (getThread s th).pc, xval := v, block := .none,
                            pmode := (getThread s th).mode, pie := (getThread s th).ie, mode := true, ie := false,
                            pc := (getThread s th).vec } := by
  unfold trap enterTrap
  simp only [Bool.not_false, Bool.and_true, h, Bool.false_eq_true, if_false]

/-! ### Local SRAM (04 R112, R113) -/

theorem sramOf_kind (s : State) (a : Word) (n : Nat) (h : SramAt s a n) : kindOf (sramOf s a) = .sram := by
  obtain ⟨-, -, -, -, hd, -⟩ := h
  unfold kindOf sramOf sramAddr
  have : a.toNat % 2 ^ 20 < 2 ^ 20 := Nat.mod_lt _ (by omega)
  rw [if_neg (by omega), if_neg (by omega), if_neg (by omega), if_pos (by omega)]

/-- A supervisor's aligned access to SRAM meets no check. -/
theorem hawkLoc_sram (s : State) (a w : Word) (n : Nat) (write : Bool) (h : SramAt s a n) :
    hawkLoc s (cur s) a n write w = .ok s (.mem (sramOf s a)) := by
  have hk := sramOf_kind s a n h
  obtain ⟨hm, hlo, hhi, -, hd, -⟩ := h
  have hc : canonical a.toNat = true := by unfold canonical; rw [Bool.or_eq_true]; right; rw [beq_iff_eq]; omega
  have hu : upperLoc s (cur s / 8) a.toNat = some (.mem (sramOf s a)) := by
    unfold upperLoc
    rw [if_pos]; · rfl
    unfold inRange; rw [Bool.and_eq_true]; exact ⟨decide_eq_true hlo, decide_eq_true hhi⟩
  have hs : inSinkArea (sramOf s a) = false := by
    unfold inSinkArea; rw [Bool.and_eq_false_iff]; left; rw [decide_eq_false_iff_not]
    unfold sramOf sramAddr; omega
  have hm' : (getThread s (cur s)).mode = true := hm
  have ht : lowerTop ≤ a.toNat := by unfold lowerTop; omega
  unfold hawkLoc
  simp only [hc, Bool.not_true, Bool.false_eq_true, if_false, if_pos ht, hm', hu, hs]

theorem sramOf_word_kind (s : State) (a : Word) (n : Nat) (h : SramAt s a n) : kindOf (sramOf s a / 8 * 8) = .sram := by
  obtain ⟨-, -, -, -, hd, -⟩ := h
  unfold kindOf sramOf sramAddr
  have : a.toNat % 2 ^ 20 < 2 ^ 20 := Nat.mod_lt _ (by omega)
  rw [if_neg (by omega), if_neg (by omega), if_neg (by omega), if_pos (by omega)]

theorem sramOf_aligned (s : State) (a : Word) (n : Nat) (h : SramAt s a n) (hn : n = 1 ∨ n = 2 ∨ n = 4 ∨ n = 8) :
    sramOf s a % n = 0 := by
  have ha := h.2.2.2.1
  unfold sramOf sramAddr
  rcases hn with rfl | rfl | rfl | rfl <;> omega

theorem clean_word (s : State) (u : Nat) (hk : kindOf u = .sram) (hc : Tab.get 0 s.chk u = 0) : UnitClean s u := by
  constructor
  · rw [hk]; rfl
  · rw [hc, hk]; rfl

theorem readMem_sram (s : State) (a : Word) (n : Nat) (h : SramAt s a n) (hn : n = 1 ∨ n = 2 ∨ n = 4 ∨ n = 8) :
    readMem s (sramOf s a) n = (s, Mem.read s.mem (sramOf s a) n, false) :=
  readMem_word s _ n (sramOf_kind s a n h) (sramOf_aligned s a n h hn) hn
    (clean_word s _ (sramOf_word_kind s a n h) h.2.2.2.2.2)

/-- A load from a word that holds no error answers the bytes there, little-endian. -/
theorem hawkLoad_mem (s : State) (a w : Word) (n p : Nat) (ha : a.toNat % n = 0)
    (hl : hawkLoc s (cur s) a n false w = .ok s (.mem p)) (hr : readMem s p n = (s, Mem.read s.mem p n, false)) :
    hawkLoad s (cur s) a n w = .ok s (leNat (Mem.read s.mem p n)) := by
  unfold hawkLoad
  rw [if_neg (fun h => h ha), hl]
  simp only [Hawk.andThen, hr, Bool.false_eq_true, if_false]

theorem hawkLoad_sram (s : State) (a w : Word) (n : Nat) (h : SramAt s a n) (hn : n = 1 ∨ n = 2 ∨ n = 4 ∨ n = 8) :
    hawkLoad s (cur s) a n w = .ok s (leNat (Mem.read s.mem (sramOf s a) n)) :=
  hawkLoad_mem s a w n _ h.2.2.2.1 (hawkLoc_sram s a w n false h) (readMem_sram s a n h hn)

end Sys2Proof.Machine
end

