-- ==== Sys2Proof/Laws/PerInstr.lean ====
section
/-! SUPPORT. Statements about every instruction, one lemma for each constructor. -/

namespace Sys2Proof.Laws.OneForm

/-- An instruction is a Hawk word, or an operator word, or a device event that no word encodes (03 R70, R80). -/
def Statement (i : Instr) : Prop :=
  ((encodeHawk i).isSome = true ∧ encodeOp i = none) ∨ (encodeHawk i = none ∧ (encodeOp i).isSome = true) ∨ encode i = none

theorem add (a0 : Reg) (a1 : Reg) (a2 : Reg) : Statement (.add a0 a1 a2) := .inl ⟨rfl, rfl⟩
theorem sub (a0 : Reg) (a1 : Reg) (a2 : Reg) : Statement (.sub a0 a1 a2) := .inl ⟨rfl, rfl⟩
theorem and (a0 : Reg) (a1 : Reg) (a2 : Reg) : Statement (.and a0 a1 a2) := .inl ⟨rfl, rfl⟩
theorem or (a0 : Reg) (a1 : Reg) (a2 : Reg) : Statement (.or a0 a1 a2) := .inl ⟨rfl, rfl⟩
theorem xor (a0 : Reg) (a1 : Reg) (a2 : Reg) : Statement (.xor a0 a1 a2) := .inl ⟨rfl, rfl⟩
theorem andn (a0 : Reg) (a1 : Reg) (a2 : Reg) : Statement (.andn a0 a1 a2) := .inl ⟨rfl, rfl⟩
theorem shl (a0 : Reg) (a1 : Reg) (a2 : Reg) : Statement (.shl a0 a1 a2) := .inl ⟨rfl, rfl⟩
theorem shr (a0 : Reg) (a1 : Reg) (a2 : Reg) : Statement (.shr a0 a1 a2) := .inl ⟨rfl, rfl⟩
theorem sar (a0 : Reg) (a1 : Reg) (a2 : Reg) : Statement (.sar a0 a1 a2) := .inl ⟨rfl, rfl⟩
theorem slt (a0 : Reg) (a1 : Reg) (a2 : Reg) : Statement (.slt a0 a1 a2) := .inl ⟨rfl, rfl⟩
theorem sltn (a0 : Reg) (a1 : Reg) (a2 : Reg) : Statement (.sltn a0 a1 a2) := .inl ⟨rfl, rfl⟩
theorem mul (a0 : Reg) (a1 : Reg) (a2 : Reg) : Statement (.mul a0 a1 a2) := .inl ⟨rfl, rfl⟩
theorem mulh (a0 : Reg) (a1 : Reg) (a2 : Reg) : Statement (.mulh a0 a1 a2) := .inl ⟨rfl, rfl⟩
theorem mulhn (a0 : Reg) (a1 : Reg) (a2 : Reg) : Statement (.mulhn a0 a1 a2) := .inl ⟨rfl, rfl⟩
theorem div (a0 : Reg) (a1 : Reg) (a2 : Reg) : Statement (.div a0 a1 a2) := .inl ⟨rfl, rfl⟩
theorem divn (a0 : Reg) (a1 : Reg) (a2 : Reg) : Statement (.divn a0 a1 a2) := .inl ⟨rfl, rfl⟩
theorem rem (a0 : Reg) (a1 : Reg) (a2 : Reg) : Statement (.rem a0 a1 a2) := .inl ⟨rfl, rfl⟩
theorem remn (a0 : Reg) (a1 : Reg) (a2 : Reg) : Statement (.remn a0 a1 a2) := .inl ⟨rfl, rfl⟩
theorem addi (a0 : Reg) (a1 : Reg) (a2 : BitVec 16) : Statement (.addi a0 a1 a2) := .inl ⟨rfl, rfl⟩
theorem andi (a0 : Reg) (a1 : Reg) (a2 : BitVec 16) : Statement (.andi a0 a1 a2) := .inl ⟨rfl, rfl⟩
theorem ori (a0 : Reg) (a1 : Reg) (a2 : BitVec 16) : Statement (.ori a0 a1 a2) := .inl ⟨rfl, rfl⟩
theorem xori (a0 : Reg) (a1 : Reg) (a2 : BitVec 16) : Statement (.xori a0 a1 a2) := .inl ⟨rfl, rfl⟩
theorem shli (a0 : Reg) (a1 : Reg) (a2 : BitVec 6) : Statement (.shli a0 a1 a2) := .inl ⟨rfl, rfl⟩
theorem shri (a0 : Reg) (a1 : Reg) (a2 : BitVec 6) : Statement (.shri a0 a1 a2) := .inl ⟨rfl, rfl⟩
theorem sari (a0 : Reg) (a1 : Reg) (a2 : BitVec 6) : Statement (.sari a0 a1 a2) := .inl ⟨rfl, rfl⟩
theorem slti (a0 : Reg) (a1 : Reg) (a2 : BitVec 16) : Statement (.slti a0 a1 a2) := .inl ⟨rfl, rfl⟩
theorem ldhi (a0 : Reg) (a1 : BitVec 16) : Statement (.ldhi a0 a1) := .inl ⟨rfl, rfl⟩
theorem addpc (a0 : Reg) (a1 : BitVec 16) : Statement (.addpc a0 a1) := .inl ⟨rfl, rfl⟩
theorem ldb (a0 : Reg) (a1 : Reg) (a2 : BitVec 16) : Statement (.ldb a0 a1 a2) := .inl ⟨rfl, rfl⟩
theorem ldh (a0 : Reg) (a1 : Reg) (a2 : BitVec 16) : Statement (.ldh a0 a1 a2) := .inl ⟨rfl, rfl⟩
theorem ldw (a0 : Reg) (a1 : Reg) (a2 : BitVec 16) : Statement (.ldw a0 a1 a2) := .inl ⟨rfl, rfl⟩
theorem ldd (a0 : Reg) (a1 : Reg) (a2 : BitVec 16) : Statement (.ldd a0 a1 a2) := .inl ⟨rfl, rfl⟩
theorem ldbn (a0 : Reg) (a1 : Reg) (a2 : BitVec 16) : Statement (.ldbn a0 a1 a2) := .inl ⟨rfl, rfl⟩
theorem ldhn (a0 : Reg) (a1 : Reg) (a2 : BitVec 16) : Statement (.ldhn a0 a1 a2) := .inl ⟨rfl, rfl⟩
theorem ldwn (a0 : Reg) (a1 : Reg) (a2 : BitVec 16) : Statement (.ldwn a0 a1 a2) := .inl ⟨rfl, rfl⟩
theorem stb (a0 : Reg) (a1 : Reg) (a2 : BitVec 16) : Statement (.stb a0 a1 a2) := .inl ⟨rfl, rfl⟩
theorem sth (a0 : Reg) (a1 : Reg) (a2 : BitVec 16) : Statement (.sth a0 a1 a2) := .inl ⟨rfl, rfl⟩
theorem stw (a0 : Reg) (a1 : Reg) (a2 : BitVec 16) : Statement (.stw a0 a1 a2) := .inl ⟨rfl, rfl⟩
theorem std (a0 : Reg) (a1 : Reg) (a2 : BitVec 16) : Statement (.std a0 a1 a2) := .inl ⟨rfl, rfl⟩
theorem beq (a0 : Reg) (a1 : Reg) (a2 : BitVec 16) : Statement (.beq a0 a1 a2) := .inl ⟨rfl, rfl⟩
theorem bne (a0 : Reg) (a1 : Reg) (a2 : BitVec 16) : Statement (.bne a0 a1 a2) := .inl ⟨rfl, rfl⟩
theorem blt (a0 : Reg) (a1 : Reg) (a2 : BitVec 16) : Statement (.blt a0 a1 a2) := .inl ⟨rfl, rfl⟩
theorem bge (a0 : Reg) (a1 : Reg) (a2 : BitVec 16) : Statement (.bge a0 a1 a2) := .inl ⟨rfl, rfl⟩
theorem bltn (a0 : Reg) (a1 : Reg) (a2 : BitVec 16) : Statement (.bltn a0 a1 a2) := .inl ⟨rfl, rfl⟩
theorem bgen (a0 : Reg) (a1 : Reg) (a2 : BitVec 16) : Statement (.bgen a0 a1 a2) := .inl ⟨rfl, rfl⟩
theorem jmpl (a0 : BitVec 26) : Statement (.jmpl a0) := .inl ⟨rfl, rfl⟩
theorem jmpr (a0 : Reg) (a1 : Reg) : Statement (.jmpr a0 a1) := .inl ⟨rfl, rfl⟩
theorem fadd (a0 : Reg) (a1 : Reg) (a2 : Reg) (a3 : HRm) (a4 : Bool) : Statement (.fadd a0 a1 a2 a3 a4) := .inl ⟨rfl, rfl⟩
theorem fsub (a0 : Reg) (a1 : Reg) (a2 : Reg) (a3 : HRm) (a4 : Bool) : Statement (.fsub a0 a1 a2 a3 a4) := .inl ⟨rfl, rfl⟩
theorem fmul (a0 : Reg) (a1 : Reg) (a2 : Reg) (a3 : HRm) (a4 : Bool) : Statement (.fmul a0 a1 a2 a3 a4) := .inl ⟨rfl, rfl⟩
theorem fdiv (a0 : Reg) (a1 : Reg) (a2 : Reg) (a3 : HRm) (a4 : Bool) : Statement (.fdiv a0 a1 a2 a3 a4) := .inl ⟨rfl, rfl⟩
theorem fsqrt (a0 : Reg) (a1 : Reg) (a2 : HRm) (a3 : Bool) : Statement (.fsqrt a0 a1 a2 a3) := .inl ⟨rfl, rfl⟩
theorem fminIeee (a0 : Reg) (a1 : Reg) (a2 : Reg) (a3 : Bool) : Statement (.fminIeee a0 a1 a2 a3) := .inl ⟨rfl, rfl⟩
theorem fminNum (a0 : Reg) (a1 : Reg) (a2 : Reg) (a3 : Bool) : Statement (.fminNum a0 a1 a2 a3) := .inl ⟨rfl, rfl⟩
theorem fmaxIeee (a0 : Reg) (a1 : Reg) (a2 : Reg) (a3 : Bool) : Statement (.fmaxIeee a0 a1 a2 a3) := .inl ⟨rfl, rfl⟩
theorem fmaxNum (a0 : Reg) (a1 : Reg) (a2 : Reg) (a3 : Bool) : Statement (.fmaxNum a0 a1 a2 a3) := .inl ⟨rfl, rfl⟩
theorem fcmpEq (a0 : Reg) (a1 : Reg) (a2 : Reg) (a3 : Bool) : Statement (.fcmpEq a0 a1 a2 a3) := .inl ⟨rfl, rfl⟩
theorem fcmpLt (a0 : Reg) (a1 : Reg) (a2 : Reg) (a3 : Bool) : Statement (.fcmpLt a0 a1 a2 a3) := .inl ⟨rfl, rfl⟩
theorem fcmpLe (a0 : Reg) (a1 : Reg) (a2 : Reg) (a3 : Bool) : Statement (.fcmpLe a0 a1 a2 a3) := .inl ⟨rfl, rfl⟩
theorem fcmpUn (a0 : Reg) (a1 : Reg) (a2 : Reg) (a3 : Bool) : Statement (.fcmpUn a0 a1 a2 a3) := .inl ⟨rfl, rfl⟩
theorem fcvtFf (a0 : Reg) (a1 : Reg) (a2 : HRm) (a3 : Bool) : Statement (.fcvtFf a0 a1 a2 a3) := .inl ⟨rfl, rfl⟩
theorem fcvtFromi (a0 : Reg) (a1 : Reg) (a2 : HRm) (a3 : Bool) : Statement (.fcvtFromi a0 a1 a2 a3) := .inl ⟨rfl, rfl⟩
theorem fcvtFromn (a0 : Reg) (a1 : Reg) (a2 : HRm) (a3 : Bool) : Statement (.fcvtFromn a0 a1 a2 a3) := .inl ⟨rfl, rfl⟩
theorem fcvtToi (a0 : Reg) (a1 : Reg) (a2 : HRm) (a3 : Bool) : Statement (.fcvtToi a0 a1 a2 a3) := .inl ⟨rfl, rfl⟩
theorem fcvtTon (a0 : Reg) (a1 : Reg) (a2 : HRm) (a3 : Bool) : Statement (.fcvtTon a0 a1 a2 a3) := .inl ⟨rfl, rfl⟩
theorem fcvtInt (a0 : Reg) (a1 : Reg) (a2 : HRm) (a3 : Bool) : Statement (.fcvtInt a0 a1 a2 a3) := .inl ⟨rfl, rfl⟩
theorem fmovMov (a0 : Reg) (a1 : Reg) (a2 : Bool) : Statement (.fmovMov a0 a1 a2) := .inl ⟨rfl, rfl⟩
theorem fmovFromx (a0 : Reg) (a1 : Reg) (a2 : Bool) : Statement (.fmovFromx a0 a1 a2) := .inl ⟨rfl, rfl⟩
theorem fmovTox (a0 : Reg) (a1 : Reg) (a2 : Bool) : Statement (.fmovTox a0 a1 a2) := .inl ⟨rfl, rfl⟩
theorem fmovNeg (a0 : Reg) (a1 : Reg) (a2 : Bool) : Statement (.fmovNeg a0 a1 a2) := .inl ⟨rfl, rfl⟩
theorem fmovAbs (a0 : Reg) (a1 : Reg) (a2 : Bool) : Statement (.fmovAbs a0 a1 a2) := .inl ⟨rfl, rfl⟩
theorem fmovCpys (a0 : Reg) (a1 : Reg) (a2 : Reg) (a3 : Bool) : Statement (.fmovCpys a0 a1 a2 a3) := .inl ⟨rfl, rfl⟩
theorem fclass (a0 : Reg) (a1 : Reg) (a2 : Bool) : Statement (.fclass a0 a1 a2) := .inl ⟨rfl, rfl⟩
theorem ffma (a0 : Reg) (a1 : Reg) (a2 : Reg) (a3 : Reg) (a4 : HRm) (a5 : Bool) : Statement (.ffma a0 a1 a2 a3 a4 a5) := .inl ⟨rfl, rfl⟩
theorem fld (a0 : Reg) (a1 : Reg) (a2 : BitVec 16) : Statement (.fld a0 a1 a2) := .inl ⟨rfl, rfl⟩
theorem fst (a0 : Reg) (a1 : Reg) (a2 : BitVec 16) : Statement (.fst a0 a1 a2) := .inl ⟨rfl, rfl⟩
theorem atomSwap (a0 : Reg) (a1 : Reg) (a2 : Reg) (a3 : Scope) (a4 : Bool) : Statement (.atomSwap a0 a1 a2 a3 a4) := .inl ⟨rfl, rfl⟩
theorem atomAdd (a0 : Reg) (a1 : Reg) (a2 : Reg) (a3 : Scope) (a4 : Bool) : Statement (.atomAdd a0 a1 a2 a3 a4) := .inl ⟨rfl, rfl⟩
theorem atomAnd (a0 : Reg) (a1 : Reg) (a2 : Reg) (a3 : Scope) (a4 : Bool) : Statement (.atomAnd a0 a1 a2 a3 a4) := .inl ⟨rfl, rfl⟩
theorem atomOr (a0 : Reg) (a1 : Reg) (a2 : Reg) (a3 : Scope) (a4 : Bool) : Statement (.atomOr a0 a1 a2 a3 a4) := .inl ⟨rfl, rfl⟩
theorem atomXor (a0 : Reg) (a1 : Reg) (a2 : Reg) (a3 : Scope) (a4 : Bool) : Statement (.atomXor a0 a1 a2 a3 a4) := .inl ⟨rfl, rfl⟩
theorem atomMin (a0 : Reg) (a1 : Reg) (a2 : Reg) (a3 : Scope) (a4 : Bool) : Statement (.atomMin a0 a1 a2 a3 a4) := .inl ⟨rfl, rfl⟩
theorem atomMax (a0 : Reg) (a1 : Reg) (a2 : Reg) (a3 : Scope) (a4 : Bool) : Statement (.atomMax a0 a1 a2 a3 a4) := .inl ⟨rfl, rfl⟩
theorem atomMinn (a0 : Reg) (a1 : Reg) (a2 : Reg) (a3 : Scope) (a4 : Bool) : Statement (.atomMinn a0 a1 a2 a3 a4) := .inl ⟨rfl, rfl⟩
theorem atomMaxn (a0 : Reg) (a1 : Reg) (a2 : Reg) (a3 : Scope) (a4 : Bool) : Statement (.atomMaxn a0 a1 a2 a3 a4) := .inl ⟨rfl, rfl⟩
theorem atomCas (a0 : Reg) (a1 : Reg) (a2 : Reg) (a3 : Scope) (a4 : Bool) : Statement (.atomCas a0 a1 a2 a3 a4) := .inl ⟨rfl, rfl⟩
theorem fence (a0 : Scope) : Statement (.fence a0) := .inl ⟨rfl, rfl⟩
theorem sysr (a0 : Reg) (a1 : BitVec 16) : Statement (.sysr a0 a1) := .inl ⟨rfl, rfl⟩
theorem sysw (a0 : Reg) (a1 : BitVec 16) : Statement (.sysw a0 a1) := .inl ⟨rfl, rfl⟩
theorem trap (a0 : BitVec 16) : Statement (.trap a0) := .inl ⟨rfl, rfl⟩
theorem tret : Statement (.tret) := .inl ⟨rfl, rfl⟩
theorem wfe : Statement (.wfe) := .inl ⟨rfl, rfl⟩
theorem svc (a0 : BitVec 16) : Statement (.svc a0) := .inl ⟨rfl, rfl⟩
theorem gload (a0 : Reg) (a1 : Reg) (a2 : Bool) : Statement (.gload a0 a1 a2) := .inl ⟨rfl, rfl⟩
theorem inj (a0 : Reg) (a1 : Reg) (a2 : Reg) (a3 : Bool) (a4 : Bool) : Statement (.inj a0 a1 a2 a3 a4) := .inl ⟨rfl, rfl⟩
theorem snkpop (a0 : Reg) (a1 : Reg) (a2 : Bool) : Statement (.snkpop a0 a1 a2) := .inl ⟨rfl, rfl⟩
theorem freeze (a0 : Reg) : Statement (.freeze a0) := .inl ⟨rfl, rfl⟩
theorem scan (a0 : Reg) (a1 : Reg) : Statement (.scan a0 a1) := .inl ⟨rfl, rfl⟩
theorem restore (a0 : Reg) (a1 : Reg) : Statement (.restore a0 a1) := .inl ⟨rfl, rfl⟩
theorem opwr (a0 : Reg) (a1 : Reg) (a2 : Reg) : Statement (.opwr a0 a1 a2) := .inl ⟨rfl, rfl⟩
theorem diagstHbm (a0 : Reg) (a1 : Reg) (a2 : Reg) : Statement (.diagstHbm a0 a1 a2) := .inl ⟨rfl, rfl⟩
theorem diagstBank (a0 : Reg) (a1 : Reg) (a2 : Reg) : Statement (.diagstBank a0 a1 a2) := .inl ⟨rfl, rfl⟩
theorem diagstSp (a0 : Reg) (a1 : Reg) (a2 : Reg) : Statement (.diagstSp a0 a1 a2) := .inl ⟨rfl, rfl⟩
theorem thaw (a0 : Reg) : Statement (.thaw a0) := .inl ⟨rfl, rfl⟩
theorem pass (a0 : Op) : Statement (.pass a0) := .inr (.inl ⟨rfl, rfl⟩)
theorem const (a0 : Op) : Statement (.const a0) := .inr (.inl ⟨rfl, rfl⟩)
theorem dup (a0 : Op) : Statement (.dup a0) := .inr (.inl ⟨rfl, rfl⟩)
theorem route (a0 : Op) : Statement (.route a0) := .inr (.inl ⟨rfl, rfl⟩)
theorem steer (a0 : Op) : Statement (.steer a0) := .inr (.inl ⟨rfl, rfl⟩)
theorem gate (a0 : Op) : Statement (.gate a0) := .inr (.inl ⟨rfl, rfl⟩)
theorem sel (a0 : Op) : Statement (.sel a0) := .inr (.inl ⟨rfl, rfl⟩)
theorem join (a0 : Op) : Statement (.join a0) := .inr (.inl ⟨rfl, rfl⟩)
theorem drop (a0 : Op) : Statement (.drop a0) := .inr (.inl ⟨rfl, rfl⟩)
theorem sink (a0 : Op) : Statement (.sink a0) := .inr (.inl ⟨rfl, rfl⟩)
theorem src (a0 : Op) : Statement (.src a0) := .inr (.inl ⟨rfl, rfl⟩)
theorem tagx (a0 : Op) : Statement (.tagx a0) := .inr (.inl ⟨rfl, rfl⟩)
theorem ctxEnter (a0 : Op) : Statement (.ctxEnter a0) := .inr (.inl ⟨rfl, rfl⟩)
theorem ctxNext (a0 : Op) : Statement (.ctxNext a0) := .inr (.inl ⟨rfl, rfl⟩)
theorem ctxExit (a0 : Op) : Statement (.ctxExit a0) := .inr (.inl ⟨rfl, rfl⟩)
theorem invSet (a0 : Op) : Statement (.invSet a0) := .inr (.inl ⟨rfl, rfl⟩)
theorem invGet (a0 : Op) : Statement (.invGet a0) := .inr (.inl ⟨rfl, rfl⟩)
theorem flagsGet (a0 : Op) : Statement (.flagsGet a0) := .inr (.inl ⟨rfl, rfl⟩)
theorem flagsClr (a0 : Op) : Statement (.flagsClr a0) := .inr (.inl ⟨rfl, rfl⟩)
theorem sadd (a0 : Op) : Statement (.sadd a0) := .inr (.inl ⟨rfl, rfl⟩)
theorem ssub (a0 : Op) : Statement (.ssub a0) := .inr (.inl ⟨rfl, rfl⟩)
theorem smul (a0 : Op) : Statement (.smul a0) := .inr (.inl ⟨rfl, rfl⟩)
theorem smad (a0 : Op) : Statement (.smad a0) := .inr (.inl ⟨rfl, rfl⟩)
theorem scmp (a0 : Op) : Statement (.scmp a0) := .inr (.inl ⟨rfl, rfl⟩)
theorem slog (a0 : Op) : Statement (.slog a0) := .inr (.inl ⟨rfl, rfl⟩)
theorem sshf (a0 : Op) : Statement (.sshf a0) := .inr (.inl ⟨rfl, rfl⟩)
theorem sminmax (a0 : Op) : Statement (.sminmax a0) := .inr (.inl ⟨rfl, rfl⟩)
theorem pfence (a0 : Op) : Statement (.pfence a0) := .inr (.inl ⟨rfl, rfl⟩)
theorem splice (a0 : Op) : Statement (.splice a0) := .inr (.inl ⟨rfl, rfl⟩)
theorem cmpx (a0 : Op) : Statement (.cmpx a0) := .inr (.inl ⟨rfl, rfl⟩)
theorem mark (a0 : Op) : Statement (.mark a0) := .inr (.inl ⟨rfl, rfl⟩)
theorem vadd (a0 : Op) : Statement (.vadd a0) := .inr (.inl ⟨rfl, rfl⟩)
theorem vsub (a0 : Op) : Statement (.vsub a0) := .inr (.inl ⟨rfl, rfl⟩)
theorem vmul (a0 : Op) : Statement (.vmul a0) := .inr (.inl ⟨rfl, rfl⟩)
theorem vfma (a0 : Op) : Statement (.vfma a0) := .inr (.inl ⟨rfl, rfl⟩)
theorem vfms (a0 : Op) : Statement (.vfms a0) := .inr (.inl ⟨rfl, rfl⟩)
theorem vdiv (a0 : Op) : Statement (.vdiv a0) := .inr (.inl ⟨rfl, rfl⟩)
theorem vsqrt (a0 : Op) : Statement (.vsqrt a0) := .inr (.inl ⟨rfl, rfl⟩)
theorem vrsqrt (a0 : Op) : Statement (.vrsqrt a0) := .inr (.inl ⟨rfl, rfl⟩)
theorem vmin (a0 : Op) : Statement (.vmin a0) := .inr (.inl ⟨rfl, rfl⟩)
theorem vmax (a0 : Op) : Statement (.vmax a0) := .inr (.inl ⟨rfl, rfl⟩)
theorem vminn (a0 : Op) : Statement (.vminn a0) := .inr (.inl ⟨rfl, rfl⟩)
theorem vmaxn (a0 : Op) : Statement (.vmaxn a0) := .inr (.inl ⟨rfl, rfl⟩)
theorem vabs (a0 : Op) : Statement (.vabs a0) := .inr (.inl ⟨rfl, rfl⟩)
theorem vneg (a0 : Op) : Statement (.vneg a0) := .inr (.inl ⟨rfl, rfl⟩)
theorem vcpys (a0 : Op) : Statement (.vcpys a0) := .inr (.inl ⟨rfl, rfl⟩)
theorem vscale (a0 : Op) : Statement (.vscale a0) := .inr (.inl ⟨rfl, rfl⟩)
theorem vrnd (a0 : Op) : Statement (.vrnd a0) := .inr (.inl ⟨rfl, rfl⟩)
theorem vclass (a0 : Op) : Statement (.vclass a0) := .inr (.inl ⟨rfl, rfl⟩)
theorem vcmp (a0 : Op) : Statement (.vcmp a0) := .inr (.inl ⟨rfl, rfl⟩)
theorem vcvt (a0 : Op) : Statement (.vcvt a0) := .inr (.inl ⟨rfl, rfl⟩)
theorem vsplit (a0 : Op) : Statement (.vsplit a0) := .inr (.inl ⟨rfl, rfl⟩)
theorem vexp (a0 : Op) : Statement (.vexp a0) := .inr (.inl ⟨rfl, rfl⟩)
theorem vexpm1 (a0 : Op) : Statement (.vexpm1 a0) := .inr (.inl ⟨rfl, rfl⟩)
theorem vlog (a0 : Op) : Statement (.vlog a0) := .inr (.inl ⟨rfl, rfl⟩)
theorem vlog1p (a0 : Op) : Statement (.vlog1p a0) := .inr (.inl ⟨rfl, rfl⟩)
theorem verf (a0 : Op) : Statement (.verf a0) := .inr (.inl ⟨rfl, rfl⟩)
theorem verfc (a0 : Op) : Statement (.verfc a0) := .inr (.inl ⟨rfl, rfl⟩)
theorem vexp2 (a0 : Op) : Statement (.vexp2 a0) := .inr (.inl ⟨rfl, rfl⟩)
theorem vlog2 (a0 : Op) : Statement (.vlog2 a0) := .inr (.inl ⟨rfl, rfl⟩)
theorem viadd (a0 : Op) : Statement (.viadd a0) := .inr (.inl ⟨rfl, rfl⟩)
theorem visub (a0 : Op) : Statement (.visub a0) := .inr (.inl ⟨rfl, rfl⟩)
theorem vimul (a0 : Op) : Statement (.vimul a0) := .inr (.inl ⟨rfl, rfl⟩)
theorem vimulh (a0 : Op) : Statement (.vimulh a0) := .inr (.inl ⟨rfl, rfl⟩)
theorem vimad (a0 : Op) : Statement (.vimad a0) := .inr (.inl ⟨rfl, rfl⟩)
theorem vimin (a0 : Op) : Statement (.vimin a0) := .inr (.inl ⟨rfl, rfl⟩)
theorem vimax (a0 : Op) : Statement (.vimax a0) := .inr (.inl ⟨rfl, rfl⟩)
theorem vicmp (a0 : Op) : Statement (.vicmp a0) := .inr (.inl ⟨rfl, rfl⟩)
theorem vand (a0 : Op) : Statement (.vand a0) := .inr (.inl ⟨rfl, rfl⟩)
theorem vor (a0 : Op) : Statement (.vor a0) := .inr (.inl ⟨rfl, rfl⟩)
theorem vxor (a0 : Op) : Statement (.vxor a0) := .inr (.inl ⟨rfl, rfl⟩)
theorem vshl (a0 : Op) : Statement (.vshl a0) := .inr (.inl ⟨rfl, rfl⟩)
theorem vshr (a0 : Op) : Statement (.vshr a0) := .inr (.inl ⟨rfl, rfl⟩)
theorem vsar (a0 : Op) : Statement (.vsar a0) := .inr (.inl ⟨rfl, rfl⟩)
theorem vpopc (a0 : Op) : Statement (.vpopc a0) := .inr (.inl ⟨rfl, rfl⟩)
theorem vclz (a0 : Op) : Statement (.vclz a0) := .inr (.inl ⟨rfl, rfl⟩)
theorem vbcast (a0 : Op) : Statement (.vbcast a0) := .inr (.inl ⟨rfl, rfl⟩)
theorem vsel (a0 : Op) : Statement (.vsel a0) := .inr (.inl ⟨rfl, rfl⟩)
theorem vperm (a0 : Op) : Statement (.vperm a0) := .inr (.inl ⟨rfl, rfl⟩)
theorem vtrans (a0 : Op) : Statement (.vtrans a0) := .inr (.inl ⟨rfl, rfl⟩)
theorem viota (a0 : Op) : Statement (.viota a0) := .inr (.inl ⟨rfl, rfl⟩)
theorem vextr (a0 : Op) : Statement (.vextr a0) := .inr (.inl ⟨rfl, rfl⟩)
theorem vins (a0 : Op) : Statement (.vins a0) := .inr (.inl ⟨rfl, rfl⟩)
theorem vslice (a0 : Op) : Statement (.vslice a0) := .inr (.inl ⟨rfl, rfl⟩)
theorem vreduce (a0 : Op) : Statement (.vreduce a0) := .inr (.inl ⟨rfl, rfl⟩)
theorem vscan (a0 : Op) : Statement (.vscan a0) := .inr (.inl ⟨rfl, rfl⟩)
theorem vcompr (a0 : Op) : Statement (.vcompr a0) := .inr (.inl ⟨rfl, rfl⟩)
theorem vexpnd (a0 : Op) : Statement (.vexpnd a0) := .inr (.inl ⟨rfl, rfl⟩)
theorem vrng (a0 : Op) : Statement (.vrng a0) := .inr (.inl ⟨rfl, rfl⟩)
theorem vquant (a0 : Op) : Statement (.vquant a0) := .inr (.inl ⟨rfl, rfl⟩)
theorem vdeq (a0 : Op) : Statement (.vdeq a0) := .inr (.inl ⟨rfl, rfl⟩)
theorem mma (a0 : Op) : Statement (.mma a0) := .inr (.inl ⟨rfl, rfl⟩)
theorem mmaSp (a0 : Op) : Statement (.mmaSp a0) := .inr (.inl ⟨rfl, rfl⟩)
theorem mwload (a0 : Op) : Statement (.mwload a0) := .inr (.inl ⟨rfl, rfl⟩)
theorem maccRd (a0 : Op) : Statement (.maccRd a0) := .inr (.inl ⟨rfl, rfl⟩)
theorem maccWr (a0 : Op) : Statement (.maccWr a0) := .inr (.inl ⟨rfl, rfl⟩)
theorem maccClr (a0 : Op) : Statement (.maccClr a0) := .inr (.inl ⟨rfl, rfl⟩)
theorem mouter (a0 : Op) : Statement (.mouter a0) := .inr (.inl ⟨rfl, rfl⟩)
theorem msort (a0 : Op) : Statement (.msort a0) := .inr (.inl ⟨rfl, rfl⟩)
theorem mtopk (a0 : Op) : Statement (.mtopk a0) := .inr (.inl ⟨rfl, rfl⟩)
theorem mmerge (a0 : Op) : Statement (.mmerge a0) := .inr (.inl ⟨rfl, rfl⟩)
theorem mtrans (a0 : Op) : Statement (.mtrans a0) := .inr (.inl ⟨rfl, rfl⟩)
theorem scopy (a0 : Op) : Statement (.scopy a0) := .inr (.inl ⟨rfl, rfl⟩)
theorem sarm (a0 : Op) : Statement (.sarm a0) := .inr (.inl ⟨rfl, rfl⟩)
theorem sfire (a0 : Op) : Statement (.sfire a0) := .inr (.inl ⟨rfl, rfl⟩)
theorem schain (a0 : Op) : Statement (.schain a0) := .inr (.inl ⟨rfl, rfl⟩)
theorem sdisarm (a0 : Op) : Statement (.sdisarm a0) := .inr (.inl ⟨rfl, rfl⟩)
theorem sempty (a0 : Op) : Statement (.sempty a0) := .inr (.inl ⟨rfl, rfl⟩)
theorem sfill (a0 : Op) : Statement (.sfill a0) := .inr (.inl ⟨rfl, rfl⟩)
theorem sgen (a0 : Op) : Statement (.sgen a0) := .inr (.inl ⟨rfl, rfl⟩)
theorem sorder (a0 : Op) : Statement (.sorder a0) := .inr (.inl ⟨rfl, rfl⟩)
theorem scancel (a0 : Op) : Statement (.scancel a0) := .inr (.inl ⟨rfl, rfl⟩)
theorem ld (a0 : Op) : Statement (.ld a0) := .inr (.inl ⟨rfl, rfl⟩)
theorem st (a0 : Op) : Statement (.st a0) := .inr (.inl ⟨rfl, rfl⟩)
theorem ldi (a0 : Op) : Statement (.ldi a0) := .inr (.inl ⟨rfl, rfl⟩)
theorem sti (a0 : Op) : Statement (.sti a0) := .inr (.inl ⟨rfl, rfl⟩)
theorem lds (a0 : Op) : Statement (.lds a0) := .inr (.inl ⟨rfl, rfl⟩)
theorem sts (a0 : Op) : Statement (.sts a0) := .inr (.inl ⟨rfl, rfl⟩)
theorem portLdw (a0 : Op) : Statement (.portLdw a0) := .inr (.inl ⟨rfl, rfl⟩)
theorem portStw (a0 : Op) : Statement (.portStw a0) := .inr (.inl ⟨rfl, rfl⟩)
theorem pref (a0 : Op) : Statement (.pref a0) := .inr (.inl ⟨rfl, rfl⟩)
theorem mresume (a0 : Op) : Statement (.mresume a0) := .inr (.inl ⟨rfl, rfl⟩)
theorem mstart (a0 : Op) : Statement (.mstart a0) := .inr (.inl ⟨rfl, rfl⟩)
theorem mmode (a0 : Op) : Statement (.mmode a0) := .inr (.inl ⟨rfl, rfl⟩)
theorem bld (a0 : Op) : Statement (.bld a0) := .inr (.inl ⟨rfl, rfl⟩)
theorem bst (a0 : Op) : Statement (.bst a0) := .inr (.inl ⟨rfl, rfl⟩)
theorem bankAtom (a0 : Op) : Statement (.bankAtom a0) := .inr (.inl ⟨rfl, rfl⟩)
theorem acas (a0 : Op) : Statement (.acas a0) := .inr (.inl ⟨rfl, rfl⟩)
theorem red (a0 : Op) : Statement (.red a0) := .inr (.inl ⟨rfl, rfl⟩)
theorem rflush (a0 : Op) : Statement (.rflush a0) := .inr (.inl ⟨rfl, rfl⟩)
theorem bupd (a0 : Op) : Statement (.bupd a0) := .inr (.inl ⟨rfl, rfl⟩)
theorem fget (a0 : Op) : Statement (.fget a0) := .inr (.inl ⟨rfl, rfl⟩)
theorem fput (a0 : Op) : Statement (.fput a0) := .inr (.inl ⟨rfl, rfl⟩)
theorem fclr (a0 : Op) : Statement (.fclr a0) := .inr (.inl ⟨rfl, rfl⟩)
theorem qinit (a0 : Op) : Statement (.qinit a0) := .inr (.inl ⟨rfl, rfl⟩)
theorem qpush (a0 : Op) : Statement (.qpush a0) := .inr (.inl ⟨rfl, rfl⟩)
theorem qpop (a0 : Op) : Statement (.qpop a0) := .inr (.inl ⟨rfl, rfl⟩)
theorem wait (a0 : Op) : Statement (.wait a0) := .inr (.inl ⟨rfl, rfl⟩)
theorem wake (a0 : Op) : Statement (.wake a0) := .inr (.inl ⟨rfl, rfl⟩)
theorem bcall (a0 : Op) : Statement (.bcall a0) := .inr (.inl ⟨rfl, rfl⟩)
theorem pbar (a0 : Op) : Statement (.pbar a0) := .inr (.inl ⟨rfl, rfl⟩)
theorem pbcast (a0 : Op) : Statement (.pbcast a0) := .inr (.inl ⟨rfl, rfl⟩)
theorem predOpen (a0 : Op) : Statement (.predOpen a0) := .inr (.inl ⟨rfl, rfl⟩)
theorem predPut (a0 : Op) : Statement (.predPut a0) := .inr (.inl ⟨rfl, rfl⟩)
theorem pcorr (a0 : Op) : Statement (.pcorr a0) := .inr (.inl ⟨rfl, rfl⟩)
theorem tred (a0 : Op) : Statement (.tred a0) := .inr (.inl ⟨rfl, rfl⟩)
theorem crewNew (a0 : Op) : Statement (.crewNew a0) := .inr (.inl ⟨rfl, rfl⟩)
theorem crewJoin (a0 : Op) : Statement (.crewJoin a0) := .inr (.inl ⟨rfl, rfl⟩)
theorem crewLeave (a0 : Op) : Statement (.crewLeave a0) := .inr (.inl ⟨rfl, rfl⟩)
theorem crewFree (a0 : Op) : Statement (.crewFree a0) := .inr (.inl ⟨rfl, rfl⟩)
theorem ptime (a0 : Op) : Statement (.ptime a0) := .inr (.inl ⟨rfl, rfl⟩)
theorem pquiet (a0 : Op) : Statement (.pquiet a0) := .inr (.inl ⟨rfl, rfl⟩)
theorem psig (a0 : Op) : Statement (.psig a0) := .inr (.inl ⟨rfl, rfl⟩)
theorem lput (a0 : Op) : Statement (.lput a0) := .inr (.inl ⟨rfl, rfl⟩)
theorem lget (a0 : Op) : Statement (.lget a0) := .inr (.inl ⟨rfl, rfl⟩)
theorem latom (a0 : Op) : Statement (.latom a0) := .inr (.inl ⟨rfl, rfl⟩)
theorem lsend (a0 : Op) : Statement (.lsend a0) := .inr (.inl ⟨rfl, rfl⟩)
theorem lrecv (a0 : Op) : Statement (.lrecv a0) := .inr (.inl ⟨rfl, rfl⟩)
theorem lfence (a0 : Op) : Statement (.lfence a0) := .inr (.inl ⟨rfl, rfl⟩)
theorem packageReset (a0 : Boot) : Statement (.packageReset a0) := .inr (.inr rfl)
theorem asyncCauseDelivery (a0 : Nat) : Statement (.asyncCauseDelivery a0) := .inr (.inr rfl)
theorem timerEvent (a0 : Nat) : Statement (.timerEvent a0) := .inr (.inr rfl)
theorem wfeWake (a0 : Nat) : Statement (.wfeWake a0) := .inr (.inr rfl)
theorem snkpopWaitResume (a0 : Nat) : Statement (.snkpopWaitResume a0) := .inr (.inr rfl)
theorem injColourResume (a0 : Nat) : Statement (.injColourResume a0) := .inr (.inr rfl)
theorem hwakeWrite (a0 : Nat) (a1 : Word) : Statement (.hwakeWrite a0 a1) := .inr (.inr rfl)
theorem htimecmpWrite (a0 : Nat) (a1 : Word) : Statement (.htimecmpWrite a0 a1) := .inr (.inr rfl)
theorem registerWrite (a0 : Bool) (a1 : Nat) (a2 : Nat) (a3 : Word) : Statement (.registerWrite a0 a1 a2 a3) := .inr (.inr rfl)
theorem launchPeek (a0 : Nat) (a1 : Reg) : Statement (.launchPeek a0 a1) := .inr (.inr rfl)
theorem launchCommit (a0 : Nat) (a1 : Word) : Statement (.launchCommit a0 a1) := .inr (.inr rfl)
theorem launchRelease (a0 : Nat) (a1 : Word) : Statement (.launchRelease a0 a1) := .inr (.inr rfl)
theorem effectivePriorityAging (a0 : Nat) : Statement (.effectivePriorityAging a0) := .inr (.inr rfl)
theorem allocReq (a0 : Nat) (a1 : Reg) (a2 : Word) : Statement (.allocReq a0 a1 a2) := .inr (.inr rfl)
theorem allocFree (a0 : Word) : Statement (.allocFree a0) := .inr (.inr rfl)
theorem spanmapBind (a0 : Nat) (a1 : Nat) (a2 : Word) : Statement (.spanmapBind a0 a1 a2) := .inr (.inr rfl)
theorem spanmapUnbind (a0 : Nat) (a1 : Nat) : Statement (.spanmapUnbind a0 a1) := .inr (.inr rfl)
theorem twinPair (a0 : Word) : Statement (.twinPair a0) := .inr (.inr rfl)
theorem twinUnpair (a0 : Word) : Statement (.twinUnpair a0) := .inr (.inr rfl)
theorem tctlClr (a0 : Nat) : Statement (.tctlClr a0) := .inr (.inr rfl)
theorem leakthrWrite (a0 : Nat) (a1 : BitVec 32) : Statement (.leakthrWrite a0 a1) := .inr (.inr rfl)
theorem prtabLoad (a0 : Nat) (a1 : Word) : Statement (.prtabLoad a0 a1) := .inr (.inr rfl)
theorem hrtabLoad (a0 : Nat) (a1 : Word) : Statement (.hrtabLoad a0 a1) := .inr (.inr rfl)
theorem tlbinvPage (a0 : Word) (a1 : BitVec 32) : Statement (.tlbinvPage a0 a1) := .inr (.inr rfl)
theorem tlbinvAsid (a0 : BitVec 32) : Statement (.tlbinvAsid a0) := .inr (.inr rfl)
theorem tlbinvAll : Statement (.tlbinvAll) := .inr (.inr rfl)
theorem kcmdRereadKey (a0 : Nat) : Statement (.kcmdRereadKey a0) := .inr (.inr rfl)
theorem kcmdRevoke (a0 : Nat) : Statement (.kcmdRevoke a0) := .inr (.inr rfl)
theorem kcmdRereadConn (a0 : Nat) : Statement (.kcmdRereadConn a0) := .inr (.inr rfl)
theorem msggo (a0 : Nat) : Statement (.msggo a0) := .inr (.inr rfl)
theorem msgack : Statement (.msgack) := .inr (.inr rfl)
theorem hostMessageArrival : Statement (.hostMessageArrival) := .inr (.inr rfl)
theorem opreqWrite (a0 : Bool) (a1 : Word) : Statement (.opreqWrite a0 a1) := .inr (.inr rfl)
theorem operatingPointChange (a0 : Nat) : Statement (.operatingPointChange a0) := .inr (.inr rfl)
theorem hostRead (a0 : Nat) (a1 : Nat) (a2 : Nat) : Statement (.hostRead a0 a1 a2) := .inr (.inr rfl)
theorem hostWrite (a0 : Nat) (a1 : Nat) (a2 : List Byte) (a3 : Bool) : Statement (.hostWrite a0 a1 a2 a3) := .inr (.inr rfl)
theorem cxlSnoop (a0 : Word) : Statement (.cxlSnoop a0) := .inr (.inr rfl)
theorem getId : Statement (.getId) := .inr (.inr rfl)
theorem getMeas (a0 : List Byte) : Statement (.getMeas a0) := .inr (.inr rfl)
theorem writeFw (a0 : Nat) (a1 : List Byte) : Statement (.writeFw a0 a1) := .inr (.inr rfl)
theorem packetRouting (a0 : Nat) : Statement (.packetRouting a0) := .inr (.inr rfl)
theorem configPacketHop (a0 : Nat) : Statement (.configPacketHop a0) := .inr (.inr rfl)
theorem tokenArrival (a0 : Nat) : Statement (.tokenArrival a0) := .inr (.inr rfl)
theorem tilePacketDelivery (a0 : Nat) : Statement (.tilePacketDelivery a0) := .inr (.inr rfl)
theorem ejectionWaitPlacement (a0 : Nat) : Statement (.ejectionWaitPlacement a0) := .inr (.inr rfl)
theorem matchOverflow (a0 : Nat) : Statement (.matchOverflow a0) := .inr (.inr rfl)
theorem tileOperandReady (a0 : Nat) (a1 : Nat) : Statement (.tileOperandReady a0 a1) := .inr (.inr rfl)
theorem firingDispatch (a0 : Nat) (a1 : Nat) : Statement (.firingDispatch a0 a1) := .inr (.inr rfl)
theorem colourAllocation (a0 : Nat) (a1 : BitVec 8) : Statement (.colourAllocation a0 a1) := .inr (.inr rfl)
theorem irrevocableHandshake (a0 : Nat) (a1 : Tag) : Statement (.irrevocableHandshake a0 a1) := .inr (.inr rfl)
theorem flagUpdate (a0 : Nat) (a1 : Tag) (a2 : BitVec 6) : Statement (.flagUpdate a0 a1 a2) := .inr (.inr rfl)
theorem frameRequest (a0 : Nat) (a1 : Tag) (a2 : FrameReq) : Statement (.frameRequest a0 a1 a2) := .inr (.inr rfl)
theorem purgeRequest (a0 : Nat) (a1 : Tag) : Statement (.purgeRequest a0 a1) := .inr (.inr rfl)
theorem purgeEffect (a0 : Nat) : Statement (.purgeEffect a0) := .inr (.inr rfl)
theorem quarantineExpiry (a0 : Nat) : Statement (.quarantineExpiry a0) := .inr (.inr rfl)
theorem replay (a0 : Nat) : Statement (.replay a0) := .inr (.inr rfl)
theorem activationFailEffect (a0 : Nat) : Statement (.activationFailEffect a0) := .inr (.inr rfl)
theorem sinkRingEntry (a0 : Nat) : Statement (.sinkRingEntry a0) := .inr (.inr rfl)
theorem spliceReplacement (a0 : Nat) (a1 : BitVec 11) : Statement (.spliceReplacement a0 a1) := .inr (.inr rfl)
theorem spliceTimeLimit (a0 : Nat) (a1 : BitVec 11) : Statement (.spliceTimeLimit a0 a1) := .inr (.inr rfl)
theorem markerArrival (a0 : Nat) : Statement (.markerArrival a0) := .inr (.inr rfl)
theorem srcStreamEmit (a0 : Nat) (a1 : Nat) : Statement (.srcStreamEmit a0 a1) := .inr (.inr rfl)
theorem cmpxDigestArrival (a0 : Nat) (a1 : Nat) : Statement (.cmpxDigestArrival a0 a1) := .inr (.inr rfl)
theorem cmpxTimeout (a0 : Nat) (a1 : Nat) : Statement (.cmpxTimeout a0 a1) := .inr (.inr rfl)
theorem freezeEffect (a0 : Nat) : Statement (.freezeEffect a0) := .inr (.inr rfl)
theorem thawEffect (a0 : Nat) : Statement (.thawEffect a0) := .inr (.inr rfl)
theorem spanSignalRelay (a0 : Nat) (a1 : Bool) : Statement (.spanSignalRelay a0 a1) := .inr (.inr rfl)
theorem quadLineStateQuery (a0 : Nat) (a1 : Nat) : Statement (.quadLineStateQuery a0 a1) := .inr (.inr rfl)
theorem quadReadServe (a0 : Nat) : Statement (.quadReadServe a0) := .inr (.inr rfl)
theorem stencilQueueIssue (a0 : Nat) (a1 : Nat) : Statement (.stencilQueueIssue a0 a1) := .inr (.inr rfl)
theorem streamTileStep (a0 : Nat) (a1 : Nat) : Statement (.streamTileStep a0 a1) := .inr (.inr rfl)
theorem ringTileStep (a0 : Nat) (a1 : Nat) : Statement (.ringTileStep a0 a1) := .inr (.inr rfl)
theorem retainedRingStep (a0 : Nat) (a1 : Nat) : Statement (.retainedRingStep a0 a1) := .inr (.inr rfl)
theorem portRequestAccept (a0 : Nat) : Statement (.portRequestAccept a0) := .inr (.inr rfl)
theorem generatorStart (a0 : Nat) : Statement (.generatorStart a0) := .inr (.inr rfl)
theorem elementPerform (a0 : Nat) (a1 : Nat) : Statement (.elementPerform a0 a1) := .inr (.inr rfl)
theorem waveAccessPerform (a0 : Nat) (a1 : Nat) : Statement (.waveAccessPerform a0 a1) := .inr (.inr rfl)
theorem readAhead (a0 : Nat) : Statement (.readAhead a0) := .inr (.inr rfl)
theorem bankRequestAccept (a0 : Nat) : Statement (.bankRequestAccept a0) := .inr (.inr rfl)
theorem combiningEntryApply (a0 : Nat) (a1 : Nat) : Statement (.combiningEntryApply a0 a1) := .inr (.inr rfl)
theorem waiterLimitExpiry (a0 : Nat) : Statement (.waiterLimitExpiry a0) := .inr (.inr rfl)
theorem routineFetch (a0 : Nat) (a1 : Word) : Statement (.routineFetch a0 a1) := .inr (.inr rfl)
theorem nackRetry (a0 : Nat) : Statement (.nackRetry a0) := .inr (.inr rfl)
theorem memberIndexLookup (a0 : Nat) : Statement (.memberIndexLookup a0) := .inr (.inr rfl)
theorem rootSignalTake (a0 : Nat) : Statement (.rootSignalTake a0) := .inr (.inr rfl)
theorem roundRelease (a0 : Nat) : Statement (.roundRelease a0) := .inr (.inr rfl)
theorem reductionNoticeLanding (a0 : Nat) (a1 : Nat) : Statement (.reductionNoticeLanding a0 a1) := .inr (.inr rfl)
theorem deadlineEvaluation (a0 : Nat) (a1 : Nat) : Statement (.deadlineEvaluation a0 a1) := .inr (.inr rfl)
theorem lateContribution (a0 : Nat) : Statement (.lateContribution a0) := .inr (.inr rfl)
theorem finalPacket (a0 : Nat) (a1 : Nat) : Statement (.finalPacket a0 a1) := .inr (.inr rfl)
theorem resultLanding (a0 : Nat) : Statement (.resultLanding a0) := .inr (.inr rfl)
theorem ptimeExpiry (a0 : Nat) (a1 : Nat) : Statement (.ptimeExpiry a0 a1) := .inr (.inr rfl)
theorem markerSignalEffect (a0 : Nat) : Statement (.markerSignalEffect a0) := .inr (.inr rfl)
theorem snapshotComplete (a0 : Nat) : Statement (.snapshotComplete a0) := .inr (.inr rfl)
theorem snapshotTimeout (a0 : Nat) : Statement (.snapshotTimeout a0) := .inr (.inr rfl)
theorem censusTick (a0 : Nat) : Statement (.censusTick a0) := .inr (.inr rfl)
theorem pquietWaitEmit (a0 : Nat) : Statement (.pquietWaitEmit a0) := .inr (.inr rfl)
theorem deadlock (a0 : Nat) : Statement (.deadlock a0) := .inr (.inr rfl)
theorem wdog (a0 : Nat) : Statement (.wdog a0) := .inr (.inr rfl)
theorem incomingRemoteAccess (a0 : RemoteAccess) : Statement (.incomingRemoteAccess a0) := .inr (.inr rfl)
theorem incomingSend (a0 : RemoteSend) : Statement (.incomingSend a0) := .inr (.inr rfl)
theorem linkWaitLimitExpiry (a0 : Nat) : Statement (.linkWaitLimitExpiry a0) := .inr (.inr rfl)
theorem scewenFlitReceive (a0 : Nat) (a1 : Word) (a2 : List Byte) (a3 : Bool) : Statement (.scewenFlitReceive a0 a1 a2 a3) := .inr (.inr rfl)
theorem slotSync (a0 : Nat) : Statement (.slotSync a0) := .inr (.inr rfl)
theorem scewenPortDown (a0 : Nat) (a1 : Nat) : Statement (.scewenPortDown a0 a1) := .inr (.inr rfl)
theorem ethernetRetransmit (a0 : Nat) : Statement (.ethernetRetransmit a0) := .inr (.inr rfl)
theorem telemetryUpdate (a0 : Readings) : Statement (.telemetryUpdate a0) := .inr (.inr rfl)
theorem thermalClamp (a0 : Nat) (a1 : Nat) : Statement (.thermalClamp a0 a1) := .inr (.inr rfl)
theorem thermalShutdown (a0 : Nat) (a1 : Nat) : Statement (.thermalShutdown a0 a1) := .inr (.inr rfl)
theorem clusterFailing (a0 : Nat) (a1 : Nat) (a2 : Bool) : Statement (.clusterFailing a0 a1 a2) := .inr (.inr rfl)
theorem illegalEncoding (a0 : BitVec 32) : Statement (.illegalEncoding a0) := .inr (.inr rfl)
theorem memoryFailure (a0 : Bool) (a1 : Nat) : Statement (.memoryFailure a0 a1) := .inr (.inr rfl)
theorem ethernetPortDown (a0 : Nat) : Statement (.ethernetPortDown a0) := .inr (.inr rfl)
theorem linkResponseArrival (a0 : Nat) (a1 : LinkAnswer) : Statement (.linkResponseArrival a0 a1) := .inr (.inr rfl)

end Sys2Proof.Laws.OneForm
end

