-- ==== Sys2Proof/Tests/Slice0.lean ====
section
/-! SUPPORT. Tests: what well-formedness refuses, words written out in the spec, single steps worked by hand, and for each
statement a state and operands that meet its hypotheses. -/

namespace Sys2Proof.Tests

open Sys2Proof Sys2Proof.Machine

set_option Elab.async false

/-! ### Operator words -/

def dst (cluster : BitVec 9) (slot : BitVec 11) (port : BitVec 2) (rwi : BitVec 6) : Dst :=
  { valid := true, port := port, die := 0, cluster := cluster, slot := slot, rwi := rwi }

def noDst : Dst := { valid := false, port := 0, die := 0, cluster := 0, slot := 0, rwi := 0 }

/-- An operator word without rounding, flags or transform. -/
def plainOp (fmt : Fmt) (ports : BitVec 2) (imm : BitVec 37) (d0 : Dst) (d1 : Dst) : Op :=
  { fmt := fmt, rnd := .rne, ports := ports, xfm := .keep, sat := false, fe := false, ord := false, imm := imm, dst1 := d1,
    dst0 := d0 }

def op1 (fmt : Fmt) (imm : BitVec 37) : Op := plainOp fmt 0 imm (dst 0 1 0 0) noDst
def op2 (fmt : Fmt) (imm : BitVec 37) : Op := plainOp fmt 1 imm (dst 0 1 0 0) noDst
def op3 (fmt : Fmt) (imm : BitVec 37) : Op := plainOp fmt 2 imm (dst 0 1 0 0) noDst

/-- 03 "Worked encoding". -/
theorem test_word_smul : decodeOp 0x034408000000000000000000802A0480 = .ok (.smul (plainOp .i64 1 0 (dst 21 0x12 0 0) noDst)) := rfl

/-- 05, the loop of its Program B. -/
theorem test_word_ctxNext :
    decodeOp 0x02201000000102908000018080000103 = .ok (.ctxNext (plainOp .raw 2 0x10290 (dst 0 4 0 3) (dst 0 6 0 0))) := rfl

/-- 06 R217. -/
theorem test_word_vrng :
    decodeOp 0x278708194000007F8002008080020040 = .ok (.vrng (plainOp .n32 1 0x194000007F (dst 1 1 0 0) (dst 1 2 0 0))) := rfl

/-- 07 "Assembly". -/
theorem test_word_mma : decodeOp 0x400A0800800000000000000080000280 = .ok (.mma (plainOp .bf16 1 0x80000000 (dst 0 10 0 0) noDst)) := rfl

/-- 08, the stencil of its example. -/
theorem test_word_sfire :
    decodeOp 0x604A000000000002A0000800800A0400 = .ok (.sfire (plainOp .bf16 0 2 (dst 5 0x10 0 0) (dst 0 0x20 1 0))) := rfl

/-- 09, the examples of LD and STW. -/
theorem test_word_ports :
    decodeOp 0x800A08081AFC0FC000000000800A0400 = .ok (.ld (plainOp .bf16 1 0x81AFC0FC0 (dst 5 0x10 0 0) noDst)) ∧
    decodeOp 0x80E4080C1002010400000000A0180800 = .ok (.portStw (plainOp .i64 1 0xC10020104 (dst 12 0x20 1 0) noDst)) := ⟨rfl, rfl⟩

/-- 10, the lock of its example. -/
theorem test_word_banks :
    decodeOp 0xA048000C002200010000000080000080 = .ok (.bankAtom (plainOp .n64 0 0xC00220001 (dst 0 2 0 0) noDst)) ∧
    decodeOp 0xA208080C0053E0000000000080000180 = .ok (.wait (plainOp .n64 1 0xC0053E000 (dst 0 6 0 0) noDst)) := ⟨rfl, rfl⟩

/-- 11, the words of its Program B. -/
theorem test_word_plumb :
    decodeOp 0xC0000000000000000000000080020900 = .ok (.pbar (plainOp .raw 0 0 (dst 1 0x24 0 0) noDst)) ∧
    decodeOp 0xC04C0000000000C880000CC080000C80 = .ok (.predOpen (plainOp .f64 0 200 (dst 0 0x32 0 0) (dst 0 0x33 0 0))) := ⟨rfl, rfl⟩

/-- 12 R411. -/
theorem test_word_lput :
    decodeOp 0xE00C18000100000000000000A0061000 = .ok (.lput (plainOp .f64 3 0x1000000 (dst 3 0x40 1 0) noDst)) := rfl

/-- 03 "Worked encoding", the route word: E0 is 0.035.0010 port 0 and E1 0.050.0011 port 1. -/
theorem test_routeWord : Machine.routeEntry 0 0x00000000000000000000011902208C10 0 = dst 35 0x10 0 0 ∧
    Machine.routeEntry 0 0x00000000000000000000011902208C10 1 = dst 50 0x11 1 0 := by decide

/-! ### Hawk words, bit by bit (03 R80 to R82) -/

theorem test_word_imm : decodeHawk (0b000001#6 ++ 0b00001#5 ++ 0b00010#5 ++ 0b1111111111111111#16) = .ok (.addi 1 2 0xFFFF) ∧
    decodeHawk (0b000101#6 ++ 0b00011#5 ++ 0b00100#5 ++ 0b00000000#8 ++ 0b10#2 ++ 0b111111#6) = .ok (.sari 3 4 63) := ⟨rfl, rfl⟩

theorem test_word_memory : decodeHawk (0b001100#6 ++ 0b00101#5 ++ 0b00110#5 ++ 0b0000000000001000#16) = .ok (.ldd 5 6 8) ∧
    decodeHawk (0b010000#6 ++ 0b00101#5 ++ 0b00110#5 ++ 0b1111111111111000#16) = .ok (.stb 5 6 0xFFF8) ∧
    decodeHawk (0b011111#6 ++ 0b11111#5 ++ 0b00001#5 ++ 0b0000000000010000#16) = .ok (.fst 31 1 16) := ⟨rfl, rfl, rfl⟩

theorem test_word_control : decodeHawk (0b010110#6 ++ 0b00001#5 ++ 0b00010#5 ++ 0b1111111111111110#16) = .ok (.blt 1 2 0xFFFE) ∧
    decodeHawk (0b011010#6 ++ 0b00000000000000000000000011#26) = .ok (.jmpl 3) ∧
    decodeHawk (0b011011#6 ++ 0b00000#5 ++ 0b11110#5 ++ 0b00000#5 ++ 0b00000000000#11) = .ok (.jmpr 0 30) := ⟨rfl, rfl, rfl⟩

theorem test_word_float :
    decodeHawk (0b011101#6 ++ 0b00001#5 ++ 0b00010#5 ++ 0b00011#5 ++ 0b00100#5 ++ 0b110#3 ++ 0b1#1 ++ 0b00#2) = .ok (.ffma 1 2 3 4 .dyn true) ∧
    decodeHawk (0b011100#6 ++ 0b00001#5 ++ 0b00010#5 ++ 0b00011#5 ++ 0b01000#5 ++ 0b001#3 ++ 0b0#1 ++ 0b00#2) = .ok (.fcvtToi 1 2 .rtz false) :=
  ⟨rfl, rfl⟩

theorem test_word_system : decodeHawk (0b101000#6 ++ 0b00001#5 ++ 0b00000#5 ++ 0b0000000000010000#16) = .ok (.sysr 1 0x10) ∧
    decodeHawk (0b101011#6 ++ 0b00000000000000000000000000#26) = .ok .tret ∧
    decodeHawk (0b100010#6 ++ 0b00000#5 ++ 0b00000#5 ++ 0b00000#5 ++ 0b00000000#8 ++ 0b101#3) = .ok (.fence .sys) := ⟨rfl, rfl, rfl⟩

/-- Words that R77, R80, R81 and R83 refuse: an unassigned OP and FN, a field that must be zero, a reserved RM, scope,
format, rounding mode, transform and OPC, an arity that PASS does not take, and a DST1 with RWI. -/
theorem test_refused : decodeHawk 0xFC000000 = .error .opcode ∧ decodeHawk 0x00000012 = .error .function ∧
    decodeHawk 0x1C010000 = .error .nonzero ∧ decodeHawk 0x70000028 = .error .rounding ∧ decodeHawk 0x800000C0 = .error .scope ∧
    decodeOp 0x00110000000000000000000000000000 = .error .format ∧ decodeOp 0x0000E000000000000000000000000000 = .error .rounding ∧
    decodeOp 0x00000500000000000000000000000000 = .error .transform ∧ decodeOp 0x01800000000000000000000000000000 = .error .opcode ∧
    decodeOp 0x00000800000000000000000000000000 = .error .form ∧ decodeOp 0x00000000000000000000000100000000 = .error .form ∧
    decodeHawkBytes [0, 0, 0] = .error .short := by
  refine ⟨rfl, rfl, rfl, rfl, rfl, rfl, rfl, rfl, rfl, rfl, rfl, rfl⟩

/-- The words of the opcode table, as the host numbers their bits. -/
theorem test_tableWord : decodeTableWord 32 0x0422FFFF = some (.addi 1 2 0xFFFF) ∧
    decodeTableWord 128 0x034408000000000000000000802A0480 = some (.smul (plainOp .i64 1 0 (dst 21 0x12 0 0) noDst)) := ⟨rfl, rfl⟩

/-! ### Well-formedness refuses -/

/-- The checks of every form (03 R72, R73, R77): arity, format, rounding, SAT, FE, XFM, a bit of IMM outside the mask, RWI in
DST1, an RWI above 6; and words that pass them. -/
theorem test_wf_forms :
    [Instr.pass (op2 .raw 0), .sadd (op2 .f32 0), .sadd { op2 .i32 0 with rnd := .rtz }, .slog { op2 .i32 0 with sat := true },
     .slog { op2 .i32 0 with fe := true }, .drop { plainOp .raw 0 0 noDst noDst with xfm := .exit }, .pass (op1 .raw 1),
     .pass { op1 .raw 0 with dst1 := { noDst with rwi := 1 } }, .pass (plainOp .raw 0 0 (dst 0 1 0 7) noDst)].all
      (fun i => !i.wellFormed) = true ∧
    [Instr.pass (op1 .raw 0), .sadd { op2 .i32 0 with sat := true }, .vadd { op2 .f32 0 with rnd := .rst, fe := true },
     .ld (op1 .i64 0), .bld (op1 .i64 0), .pbar (op1 .raw 0), .lget (op2 .i64 0), .add 1 2 3, .timerEvent 63].all Instr.wellFormed = true := by
  decide +kernel

/-- What single operators of classes 0 and 1 refuse beside their form: CONST's mode 3, more true entries than route entries, a
PICK past the ports, destinations of DROP and SINK, a stride past the region and route entries of TAGX, a MAP past the ports
and one for an unused place, a CARRY of 0, OP 3 of INV.SET, mode 6 of FLAGS.CLR, an FN of SADD, IMMV without IMMB, PFENCE's
domain and scope; IMMV of 32 bits for f16, a tile past the shape limits, VCVT to its own or a reserved format, VSPLIT's
count, reduction formats and functions, K of VCOMPR, VRNG's bits, VQUANT to a format that is not microscaled. -/
theorem test_wf_tokensAndVectors :
    [Instr.const (op1 .raw 0x1800000000), .steer (op2 .raw 1), .join (op2 .raw 2), .drop (op1 .raw 0), .sink (op1 .raw 0),
     .tagx (op2 .raw 320), .tagx (op2 .raw 0x28000), .tagx (plainOp .raw 1 0 (dst 0 1 0 1) noDst), .ctxEnter (op1 .raw 1),
     .ctxEnter (op1 .raw 4), .ctxNext (op1 .raw 0), .ctxExit (op1 .raw 0), .invSet (op1 .raw 0x18), .flagsClr (op1 .raw 0x340),
     .sadd (op2 .i32 0x100000000), .sadd (op2 .i32 1), .pfence (op1 .raw 0x180), .pfence (op1 .raw 0x30), .pfence (op1 .raw 6),
     .vadd (op1 .f16 0x1000010000), .vadd (op2 .f32 1), .vbcast (op1 .i64 0x7FFFF), .vcvt (op1 .f32 11), .vcvt (op1 .f32 17),
     .vsplit (op1 .f32 1), .vsplit (op1 .f32 3), .vreduce (op1 .i32 2), .vreduce (op1 .f32 0x60000000B), .vcompr (op1 .i8 2),
     .vcompr (op1 .i8 0x20A), .vrng (op2 .f16 0), .vrng (op2 .i8 0x1860000000), .vquant (op1 .f32 0xB), .vdeq (op1 .mx8 1)].all
      (fun i => !i.wellFormed) = true := by decide +kernel

/-- The same for classes 2 to 7: a B of another class, an operand that MOUTER cannot name, a block past 64 rows, route entries of
a sort; scopes 6, a stencil that chains to itself, empty masks of SORDER, SFILL's mode and format; a wave's sequence of 0 or
255, LDS of a length that is no multiple of 8, MMODE 3, tiles past the shape limits; functions that a format does not take,
SAT and FE where they are not accepted; a reduction's function and a deadline beside a port, PTIME's mode and time, PSIG's
upper bits; LATOM's function. -/
theorem test_wf_engines :
    [Instr.mma (op2 .bf16 0xD00000000), .mouter (op1 .bf16 0x10000), .mma (op2 .bf16 0x30000), .maccRd (op1 .f32 0xB3F00F000),
     .maccClr (op1 .raw 0x3F001000), .maccRd (op1 .f32 0), .msort (plainOp .i32 0 0 (dst 0 1 0 1) noDst),
     .scopy (op2 .raw 0x600000000), .scopy (op2 .raw 0x1800000000), .schain (op1 .raw 0), .sorder (op1 .raw 1), .sorder (op1 .raw 16),
     .sorder (op1 .raw 0x611), .sfill (op2 .raw 0), .sfill (op2 .i8 0x1000000000), .portLdw (op1 .i64 0), .portLdw (op1 .i64 0xFF0000),
     .lds (op2 .i8 0), .mmode (op1 .raw 3), .ld (op1 .i64 0x1800000000), .ld (op2 .i64 0x3FFFFC0), .st (op2 .i64 0x1800000000),
     .bld (op1 .i64 0x1800000000), .bld (op1 .i64 0x3FFFFC), .bankAtom (op2 .f32 0x40000), .bankAtom { op2 .i32 0 with sat := true },
     .bankAtom { op2 .i32 0 with fe := true }, .red (op2 .i32 0), .bupd (op2 .i32 0x180000), .predOpen (op2 .raw 0),
     .predOpen (op2 .i64 1), .tred (op2 .i32 0xC00000000), .tred (op2 .i32 1), .ptime (op1 .raw 0x1800000000),
     .ptime (op1 .raw 0x800000000), .ptime (op1 .raw 1), .psig (op1 .raw 0x10000), .lget (op2 .i64 0x3FFFFC0),
     .latom (plainOp .f32 3 0x120000 (dst 0 1 0 0) noDst), .latom (plainOp .i32 2 0x140000 (dst 0 1 0 0) noDst)].all
      (fun i => !i.wellFormed) = true := by decide +kernel

/-- Events that name an object past the part's last: threads 64, dies 8, queues 64, regions 128, clusters 4096, ports 128,
banks 1024, crews 256, generators 8 and so on. -/
theorem test_wf_events :
    [Instr.asyncCauseDelivery 64, .timerEvent 64, .wfeWake 64, .snkpopWaitResume 64, .injColourResume 64, .hwakeWrite 8 0,
     .htimecmpWrite 64 0, .launchPeek 64 0, .launchCommit 64 0, .launchRelease 64 0, .effectivePriorityAging 64, .allocReq 64 0 0,
     .spanmapBind 128 0 0, .spanmapBind 0 8 0, .spanmapUnbind 128 0, .spanmapUnbind 0 8, .tctlClr 128, .leakthrWrite 128 0,
     .prtabLoad 128 0, .hrtabLoad 8 0, .kcmdRereadKey 65536, .kcmdRevoke 65536, .kcmdRereadConn 65536, .msggo 64, .hostRead 6 0 8,
     .hostWrite 6 0 [] false, .tokenArrival 4096, .tilePacketDelivery 4096, .ejectionWaitPlacement 4096, .matchOverflow 4096,
     .tileOperandReady 4096 0, .firingDispatch 4096 0, .firingDispatch 0 8, .colourAllocation 128 0, .irrevocableHandshake 128 Tag.none,
     .flagUpdate 128 Tag.none 0, .purgeRequest 128 Tag.none, .purgeEffect 128, .quarantineExpiry 128, .replay 128,
     .activationFailEffect 128, .sinkRingEntry 128, .spliceReplacement 4096 0, .spliceTimeLimit 4096 0, .markerArrival 4096,
     .srcStreamEmit 4096 0, .cmpxDigestArrival 4096 0, .cmpxTimeout 4096 0, .freezeEffect 128, .thawEffect 128,
     .spanSignalRelay 128 true, .quadLineStateQuery 4096 0, .quadReadServe 4096, .stencilQueueIssue 4096 0, .stencilQueueIssue 0 4,
     .streamTileStep 4096 0, .streamTileStep 0 4, .ringTileStep 4096 0, .ringTileStep 0 4, .retainedRingStep 4096 0,
     .retainedRingStep 0 4, .portRequestAccept 128, .generatorStart 128, .elementPerform 128 0, .elementPerform 0 8,
     .waveAccessPerform 128 0, .readAhead 128, .bankRequestAccept 1024, .combiningEntryApply 1024 0, .routineFetch 1024 0,
     .roundRelease 256, .reductionNoticeLanding 256 0, .reductionNoticeLanding 0 4, .deadlineEvaluation 256 0, .deadlineEvaluation 0 4,
     .finalPacket 256 0, .finalPacket 0 4, .ptimeExpiry 4096 0, .markerSignalEffect 128, .snapshotComplete 128, .snapshotTimeout 128,
     .censusTick 128, .pquietWaitEmit 128, .deadlock 128, .wdog 128, .scewenFlitReceive 6 0 [] true, .slotSync 6, .scewenPortDown 6 0,
     .thermalClamp 8 0, .thermalShutdown 8 0, .clusterFailing 8 0 true, .clusterFailing 0 320 true, .ethernetPortDown 6].all
      (fun i => !i.wellFormed) = true := by decide +kernel

/-! ### A small machine: region 0 of four rows and columns of die 0 is LOADED, with one live colour in context 1 -/

def tag0 : Tag := { ctx := 1, col := 0, gen := 0 }

def colour0 : Colour :=
  { col := 0, gen := 0, key := 0, parent := none, f := zeroFrame, flags := 0, rmode := 0, rmode0 := 0, irrev := false,
    succ := none, count := 0, exits := false, nexts := false, line := 256 }

def region0 : Region :=
  { Region.free with state := .loaded, handle := 0x800000CC00000000, dies := [some 0],
                     ctxs := [(1, { Ctx.none with declared := true, window := 4, ptr := 1, live := [colour0] })] }

/-- Cluster 0: a pool of lines 0 to 63, of which 8 to 15 hold tiles, and a spawn area at line 256. -/
def cluster0 : Cluster :=
  { Cluster.reset with pool := some { first := 0, len := 64, ctx := none }, pinned := [{ first := 256, len := 4, ctx := none }],
                       spawn := some { first := 256, len := 4, ctx := none },
                       allocs := [{ first := 8, len := 8, ctx := none }],
                       lines := (List.range 8).map fun i => (8 + i, { full := true, gen := 0, written := 0xF }) }

def base : State := setCluster (setRegion State.reset 0 region0) 0 cluster0

def tok (k : Kind) (v : Word) : Tok := { dst := Dst.none, tag := tag0, kind := k, flag := Flag.none, payload := v }
def scalar (v : Word) : Tok := tok .scalar v
/-- A tile of one-line rows that begins at line b. -/
def tile (f : Fmt) (rows epr b : Nat) : Tok := tok .tile (newHandle f rows epr b 0 0 0).word

/-- The small machine with a firing of its cluster 0 issued, in a state s of it. -/
def fires (s : State) (toks : List Tok) : State := { s with turn := .firing, firing := { Firing.none with tag := tag0, toks := toks } }

/-- The kinds and payloads of the tokens on their way after an instruction. -/
def sends (i : Instr) (s : State) : List (Kind × Word) :=
  match exec i s with | .next t => t.net.map fun p => (p.tok.kind, p.tok.payload) | _ => []

/-- What holds of the state after an instruction. -/
def leaves (i : Instr) (s : State) (p : State → Bool) : Bool := match exec i s with | .next t => p t | _ => false

/-! ### Single steps, worked by hand -/

theorem test_step_hawk :
    (match step (State.reset.withFetchWord 32 0x0422FFFF) with
      | .next t => (getThread t 0).getX 1 == 0xFFFFFFFFFFFFFFFF && (getThread t 0).pc == 0xFF00000000000004
      | _ => false) = true := by decide +kernel

theorem test_step_operator :
    (match step (State.reset.withFetchWord 128 0x03440800000000000000000000000000) with | .next t => t.issued == [] | _ => false) = true := by
  decide +kernel

/-- A thread of reset with some registers set. -/
def hawk (t : Thread) : State := setThread State.reset 0 t

theorem test_mulh : leaves (.mulh 1 1 1) (hawk ((Thread.reset false).setX 1 0xFFFFFFFFFFFFFFFF)) (fun t => (getThread t 0).getX 1 == 0) = true := by
  decide +kernel

theorem test_div_zero : leaves (.div 1 1 0) (hawk ((Thread.reset false).setX 1 7)) (fun t => (getThread t 0).getX 1 == 0xFFFFFFFFFFFFFFFF) = true := by
  decide +kernel

theorem test_svc : leaves (.svc 9) (hawk { Thread.reset false with ie := true }) (fun t => (getThread t 0).cause == 6 &&
    (getThread t 0).xval == 9 && !(getThread t 0).ie && (getThread t 0).pie && (getThread t 0).pc == resetVector) = true := by
  decide +kernel

theorem test_fadd : leaves (.fadd 1 2 2 .rne false) (hawk ((Thread.reset false).setD 2 0x3FF0000000000000))
    (fun t => (getThread t 0).getD 1 == 0x4000000000000000) = true := by decide +kernel

theorem test_ldd_misaligned : leaves (.ldd 1 0 1) (hawk { Thread.reset false with ie := true })
    (fun t => (getThread t 0).cause == 2 && (getThread t 0).xval == 1) = true := by decide +kernel

theorem test_sth : leaves (.sth 1 2 2) (hawk (((Thread.reset false).setX 1 0x89AB).setX 2 resetVector))
    (fun t => Mem.read t.mem (sramAddr 0 0) 6 == [0, 0, 0xAB, 0x89, 0, 0]) = true := by decide +kernel

theorem test_atomMin : leaves (.atomMin 3 2 1 .pkg true) (hawk (((Thread.reset false).setX 1 0xFFFFFFFF).setX 2 resetVector))
    (fun t => (getThread t 0).getX 3 == 0 && Mem.read t.mem (sramAddr 0 0) 8 == [255, 255, 255, 255, 0, 0, 0, 0]) = true := by decide +kernel

theorem test_sysw_status : leaves (.sysw 1 0) (hawk ((Thread.reset false).setX 1 4)) (fun t => (getThread t 0).ie && !(getThread t 0).mode) = true := by
  decide +kernel

/-- 05 R165: 250 + 10 saturates in n8. -/
theorem test_sadd_sat : sends (.sadd { op2 .n8 0 with sat := true }) (fires base [scalar 250, scalar 10]) = [(.scalar, 255)] := by decide +kernel

/-- 05 R165: the high half of a signed product. -/
theorem test_smul_high : sends (.smul (op2 .i8 0x100000000)) (fires base [scalar 0x80, scalar 0x80]) = [(.scalar, 0x40)] := by decide +kernel

theorem test_steer : sends (.steer (plainOp .raw 1 0 (dst 0 1 0 0) (dst 0 2 0 0))) (fires base [scalar 5, scalar 0]) = [(.scalar, 5)] := by decide +kernel

/-- 01 R28: an error operand passes on. -/
theorem test_error_passes : sends (.sadd (op2 .i64 0)) (fires base [scalar 1, tok .error 0x77]) = [(.error, 0x77)] := by decide +kernel

/-- 05 R163: INV.SET emits the slot's old value and writes the new one. -/
theorem test_invSet : sends (.invSet (op1 .raw 3)) (fires base [scalar 9]) = [(.scalar, 0)] ∧
    leaves (.invSet (op1 .raw 3)) (fires base [scalar 9]) (fun t => ((liveColour (getRegion t 0) tag0).map fun c => c.f.toList) ==
      some [0, 0, 0, 9, 0, 0, 0]) = true := by decide +kernel

/-- 01 R20: XFM new allocates the next colour of the context. -/
theorem test_xfm_new : leaves (.pass { op1 .raw 0 with xfm := .new }) (fires base [scalar 9])
    (fun t => t.net.map (fun p => p.tok.tag) == [{ ctx := 1, col := 1, gen := 0 }] && (getCtx (getRegion t 0) 1).ptr == 2) = true := by
  decide +kernel

/-- 06 R193: one third in f32, to nearest and up; R195: the least of +0 and -0. -/
theorem test_vdiv : sends (.vdiv (op2 .f32 0)) (fires base [scalar 0x3F800000, scalar 0x40400000]) = [(.scalar, 0x3EAAAAAB)] ∧
    sends (.vdiv { op2 .f32 0 with rnd := .rtz }) (fires base [scalar 0x3F800000, scalar 0x40400000]) = [(.scalar, 0x3EAAAAAA)] := by decide +kernel

theorem test_vmin_zero : sends (.vmin (op2 .f32 0)) (fires base [scalar 0, scalar 0x80000000]) = [(.scalar, 0x80000000)] := by decide +kernel

/-- 06 R203: exp 0 is 1, log 1 is 0. -/
theorem test_transcendental : sends (.vexp (op1 .f32 0)) (fires base [scalar 0]) = [(.scalar, 0x3F800000)] ∧
    sends (.vlog (op1 .f32 0)) (fires base [scalar 0x3F800000]) = [(.scalar, 0)] := by decide +kernel

/-- 06 R200: 300 into n8 under SAT, and 2.5 into i32 to nearest even. -/
theorem test_vcvt : sends (.vcvt { op1 .n16 5 with sat := true }) (fires base [scalar 300]) = [(.scalar, 255)] ∧
    sends (.vcvt (op1 .f32 3)) (fires base [scalar 0x40200000]) = [(.scalar, 2)] := by decide +kernel

/-- 06 R206: four elements of 7 in one line. -/
theorem test_vbcast : leaves (.vbcast (op1 .i32 3)) (fires base [scalar 7])
    (fun t => Mem.read t.mem (spAddr 0 0) 20 == [7, 0, 0, 0, 7, 0, 0, 0, 7, 0, 0, 0, 7, 0, 0, 0, 0, 0, 0, 0] && (getLine t 0 0).full) = true := by
  decide +kernel

def bytesAt (a : Nat) (bs : List Byte) (s : State) : State := { s with mem := Mem.write s.mem a bs }

/-- Two bf16 rows of the small machine's tiles: 1, 2 in line 8 and 3, 4 in line 9. -/
def twoRows : State := bytesAt (spAddr 0 (128 * 8)) [0x80, 0x3F, 0, 0x40] (bytesAt (spAddr 0 (128 * 9)) [0x40, 0x40, 0x80, 0x40] base)

/-- 07 R229: 1 × 3 + 2 × 4 is 11, and the operator answers the inner length. -/
theorem test_mma : leaves (.mma (op2 .bf16 0x80000000)) (fires twoRows [tile .bf16 1 2 8, tile .bf16 1 2 9])
    (fun t => readAcc (getCluster t 0) 0 0 0 == 0x41300000 && t.net.map (fun p => p.tok.payload) == [2]) = true := by decide +kernel

/-- 07 R243: the keys 1, 2, 3 of 3, 1, 2 in n8. -/
theorem test_msort : leaves (.msort (op1 .n8 0)) (fires (bytesAt (spAddr 0 (128 * 8)) [3, 1, 2] base) [tile .n8 1 3 8])
    (fun t => Mem.read t.mem (spAddr 0 0) 4 == [1, 2, 3, 0]) = true := by decide +kernel

/-- 06 R211: the sum of 3, 1, 2 along a row. -/
theorem test_vreduce : leaves (.vreduce (op1 .n8 5)) (fires (bytesAt (spAddr 0 (128 * 8)) [3, 1, 2] base) [tile .n8 1 3 8])
    (fun t => Mem.read t.mem (spAddr 0 0) 2 == [6, 0]) = true := by decide +kernel

/-! ### The hypotheses of each statement are met -/

theorem witness_AluAndImmediateWords : 0x12 ≤ (0x12#11).toNat ∧ 0x12 ≤ (0x7FF#11).toNat := by decide

theorem witness_BranchesJumpsFencesAndWaits : (rx (hawk ((Thread.reset false).setX 1 2)) 1).toNat % 4 ≠ 0 ∧
    ((hawk { Thread.reset false with wake := true }).now.wake = true) ∧ (State.reset.now.wake = false ∧ State.reset.now.timer = false ∧
      State.reset.now.ie = false) := by decide +kernel

/-- A thread with x1 at the last word of local SRAM. -/
def atSramEnd : State := hawk ((Thread.reset false).setX 1 0xFF000000000FFFF8)

theorem witness_LoadsAndStoresOnSram : SramAt atSramEnd (rx atSramEnd 1) 8 ∧ SramAt atSramEnd (rx atSramEnd 1 + 7) 1 ∧
    SramAt atSramEnd (rx atSramEnd 1 + 6) 2 ∧ SramAt atSramEnd (rx atSramEnd 1 + 4) 4 ∧ (rx atSramEnd 1 + 1).toNat % 2 ≠ 0 ∧
    (rx atSramEnd 1 + 2).toNat % 4 ≠ 0 ∧ (rx atSramEnd 1 + 4).toNat % 8 ≠ 0 ∧
    (let s := hawk { Thread.reset false with mode := false }
     s.now.mode = false ∧ 0xFF00000000000000 ≤ (rx s 0 + (0xFFF8 : BitVec 16).signExtend 64).toNat ∧
       (rx s 0 + (0xFFF8 : BitVec 16).signExtend 64).toNat % 8 = 0) := by
  simp only [SramAt]
  decide +kernel

theorem witness_AtomicsOnSram : SramAt atSramEnd (rx atSramEnd 1) 8 ∧ SramAt atSramEnd (rx atSramEnd 1) 4 ∧
    (rx (hawk ((Thread.reset false).setX 1 2)) 1).toNat % 4 ≠ 0 := by
  simp only [SramAt]
  decide +kernel

theorem witness_RoundingModesChooseTheirNeighbour : 0 < 1 := by decide

/-- Supervisor with IE set, and with IE clear; guest. -/
theorem witness_TrapsEnterAndReturn : ¬((hawk { Thread.reset false with ie := true }).now.mode = true ∧
      (hawk { Thread.reset false with ie := true }).now.ie = false) ∧ (State.reset.now.mode = true ∧ State.reset.now.ie = false) ∧
    (hawk { Thread.reset false with mode := false }).now.mode = false := by decide +kernel

theorem witness_SystemRegistersReadAndWrite : (0x21#16).toNat = 0x21 ∧ State.reset.now.mode = true ∧
    (hawk { Thread.reset false with mode := false }).now.mode = false ∧ (0xFF#16).toNat ∉ [0x20, 0x21] ∧
    (rx (hawk ((Thread.reset false).setX 1 0x80)) 1).getLsbD 7 = true := by decide +kernel

/-- The small machine with region 0 in a state, thread 0 that owns it, x1 at byte 256 of local SRAM, and bytes there. -/
def graphState (st : RState) (r : Region) (bs : List Byte) : State :=
  let t := (Thread.reset false).setX 1 0xFF00000000000100
  bytesAt (sramAddr 0 256) bs (setThread (setRegion base 0 { r with state := st }) 0 { t with region := region0.handle })

/-- A graph image without sections for four rows and four columns (03 R101). -/
def emptyImage : List Byte := [0x4B, 0x58, 0x47, 0x49, 1, 0, 0, 0, 0, 4, 4, 1] ++ List.replicate 52 0

/-- A sheet without sections for the same shape (04 R123). -/
def emptySheet : List Byte :=
  [0x44, 0x55, 0x53, 0x54, 1, 0, 0, 0] ++ leBytes 8 (shapeWord region0).toNat ++ List.replicate 112 0

def hawkOk {α : Type} (x : Hawk α) (p : State → α → Bool) : Bool := match x with | .ok s a => p s a | _ => false

theorem witness_GraphInstructionsAct :
    (hawk { Thread.reset false with mode := false }).now.mode = false ∧ graphRegion State.reset 0 [.loaded] = none ∧
    State.reset.now.mode = true ∧
    (let s := graphState .granted region0 [1]
     graphRegion s 0 [.granted] = some 0 ∧ hawkOk (checkedImage s 0 0 (rx s 1) 0) (fun _ x => x.1 == loadBadimg && x.2.isNone) = true) ∧
    (let s := graphState .granted region0 emptyImage
     hawkOk (checkedImage s 0 0 (rx s 1) 0) (fun _ x => x.1 == 0 && x.2.isSome) = true) ∧
    (let s := graphState .granted region0 emptySheet
     hawkOk (fetchSheet s 0 (rx s 1) 0) (fun u bs => match parseSheet bs with
       | some l => !carriesPoison l && sheetRefusal u 0 bs == 0 | none => false) = true) ∧
    (let s := graphState .frozen region0 []
     graphRegion s 0 [.frozen] = some 0 ∧ region0.lost = false ∧ (rx s 0).toNat % 4096 = 0) ∧
    (let s := graphState .loaded { region0 with sinks := [scalar 1] } []
     graphRegion s 0 [.loaded] = some 0 ∧ (getRegion s 0).stopped = false ∧ (getRegion s 0).freezeAt = none ∧
       (getRegion s 0).thawAt = none ∧ (getRegion s 0).sinks = scalar 1 :: []) ∧
    (graphState .loaded region0 []).now.region.getLsbD 63 = true := by decide +kernel

/-- INJ takes a header of port 0 of slot 1 of relative cluster 0 in context 1; OPWR writes that slot; DIAGST reaches HBM, a
bank and the scratchpad. -/
theorem witness_GraphInstructionsAct_places :
    (let s := graphState .loaded region0 []
     let h := headerBits { scalar 0 with dst := dst 0 1 0 0 }
     injOk (setThread s 0 (s.now.setX 2 h)) 0 (rx (setThread s 0 (s.now.setX 2 h)) 2) false = true ∧
     hawkOk (fetchSound s 0 (rx s 1) 16 0) (fun u _ =>
       placeOk u (getRegion s 0) 0 0 && (recCluster u (getRegion s 0) 0 0).isSome) = true ∧
     (rx s 1).toNat % 8 = 0) ∧
    upperLoc base 0 0xFF10000000000000 = some (.mem 0) ∧ inSinkArea 0 = false ∧
    upperLoc base 0 0xFF20000000000000 = some (.bank (bankAddr 0 0) false) ∧ upperLoc base 0 0xFF30000000000000 = none ∧
    locate base region0 0x00FFF00000000000 8 = .scratch 0 0 := by decide +kernel

/-- Fields for two destinations and two route entries, and a firing whose route word names slots 3 and 4. -/
def opR (ports : BitVec 2) (imm : BitVec 37) : Op := plainOp .raw ports imm (dst 0 1 0 2) (dst 0 2 0 0)

/-- The data of every performing firing. -/
theorem performs_fires (s : State) (toks : List Tok) (x : Xfm) (h : (tagUnder (fires s toks) (fires s toks).firing x).granted = true)
    (ht : (toks.all fun t => t.kind != .error) = true) : Performs (fires s toks) x := by
  refine ⟨h, rfl, ?_⟩
  simpa [fires] using ht

theorem witness_ControlOperators :
    Performs (fires base [scalar 5, scalar 1, scalar 0]) .keep ∧ Performs (fires base [scalar 5]) .new ∧
    (let s := fires base [scalar 5, scalar 1, scalar 0]
     dataError s s.firing (opR 1 0) (scalar 5) = none ∧ isScalar (scalar 1) = true ∧ (scalar 1).flag.poison = false ∧
     (destinations s s.firing (opR 1 0)).length = 4 ∧ ((destinations s s.firing (opR 1 0))[3]?).isSome = true ∧
     (opR 1 0).imm.getLsbD 3 = false ∧ (opR 1 8).imm.getLsbD 3 = true) ∧
    (let s := fires base [tile .i32 1 4 8]
     dataError s s.firing (op1 .raw 1) (tile .i32 1 4 8) = none ∧ (tile .i32 1 4 8).kind = .tile ∧
     (deepCopies s s.firing (tile .i32 1 4 8) (destinations s s.firing (op1 .raw 1))).isSome = true ∧
     (copyTile s s.firing (tile .i32 1 4 8).payload).isSome = true) ∧
    (let s := fires (setCluster base 0 { cluster0 with pool := none }) [tile .i32 1 4 8]
     (deepCopies s s.firing (tile .i32 1 4 8) (destinations s s.firing (op1 .raw 1))).isNone = true) ∧
    (let s := fires base [scalar 5, scalar 1]
     s.firing.stale = false ∧ 2 ≤ s.firing.toks.length ∧ (getCluster s 0).streams.length < 4 ∧
     (region0.absolute (region0.relative 0 + 1 * 1)).isSome = true ∧ (regionCluster s region0 0 1).isSome = true) ∧
    4 ≤ (List.replicate 4 ({ firing := Firing.none, left := 1, next := 0 } : Stream)).length := by
  refine ⟨performs_fires _ _ _ ?_ ?_, performs_fires _ _ _ ?_ ?_, ?_⟩ <;> decide +kernel

/-- The same machine with a second colour, the child of the first. -/
def nested : State :=
  setRegion base 0 { region0 with ctxs := [(1, { Ctx.none with declared := true, window := 4, ptr := 2,
                                                               live := [colour0, { colour0 with col := 1, parent := some tag0 }] })] }

def firesChild (toks : List Tok) : State := { nested with turn := .firing, firing := { Firing.none with tag := { tag0 with col := 1 }, toks := toks } }

theorem witness_ContextAndFrameOperators :
    (let s := fires base [scalar 5]
     (allocColour s 0 1 (some tag0) (nodeField region0 0 0) zeroFrame (modeOf region0 tag0)).isSome = true ∧
     (match tagUnder s s.firing .next with | .tag u t => (liveColour (getRegion (sendUnder (carryAll u s.firing t (ctxValues s s.firing)) s.firing t
        (mapped u s.firing (op1 .raw 0x10000) (ctxValues s s.firing))) 0) tag0).isSome | _ => false) = true ∧
     (liveColour (getRegion s 0) tag0).isSome = true ∧ colour0.exits = false ∧ colour0.nexts = false) ∧
    (let s := firesChild [scalar 5]
     (liveColour (getRegion s 0) { tag0 with col := 1 }).map Colour.parent = some (some tag0) ∧ (liveColour (getRegion s 0) tag0).isSome = true ∧
     (liveColour (getRegion (sendUnder s s.firing tag0 (mapped s s.firing (op1 .raw 0x10000) (ctxValues s s.firing))) 0) { tag0 with col := 1 }).isSome = true) ∧
    Performs (firesChild [scalar 5]) .keep := by
  refine ⟨?_, ?_, ⟨?_, ?_, ?_⟩⟩ <;> decide +kernel

theorem witness_ScalarAluComputesExactly :
    Performs (fires base [scalar 0x80, scalar 0xFF]) .keep ∧ Fmt.i8 ∈ [Fmt.i8, .i16, .i32, .i64, .n8, .n16, .n32, .n64] ∧
    (∀ t ∈ [scalar 0x80, scalar 0xFF], isScalar t = true ∧ t.flag.poison = false) :=
  ⟨performs_fires _ _ _ (by decide +kernel) (by decide +kernel), by decide, by decide⟩

/-- The small machine with an identity range in the translators of die 0 and of port 0, which region 0 owns, and bytes at
4,096. -/
def mapped0 (bs : List Byte) : State :=
  let x : Xlate := { ranges := [{ vbase := 0, len := 0x100000, pte := 0xC01, asid := 0xFFFFFFFF }], tlb := [] }
  bytesAt 4096 bs (setPort (setDie base 0 { Die.reset with xlate := x }) 0 { Port.reset with en := true, owner := 0, xlate := x })

def readOk (x : Reading) (p : State → List Byte → Bool) : Bool := match x with | .ok s bs => p s bs | _ => false

/-- The word of a SPLICE with two ports. -/
def spliceWord : Word128 := 0x03C00800000000000000000080000040

theorem witness_PfenceSpliceCmpx :
    (let f : Firing := { Firing.none with tag := tag0, toks := [scalar 1, scalar 4096], word := spliceWord }
     let s (bs : List Byte) (r : Region) : State := setRegion { mapped0 bs with firing := f } 0 r
     wordPorts 0 ≠ 2 ∧ wordPorts spliceWord = 2 ∧ dataError (s [] region0) f (op2 .raw 0) (scalar 1) = none ∧
     readOk (spliceImage (s emptyImage region0) f) (fun u bs => match parseImage bs with
       | some m => imageRefusal u 0 m true == 0 | none => false) = true ∧
     readOk (spliceImage (s (emptyImage.set 9 5) region0) f) (fun u bs => match parseImage bs with
       | some m => imageRefusal u 0 m true != 0 | none => false) = true ∧
     (getRegion (s [] { region0 with splice := some { cluster := 0, hops := [], entries := [] } }) 0).splice ≠ none) ∧
    (getCluster base 0).cmpx.length < 256 ∧ (getRegion base 0).twin = none ∧
    (getRegion (setRegion base 0 { region0 with twin := some (1, true) }) 0).twin = some (1, true) ∧
    (let w : Cmpx := { firing := { Firing.none with tag := tag0 }, key := 0, digest := 0, since := 0 }
     ([w].any fun x => x.firing.region == 0 && x.firing.tag.ctx == tag0.ctx && x.key == 0) = true ∧
     256 ≤ (List.replicate 256 w).length) := by decide +kernel

theorem witness_ErrorAndRefusedFirings :
    (let s := fires base [scalar 1, tok .error 7]
     (tagUnder s s.firing .keep).granted = true ∧ (s.firing.toks.find? fun t => t.kind == .error).isSome = true) ∧
    (∀ t ∈ [scalar 1], t.kind = .scalar) ∧
    (let s := fires (setRegion base 0 { region0 with ctxs := [(1, { Ctx.none with declared := true, window := 1, ptr := 1, live := [colour0] })] }) []
     (tagUnder s s.firing .new).granted = false) := by decide +kernel

theorem witness_ResultsLeaveAndJoinTheNetwork :
    (regionCluster base region0 0 0).isSome = true ∧ regionCluster base region0 1 0 = none ∧ Tab.get 0 region0.span 1 = 0 ∧
    Kind.scalar ≠ Kind.tile := by decide +kernel

/-- Operands of the engines: two scalars; two tiles of one row of four elements. -/
def vec (ts : List Tok) : State := fires base ts

theorem reads (s : State) (o : Op) (ps : List VPort) (he : vecError (s.coloured o.xfm) s.firing ps (sameShapes s.firing ps) = none)
    (hp : ((readArgs (s.coloured o.xfm) s.firing.cluster (s.firing.toks.zip ps)).2.2.zip ps).any (fun e => e.1 && !e.2.fwd) = false) :
    ∃ u as p, OperandsRead s o ps u as p := ⟨_, _, _, he, rfl, hp, rfl, rfl⟩

theorem witness_VectorFloatingOperators :
    Performs (vec [scalar 1, scalar 2, scalar 3]) .keep ∧
    (∃ u as p, OperandsRead (vec [scalar 1]) (op1 .f32 0) [dataPort .f32] u as p) ∧
    (∃ u as p, OperandsRead (vec [scalar 1, scalar 2]) (op2 .f32 0) (List.replicate 2 (dataPort .f32)) u as p) ∧
    (∃ u as p, OperandsRead (vec [tile .f32 1 4 8, tile .f32 1 4 9, scalar 3]) (op3 .f32 0) (List.replicate 3 (dataPort .f32)) u as p) ∧
    (∃ u as p, OperandsRead (vec [tile .f16 1 4 8, tile .f16 1 4 9]) (op2 .f16 0) [movePort .f16, movePort .f16] u as p) ∧
    (∃ u as p, OperandsRead (vec [scalar 1, scalar 2]) (op2 .f64 0) [dataPort .f64, dataPort .i32] u as p) ∧
    (∃ u as p, OperandsRead (vec [scalar 1]) (op1 .f64 0) [movePort .f64] u as p) ∧
    fpOf .f32 = some (fpFor .f32) ∧ fpOf .i32 = none ∧ fpOf (ofmtOf (op1 .f32 3)) = none ∧ (fpOf (ofmtOf (op1 .i32 0xB))).isSome = true := by
  refine ⟨performs_fires _ _ _ ?_ ?_, reads _ _ _ ?_ ?_, reads _ _ _ ?_ ?_, reads _ _ _ ?_ ?_, reads _ _ _ ?_ ?_, reads _ _ _ ?_ ?_,
    reads _ _ _ ?_ ?_, ?_, ?_, ?_, ?_⟩ <;> decide +kernel

/-- A clause that speaks of tiles and one that speaks of scalars. -/
theorem witness_GivesEach : argShape [.scalar 1] = none ∧
    argShape [.tile (plainTile .f32 1 4 fun _ _ => 0)] = some (1, 4) ∧ shapeFits .f32 1 4 = true ∧ shapeFits .i64 128 4096 = false ∧
    (putTile base 0 0 tag0 (plainTile .f32 1 4 fun _ _ => 0) false).isSome = true ∧
    (putTile (setCluster base 0 { cluster0 with pool := none }) 0 0 tag0 (plainTile .f32 1 4 fun _ _ => 0) false).isNone = true := by
  decide +kernel

theorem witness_VectorIntegersAndBits :
    Performs (vec [scalar 1, scalar 2, scalar 3]) .keep ∧ Fmt.n8 ∈ [Fmt.i8, .i16, .i32, .i64, .n8, .n16, .n32, .n64] ∧
    (∀ i j, ∀ a ∈ [VArg.scalar 255, .scalar 0], a.elem i j < 2 ^ fmtBits .n8) ∧
    (∃ u as p, OperandsRead (vec [scalar 255, scalar 0]) (op2 .n8 0) (List.replicate 2 (dataPort .n8)) u as p) ∧
    (∃ u as p, OperandsRead (vec [scalar 1, scalar 2, scalar 3]) (op3 .i64 0) (List.replicate 3 (dataPort .i64)) u as p) ∧
    (∃ u as p, OperandsRead (vec [scalar 0]) (op1 .n8 0) (List.replicate 1 (dataPort .n8)) u as p) := by
  refine ⟨performs_fires _ _ _ ?_ ?_, ?_, ?_, reads _ _ _ ?_ ?_, reads _ _ _ ?_ ?_, reads _ _ _ ?_ ?_⟩
  case refine_4 => intro i j a ha; simp at ha; rcases ha with rfl | rfl <;> simp [VArg.elem, fmtBits]
  all_goals decide +kernel

theorem witness_VectorMovesElements :
    Performs (vec [tile .i32 1 4 8]) .keep ∧
    (∃ u as p, OperandsRead (vec [scalar 1]) (op1 .i32 3) [{ scalarOnly .i32 with fwd := true }] u as p) ∧
    (∃ u as p, OperandsRead (vec [scalar 1]) (op1 .i32 3) [scalarOnly .i32] u as p) ∧
    (∃ u as p, OperandsRead (vec [tile .b1 1 4 8, tile .i32 1 4 9, scalar 1]) (op3 .i32 0) [dataPort .b1, movePort .i32, movePort .i32] u as p) ∧
    (∃ u as p, OperandsRead (vec [tile .i32 1 4 8]) (op1 .i32 0) [{ tileOnly .i32 with fwd := true }] u as p) ∧
    (∃ u as p, OperandsRead (vec [tile .i32 1 4 8, tile .n16 1 4 9]) (op2 .i32 0)
      [{ tileOnly .i32 with fwd := true, shaped := false }, { dataPort .n16 with shaped := false }] u as p) ∧
    (∃ u as p, OperandsRead (vec [tile .i32 1 4 8, scalar 3]) (op2 .i32 0) [{ tileOnly .i32 with fwd := true }, scalarOnly .n32] u as p) ∧
    (∃ u as p, OperandsRead (vec [tile .i32 1 4 8, scalar 3, scalar 9]) (op3 .i32 0)
      [{ tileOnly .i32 with fwd := true }, scalarOnly .n32, { scalarOnly .i32 with fwd := true }] u as p) ∧
    (∃ u as p, OperandsRead (vec [tile .i32 1 4 8, scalar 0x20000]) (op2 .i32 1) [{ tileOnly .i32 with fwd := true }, scalarOnly .n64] u as p) := by
  refine ⟨performs_fires _ _ _ ?_ ?_, reads _ _ _ ?_ ?_, reads _ _ _ ?_ ?_, reads _ _ _ ?_ ?_, reads _ _ _ ?_ ?_, reads _ _ _ ?_ ?_,
    reads _ _ _ ?_ ?_, reads _ _ _ ?_ ?_, reads _ _ _ ?_ ?_⟩ <;> decide +kernel

/-- The bounds at which the clauses of a move meet: the last index inside and the first outside; the slice that ends with the
tile and the one that passes it; 128 and 129 columns. -/
theorem witness_VectorMovesElements_bounds : (3 < 1 * 4 ∧ 1 * 4 ≤ 4) ∧ (0 + 1 ≤ 1 ∧ 2 + 2 ≤ 4 ∧ 4 < 3 + 2) ∧ (128 ≤ 128 ∧ 128 < 129) ∧
    shapeFits .i32 1 4 = true ∧ (0x20000 = 2 * 2 ^ 16 + 0) ∧ (1 ≤ 16 ∧ 16 ≤ 16) := by decide

theorem witness_VectorReductionsAndScans : Performs (vec [tile .i32 1 4 8]) .keep ∧
    (∃ u as p, OperandsRead (vec [tile .i32 1 4 8]) (op1 .i32 3) [tileOnly .i32] u as p) ∧
    (op1 .i32 3).imm.getLsbD 5 = false ∧ (op1 .i32 0x23).imm.getLsbD 5 = true ∧ fpOf (ofmtOf (op1 .i32 3)) = none ∧
    (fpOf (ofmtOf (op1 .f32 0x2B))).isSome = true := by
  refine ⟨performs_fires _ _ _ ?_ ?_, reads _ _ _ ?_ ?_, ?_, ?_, ?_, ?_⟩ <;> decide +kernel

theorem witness_VectorSplitsCompressesAndQuantises : Performs (vec [tile .f32 1 32 8]) .keep ∧
    (∃ u as p, OperandsRead (vec [tile .f32 1 32 8]) (op1 .f32 2) [{ dataPort .f32 with takes := .tile }] u as p) ∧
    (∃ u as p, OperandsRead (vec [tile .f32 1 32 8]) (op1 .f32 0xF) [tileOnly .f32] u as p) ∧
    (∃ u as p, OperandsRead (vec [tile .n8 1 2 8, tile .n8 1 2 9]) (op2 .n8 0x12)
      [{ tileOnly .n8 with fwd := true, shaped := false }, { tileOnly .n8 with shaped := false }] u as p) ∧
    (∃ u as p, OperandsRead (vec [scalar 1, scalar 2]) (op2 .n32 3) [scalarOnly .n64, scalarOnly .n64] u as p) ∧
    (putTiles (vec [tile .f32 1 32 8]) (vec []).firing false [(plainTile .f32 1 4 fun _ _ => 0, [])]).isSome = true ∧
    (32 % 4 = 0 ∧ 30 % 4 ≠ 0) ∧
    compactShapes 2 false (1, 2) (1, 2) = true ∧
    compactShapes 2 false (1, 2) (1, 1) = false ∧
    badMeta 4 2 false 2 [[0, 1]] = none ∧ (badMeta 4 2 false 2 [[1, 0]]).isSome = true := by
  refine ⟨performs_fires _ _ _ ?_ ?_, reads _ _ _ ?_ ?_, reads _ _ _ ?_ ?_, reads _ _ _ ?_ ?_, reads _ _ _ ?_ ?_, ?_⟩ <;> decide +kernel

/-- Operands of MMA, MMA.SP and MOUTER: A of one row, values and metadata two of four, rows of two elements. -/
theorem witness_MatrixProductsAndWeights :
    Performs (vec [tile .bf16 1 8 8, tile .bf16 1 8 9]) .keep ∧ usedPoison (vec [tile .bf16 1 8 8, tile .bf16 1 8 9]).firing = false ∧
    (let s := vec [tile .bf16 1 8 8, tile .bf16 1 8 9]
     denseB s s.firing (op2 .bf16 0x80000000) = some (tile .bf16 1 8 9).payload ∧
     checkTile s 0 (tile .bf16 1 8 8).payload (some [.bf16]) = none ∧ bFmt (op2 .bf16 0) = .bf16 ∧
     (handleOf (tile .bf16 1 8 8).payload).epr ≤ kLimit .bf16 ∧ (blockAt (op2 .bf16 0) 1 1).fits = true ∧
     (readTile s 0 (tile .bf16 1 8 8).payload).2.2 = false ∧ (op2 .bf16 0x80000000).imm.getLsbD 31 = true ∧
     blockBad (getCluster s 0) (blockAt (op2 .bf16 0) 1 1) = false) ∧
    (let s := vec [tile .bf16 1 8 8, tile .bf16 1 4 9, tile .n8 1 1 10]
     let o : Op := op3 .bf16 0
     sparseB s s.firing o = some ((tile .bf16 1 4 9).payload, (tile .n8 1 1 10).payload) ∧
     checkTile s 0 (tile .n8 1 1 10).payload (some [.n8]) = none ∧
     sparseShapes (handleOf (tile .bf16 1 4 9).payload) (handleOf (tile .n8 1 1 10).payload) = true ∧
     badMeta 4 2 true 4 [[0x44]] = none ∧ (badMeta 4 2 true 4 [[0]]).isSome = true) ∧
    (let s := vec [tok .tile (newHandle .bf16 1 8 256 0 1 0).word]
     let t : Tok := tok .tile (newHandle .bf16 1 8 256 0 1 0).word
     checkTile s 0 t.payload (some [.bf16]) = none ∧ (handleOf t.payload).res = 1) ∧
    (let s := vec []
     let t : Tok := tok .tile (newHandle .bf16 1 4 256 0 1 0).word
     let d : Tok := tok .tile (newHandle .n8 1 1 257 0 1 0).word
     checkTile s 0 d.payload (some [.n8]) = none ∧ sparseShapes (handleOf t.payload) (handleOf d.payload) = true ∧
     2 * (handleOf t.payload).epr % 8 = 0 ∧ (handleOf t.payload).owner = (handleOf d.payload).owner ∧
     (handleOf d.payload).pitch = pitchFor .n8 (handleOf d.payload).epr) := by
  refine ⟨performs_fires _ _ _ ?_ ?_, ?_⟩ <;> decide +kernel

theorem witness_AccumulatorBlocksReadBack :
    (let b : AccBlock := { a := 1, row := 63, col := 0, rows := 1, cols := 64 }
     b.a < 2 ∧ b.row + b.rows ≤ 64 ∧ b.col + b.cols ≤ 64 ∧ b.holds 62 0 = false) := by decide

theorem witness_AccumulatorsMoveToAndFromTiles : Performs (vec [tile .f32 1 4 8]) .keep ∧
    immFmt (op1 .f32 0xB00000000) 36 32 = some .f32 ∧
    (let s := vec [tile .f32 1 4 8]
     blockBad (getCluster s 0) (immBlock (op1 .f32 0xB00000000)) = false ∧ shapeFits .f32 1 1 = true ∧
     checkTile s 0 (tile .f32 1 4 8).payload (some [.f32]) = none ∧ (blockAt (op1 .f32 0) 1 4).fits = true ∧
     (readTile s 0 (tile .f32 1 4 8).payload).2.2 = false ∧ (readTile s 0 (tile .f32 1 4 8).payload).2.1.rows = 1) := by
  refine ⟨performs_fires _ _ _ ?_ ?_, ?_⟩ <;> decide +kernel

theorem witness_NetworkModeSortsAndMerges : Performs (vec [tile .n8 1 4 8]) .keep ∧
    (∃ u as p, OperandsRead (vec [tile .n8 1 4 8]) (op1 .n8 0) [tileOnly .n8] u as p) ∧
    (∃ u as p, OperandsRead (vec [tile .n8 1 4 8, tile .n8 1 4 9]) (op2 .n8 0) (List.replicate 2 { tileOnly .n8 with shaped := false }) u as p) ∧
    (∃ u as p, OperandsRead (vec [tile .n8 1 4 8, tile .n16 1 4 9, tile .n8 1 4 10, tile .n16 1 4 11]) (plainOp .n8 3 0 noDst noDst)
      [{ tileOnly .n8 with shaped := false }, { tileOnly .n16 with shaped := false }, { tileOnly .n8 with shaped := false },
       { tileOnly .n16 with shaped := false }] u as p) ∧
    (op2 .n8 0).nports ≠ 4 ∧ (plainOp .n8 3 0 noDst noDst).nports = 4 ∧ 64 < (plainTile .n8 1 65 fun _ _ => 0).epr := by
  refine ⟨performs_fires _ _ _ ?_ ?_, reads _ _ _ ?_ ?_, reads _ _ _ ?_ ?_, reads _ _ _ ?_ ?_, ?_, ?_, ?_⟩ <;> decide +kernel

/-- A descriptor of two 4-byte elements from 4,096: to addresses from 8,192 (kind 0), to stream tiles (2), or to a ring of one
slot at line 256 (3). -/
def descriptor (dkind flags : Byte) (dbase : Nat) : List Byte :=
  [0, dkind, 2, 1, 0, flags, if dkind = 3 then 1 else 0, 0] ++ leBytes 8 4096 ++ leBytes 8 dbase ++ List.replicate 16 0 ++ leBytes 8 0 ++
    leBytes 2 1 ++ leBytes 4 4 ++ leBytes 4 (if dkind = 0 then 4 else 0) ++ List.replicate 70 0

/-- A class-3 firing of the small machine: its word's OPC and IMM, and its tokens. -/
def sfiring (opc : Nat) (fmt : Nat) (toks : List Tok) : SFiring :=
  { no := 0, firing := { Firing.none with tag := tag0, toks := toks, word := BitVec.ofNat 128 (3 * 2 ^ 125 + opc * 2 ^ 117 + fmt * 2 ^ 112 + 0x80000040) },
    slot := 0, next := 0, marks := 0, done := 0, bytes := 0, tiles := 0, fail := none, cancelled := false, shaken := false,
    error := none, held := none, failNext := none, tile := none, bad := false, tileFail := none, marked := [], filled := [], begun := false,
    tiled := false, wrote := [] }

/-- A machine with a stencil armed in slot 0 of cluster 0 and a queue 0. -/
def stencils (d : List Byte) (q : SQueue) : State :=
  modCluster (setPort (mapped0 d) 0 { getPort (mapped0 d) 0 with copy := true }) 0 fun k => { k with sten := [(0, { desc := some d, link := none, cursor := 0 })], queues := [(0, q)] }

def stepped (x : Stepped) (p : State → SFiring → Bool) : Bool := match x with | .next s y => p s y | _ => false

theorem witness_StencilOperatorsAreAccepted :
    (getSQueue base 0 0).pending.length < 16 ∧ 16 ≤ (List.replicate 16 (sfiring 2 0 [])).length ∧
    (let s := fires (stencils (descriptor 0 0 8192) SQueue.empty) [scalar 0]
     let a := setCluster s 0 { getCluster s 0 with accepted := (getCluster s 0).accepted + 1 }
     Performs a .keep ∧ Performs s .keep ∧
     (match armed (a.coloured .keep) 0 0 with
      | some x => x.pmax == 0 && !x.isTiles && x.count == 2 && x.n0 == 2 && shapeFits .n64 1 2 | none => false) = true ∧
     (putTile (a.coloured .keep) 0 0 tag0 (plainTile .n64 1 2 fun _ _ => 0) false).isSome = true) ∧
    (let s := stencils (descriptor 2 0 0) SQueue.empty
     (match armed s 0 0 with | some x => x.isTiles | none => false) = true) ∧
    cancels (op1 .raw 0x20) (sfiring 2 0 []) = true := by
  refine ⟨?_, ?_, ⟨⟨?_, ?_, ?_⟩, ⟨?_, ?_, ?_⟩, ?_⟩, ?_⟩ <;> decide +kernel

/-- A firing that a queue issues, after the queue's last tokens, in the words of the statement. -/
def issues (s : State) (x : SFiring) (p : State → SFiring → Bool) : Bool :=
  let s1 := finishCancels (finishQueue s 0 0) 0
  let y := getSQueue s1 0 0
  let u := setSQueue s1 0 0 { y with pending := [] }
  decide (y.issued = none ∧ y.pending = [x]) && !isStopped s1 x.firing.region && !orderedBack (getCluster s1 0) 0 x &&
  sourceLines s1 x != .waiting && p u { x with tiled := tilesNow u x }

/-- A queue that has issued a firing. -/
def issued0 (d : List Byte) (x : SFiring) : State := stencils d { pending := [], issued := some x }

def isIssued (s : State) (x : SFiring) : Bool :=
  let s1 := finishCancels (finishQueue s 0 0) 0
  decide ((getSQueue s1 0 0).issued = some x)

theorem witness_StencilQueuesMoveOn :
    (let q (x : SFiring) : State := stencils (descriptor 0 0 8192) { pending := [x], issued := none }
     let fine (x : SFiring) (u : State) (z : SFiring) : Bool :=
       !portPoison x.firing (scalarPorts z) && decide (x.error = none) && decide (issueErrorOf u z = none) && !x.firing.stale && sourceLines u z != .stale
     let ok (opc fmt : Nat) (ts : List Tok) : Bool := issues (q (sfiring opc fmt ts)) (sfiring opc fmt ts) (fine (sfiring opc fmt ts))
     ok 1 0 [scalar 4096] = true ∧ ok 2 0 [scalar 0] = true ∧ ok 4 0 [scalar 0] = true ∧
     (let x := sfiring 2 0 [{ scalar 0 with flag := { Flag.none with poison := true } }]
      issues (q x) x (fun _ z => portPoison x.firing (scalarPorts z)) = true) ∧
     (let x := sfiring 2 0 [tile .i32 1 4 8]
      issues (q x) x (fun u z => !portPoison x.firing (scalarPorts z) && (issueErrorOf u z).isSome) = true) ∧
     (let x := { sfiring 2 0 [scalar 0] with error := some 1 }
      issues (q x) x (fun _ z => !portPoison x.firing (scalarPorts z)) = true) ∧
     (let x := sfiring 3 0 [scalar 0]
      issues (q x) x (fun u z => fine x u z && (match performSchain u z with | .ok _ => true | .error _ => true)) = true) ∧
     ((sfiring 2 0 [tok .error 7]).firing.toks.find? fun t => t.kind == .error).isSome = true) ∧
    isStopped (setRegion (stencils (descriptor 0 0 8192) SQueue.empty) 0 { region0 with stopped := true }) 0 = true ∧
    (getSQueue base 0 0).issued = none ∧ (getSQueue base 0 0).pending = [] ∧
    (let x := sfiring 2 0 [scalar 0]
     let s := issued0 (descriptor 0 0 8192) x
     isIssued s x = true ∧ x.held = none ∧ x.error = none ∧ x.cancelled = false ∧ x.tile = none ∧ inTiles s x = false ∧
     x.next < elemCount s x ∧
     stepped (performNext s 0 x) (fun u z => z.next == 1 && (sendMark u z x.next).isSome) = true ∧
     elemCount s { x with next := 2 } ≤ 2) ∧
    (let x := { sfiring 2 0 [scalar 0] with held := some { addr := 0, ticket := 0, escalated := false } }
     isIssued (issued0 (descriptor 0 0 8192) x) x = true ∧ x.held.isSome = true) ∧
    (let x := { sfiring 2 0 [scalar 0] with cancelled := true, begun := true }
     isIssued (issued0 (descriptor 0 0 8192) x) x = true ∧ x.error = none ∧ sOpc x ≠ 1) ∧
    sOpc (sfiring 1 0 [scalar 4096]) = 1 ∧ isIssued (issued0 (descriptor 0 0 8192) (sfiring 1 0 [scalar 4096])) (sfiring 1 0 [scalar 4096]) = true := by
  decide +kernel

/-- Tile steps: to stream tiles, to a ring slot, and to a retained one. -/
theorem witness_TileStepsSendTheirTiles :
    (let x := sfiring 2 3 [scalar 0]
     let s := issued0 (descriptor 2 0 0) x
     (getSQueue s 0 0).issued = some x ∧ x.held = none ∧ x.error = none ∧
     (match armed s 0 0 with
      | some t => t.isTiles && !t.isRing && decide (x.next < t.count) &&
        (match takeStream s x t with
         | some (u, w) => stepped (performUpTo 0 t.tileSize t.tileSize u { x with tile := some (w, t.tileSize) }) fun v y =>
            decide (t.tileSize ≤ y.next) && (match sendTile v y t with
              | some (v1, y1) => (sendMark v1 y1 (y1.next - 1)).isSome | none => false)
         | none => false)
      | none => false) = true) ∧
    (let x := sfiring 2 3 [scalar 0]
     let s := issued0 (descriptor 3 0 256) x
     (getSQueue s 0 0).issued = some x ∧
     (match armed s 0 0 with | some t => t.isRing && !t.retain && decide (x.next < t.count) && (takeRing s x t).isSome | none => false) = true) ∧
    (let x := sfiring 2 3 [scalar 0]
     let s := issued0 (descriptor 3 1 256) x
     (getSQueue s 0 0).issued = some x ∧
     (match armed s 0 0 with | some t => t.isRing && t.retain && decide (x.next < t.count) && (takeRetained s x t).isSome | none => false) = true) := by
  decide +kernel

/-- Where a SARM's descriptor lies, as the statement reads it. -/
def armsAt (s : State) (x : SFiring) (p : List (Nat × Nat) → Bool) : Bool :=
  match sideParts s x.firing.region 0 (.addr (portValue x.firing 0)) 128 false with | .parts ps _ => p ps | _ => false

theorem witness_StencilSlotsAndLines :
    (let s := stencils (descriptor 0 0 8192) SQueue.empty
     let ok (s : State) (x : SFiring) : Bool := armsAt s x fun ps => match performSarm s x ps with | .ok _ => true | .error _ => false
     ok s (sfiring 1 0 [scalar 4096]) = true ∧ (sfiring 1 0 [scalar 4096]).failNext = none ∧
     armsAt s (sfiring 1 0 [scalar 4104]) (fun _ => true) = true ∧ ok s (sfiring 1 0 [scalar 4104]) = false ∧
     Tab.wf Sten.empty (getCluster s 0).sten = true) ∧
    (let x := sfiring 1 0 [scalar 0x200000]
     let s := issued0 (descriptor 0 0 8192) x
     (match sideParts s 0 0 (.addr 0x200000) 128 false with
      | .miss a p k => (holdElem s x 0 a p k).isSome
      | _ => false) = true ∧ portValue x.firing 0 % 128 = 0) := by
  decide +kernel

/-! ### Ports and banks -/

/-- A word of an engine: class, OPC, FMT code, IMM and a valid DST0. -/
def engineWord (cls opc fmt imm : Nat) : Word128 :=
  BitVec.ofNat 128 (cls * 2 ^ 125 + opc * 2 ^ 117 + fmt * 2 ^ 112 + imm * 2 ^ 64 + 0x80000040)

def job (opc fmt imm : Nat) (toks : List Tok) (es : List Elem) : Job :=
  { no := 0, firing := { Firing.none with tag := tag0, toks := toks, word := engineWord 4 opc fmt imm }, tag := tag0,
    started := false, elems := es, got := [], fail := none, count := 0, bytes := 0, held := none, handshake := false,
    ranges := none }

def readElem (a : Int) (n : Nat) : Elem := { ix := 0, addr := a, size := n, write := none, poison := false }
def writeElem (a : Int) (bs : List Byte) : Elem := { ix := 0, addr := a, size := bs.length, write := some bs, poison := false }

/-- The port 0 of the small machine changed. -/
def ported (f : Port → Port) : State := modPort (mapped0 []) 0 f

theorem witness_PortOperatorsAndTickets :
    (let s := fires base [scalar 0, scalar 1, tile .i64 1 1 8, tile .n8 1 1 9]
     Performs s .keep ∧ namedPort (s.coloured .keep) s.firing (op2 .i64 0) = some 0) ∧
    (let s := fires base [scalar 0, tile .i32 1 4 8, tile .i64 1 4 9, scalar 0]
     let u := s.coloured .keep
     checkTile u 0 (tokAt s.firing 1).payload (some [indexFmt (op2 .i64 0)]) = none ∧
     checkTile u 0 (tokAt s.firing 2).payload (some [.i64]) = none ∧
     shapeFits .i64 (handleOf (tokAt s.firing 1).payload).rows (handleOf (tokAt s.firing 1).payload).epr = true ∧
     (handleOf (tokAt s.firing 1).payload).rows = (handleOf (tokAt s.firing 2).payload).rows ∧
     (handleOf (tokAt s.firing 1).payload).epr = (handleOf (tokAt s.firing 2).payload).epr ∧
     (readTile u 0 (tokAt s.firing 1).payload).2.2 = false) ∧
    (let s := fires (bytesAt (spAddr 0 (128 * 9)) [0x44, 0x44] base) [scalar 0, scalar 8, tile .n8 2 8 8, tile .n8 2 2 9]
     let u := s.coloured .keep
     checkTile u 0 (tokAt s.firing 2).payload (some [.n8]) = none ∧ checkTile u 0 (tokAt s.firing 3).payload (some [.n8]) = none ∧
     (handleOf (tokAt s.firing 3).payload).rows = (handleOf (tokAt s.firing 2).payload).rows ∧
     (handleOf (tokAt s.firing 2).payload).epr % 4 = 0 ∧
     (handleOf (tokAt s.firing 3).payload).epr = (handleOf (tokAt s.firing 2).payload).epr / 4) ∧
    (let w := ticketWord 0 false 0 0 1 0 0
     let s := ported fun q => { setGen q 0 (some { job 0 3 0 [] [readElem 0x200000 8] with held := some (0x200000, 0, 1, false) }) with
       seqs := Tab.set 0 q.seqs 0 1 }
     (livePort s w).isSome = true ∧ (livePort base w).isSome = false ∧ (liveHawk base w).isSome = false ∧ (liveCopy base w).isSome = false) ∧
    (0x1#64).getLsbD 0 = true ∧ (0x1#64).getLsbD 1 = false ∧ (0x1#64).extractLsb' 14 2 ≠ 3 ∧
    (0xC001#64).extractLsb' 14 2 = 3 ∧ (0x4#64).getLsbD 0 = false := by
  refine ⟨⟨performs_fires _ _ _ ?_ ?_, ?_⟩, ?_⟩ <;> decide +kernel

theorem witness_PortOperatorsAndTickets_sparse :
    (let s := fires (bytesAt (spAddr 0 (128 * 9)) [0x44, 0x44] base) [scalar 0, scalar 8, tile .n8 1 8 8, tile .n8 1 2 9]
     badMeta 4 2 true 8 (readTile (s.coloured .keep) 0 (tokAt s.firing 3).payload).2.1.elems) = none := by decide +kernel

theorem witness_PortsPerformTheirFirings :
    (let j := job 0 3 0 [scalar 0] [readElem 0 8]
     let s := ported fun q => { q with incoming := [j] }
     (getPort s 0).queue.length < 64 ∧ (getPort s 0).en = true ∧ (getPort s 0).owner.toNat = j.firing.region ∧
     jobOpc j ≠ 0x0A ∧ jobOpc (job 0x0A 0 0 [] []) = 0x0A ∧ (getPort base 0).en = false ∧ 64 ≤ (List.replicate 64 j).length) ∧
    (let j := job 0 3 0 [scalar 0] [readElem 0 8]
     let s := ported fun q => { q with queue := [j] }
     nextStart s (getPort s 0) 0 [j] = some (0, .generator) ∧ freeGen (getPort s 0) = some 0) ∧
    (let j := job 6 3 0x0100 [scalar 0] [readElem 0 8]
     let s := ported fun q => { q with queue := [j], mode := 2 }
     isWave j = true ∧ performable (getPort s 0) j = false ∧ nextStart s (getPort s 0) 0 [j] = some (0, .wave)) ∧
    (let j := job 0x0B 0 1 [scalar 0] []
     let s := ported fun q => { q with queue := [j] }
     nextStart s (getPort s 0) 0 [j] = some (0, .mode)) ∧
    (let j := job 6 3 0 [scalar 0] [readElem 0 8]
     let s := ported fun q => { q with waiting := [j], mode := 2 }
     (getPort s 0).waiting[0]? = some j ∧ freeGen (getPort s 0) = some 0 ∧ performable (getPort s 0) j = true ∧
     isStopped s j.firing.region = false) := by decide +kernel

def didRead : Did → Bool | .read _ _ _ => true | _ => false
def didWrote : Did → Bool | .wrote _ => true | _ => false
def didFail : Did → Bool | .fail _ _ => true | _ => false
def didMiss (s : State) : Did → Bool | .miss b k => (raiseMiss s (ticketWord 0 false 0 0 1 k 0) b).isSome | _ => false

theorem witness_PortsPerformTheirFirings_elements :
    (let j := job 0 3 0 [scalar 0] [readElem 0 8]
     let s := ported fun q => setGen q 0 (some j)
     genJob (getPort s 0) 0 = some j ∧ isWave j = false ∧
     didRead (performElem s 0 (getPort s 0).xlate 0 false false (readElem 0 8)) = true ∧
     didWrote (performElem s 0 (getPort s 0).xlate 0 true false (writeElem 0 [1, 2])) = true ∧
     didFail (performElem s 0 (getPort s 0).xlate 0 false false (readElem (-1) 8)) = true) ∧
    (let s := ported id
     didMiss s (performElem s 0 (getPort s 0).xlate 0 false false (readElem 0x200000 8)) = true) ∧
    (job 1 3 0x4000000 [scalar 0] [writeElem 0 [1]]).handshake = false ∧ (jobOp (job 1 3 0x4000000 [] [])).imm.getLsbD 26 = true ∧
    (job 0 3 0 [] []).elems = [] ∧ (jobOp (job 0 3 0 [] [])).ord = false ∧ (jobOp (job 0 3 0x2000000 [] [])).imm.getLsbD 25 = true ∧
    (let s := ported fun q => { q with mode := 1, range := some (0, 4096) }
     let v := max (getPort s 0).demand (getPort s 0).aheadTo / 32 * 32
     v + 32 ≤ 4096 ∧ v < (getPort s 0).demand + 65536 ∧
     (match translate s (getPort s 0).xlate (getPort s 0).asid v 32 false with | .parts [(_, 32)] => true | _ => false) = true) ∧
    (getPort base 0).range = none := by decide +kernel

/-- A bank address of die 0 in the region's window. -/
def bankV (off : Nat) : Word := BitVec.ofNat 64 (bankWindow + off)

def bankReq (opc fmt imm : Nat) (toks : List Tok) (es : List Elem) : BankReq :=
  { no := 0, home := none, firing := { Firing.none with tag := tag0, toks := toks, word := engineWord 5 opc fmt imm },
    tag := tag0, src := 0, nacks := 0, elems := es, got := [], fail := none, count := 0, bytes := 0, flags := 0, trapElem := none }

theorem witness_BankOperatorsRequestTheirElements :
    (let s := fires base [scalar (bankV 0), scalar 1, scalar 2]
     (Performs s .keep ∧ (handshake (s.coloured .keep) 0 tag0).isSome = true ∧ 3 ≤ s.firing.toks.length)) ∧
    (let s := fires base [scalar (bankV 0), tile .i64 1 2 8]
     checkTile (s.coloured .keep) 0 (tokAt s.firing 1).payload (some [.i64]) = none ∧
     (readTile (s.coloured .keep) 0 (tokAt s.firing 1).payload).2.2 = false) ∧
    (let s := fires (setRegion base 0 { region0 with ctxs := [] }) []
     (handshake s 0 tag0).isNone = true) := by
  refine ⟨⟨performs_fires _ _ _ ?_ ?_, ?_⟩, ?_⟩ <;> decide +kernel

theorem witness_BanksPerformTheirRequests :
    (let q := bankReq 2 4 0 [scalar (bankV 0), scalar 1] [readElem (bankV 0).toNat 8]
     let s := setBank base 0 { getBank base 0 with input := [q] }
     nextRequest s 0 = some 0 ∧ locate s region0 (bankV 0).toNat 8 = .bank (bankAddr 0 0) ∧
     bankAddr 0 0 % bankWordSize .i64 = 0 ∧ locate s region0 (bankV 4).toNat 8 = .bank (bankAddr 0 4) ∧
     bankAddr 0 4 % bankWordSize .i64 ≠ 0 ∧
     (reqOp q).fmt = .i64 ∧ wordMode s (bankAddr 0 0) = .plain ∧ (readMem s (bankAddr 0 0) 8).2.2 = false ∧
     (match plainElem s (bankAddr 0 0) 8 with | .ok (u, _) => decide (u.banks = s.banks) | .error _ => false) = true) ∧
    (let s := setChk base (bankAddr 0 0) (poisonMark .bank)
     (readMem s (bankAddr 0 0) 8).2.2 = true) ∧
    wordMode (setWordMode base (bankAddr 0 0) .header) (bankAddr 0 0) ≠ .plain ∧
    (let e : Combine := { addr := bankAddr 0 0, fn := 1, fmt := .i64, rnd := .rne, value := 1, parts := [], opened := 0 }
     e.parts.length < 16 ∧ (0 : Nat) < e.opened + 64 ∧ 16 ≤ ({ e with parts := List.replicate 16 (bankReq 4 4 0 [] []) }).parts.length) := by
  decide +kernel

theorem witness_BankWordsParkAndServe :
    (let a := bankAddr 0 0
     let full := setWordMode base a (.future true)
     let empty := setWordMode base a (.future false)
     a % bankWordSize .i64 = 0 ∧ (reqOp (bankReq 8 4 0 [] [])).imm.getLsbD 21 = false ∧ wordMode full a = .future true ∧
     wordMode empty a = .future false ∧ wordMode base a = .plain ∧ (bankWhole full a).2.2 = false ∧
     wordMode (bankWhole full a).1 a = .future true ∧ wordMode (bankWhole empty a).1 a = .future false) ∧
    (let a := bankAddr 0 0
     wordIndex a + 4095 ≤ 65535 ∧ 65535 < wordIndex (bankWordAddr 0 65535) + 1 ∧
     ((a :: (List.range 4).map (slotAddr a)).all fun w => match wordMode base w with | .future _ => false | _ => true) = true) ∧
    (let a := bankAddr 0 0
     let header (n : Nat) := setWordMode (putWhole base a (QHead.word { cap := 2, head := 0, count := n }) false) a .header
     let f : Firing := { Firing.none with tag := tag0 }
     let w (k : WKind) : Waiter := Waiter.mk a 0 0 0 k f tag0 7 1 false false true 0 false
     let hd (s : State) := (qheadOf (bankWhole s a).2.1)
     wordMode (bankWhole (header 0) a).1 a = .header ∧ (bankWhole (header 1) a).2.2 = false ∧
     firstWaiter (header 0) a .popper = none ∧ (hd (header 1)).count < (hd (header 1)).cap ∧ (hd (header 2)).cap ≤ (hd (header 2)).count ∧
     0 < (hd (header 1)).count ∧ (hd (header 0)).count = 0 ∧
     (firstWaiter { header 0 with waiters := [w .popper] } a .popper).isSome = true ∧
     (waitersOf { base with waiters := [w .wait] } a).length = 1 ∧
     waiterDue base { w .wait with waited := 100000000 } = true ∧ waiterDue base (w .wait) = false) ∧
    ((0 : Nat) = 0 % 2 ^ 64 ∧ (reqOp (bankReq 0x10 4 0x100000 [] [])).imm.getLsbD 20 = true) ∧
    (let r := bankReq 8 4 0 [] []
     (0 : Nat) ≤ base.htime ∧ base.htime < 1 ∧ isStopped base r.firing.region = false) := by decide +kernel

theorem witness_BankRoutinesRunWhole :
    (let a := bankAddr 0 0
     let rt := bankAddr 0 (2 ^ 15)
     let q := bankReq 0x12 4 0 [scalar (bankV 0), scalar (bankV (2 ^ 15)), scalar 5] [readElem (bankV 0).toNat 8]
     let s := setBank base 0 { getBank base 0 with input := [q] }
     (match routineAddr s q a with | .ok x => x == rt | .error _ => false) = true ∧
     ((getBank (fetchRoutine s 0 rt) 0).routines.find? fun e => e.1 == rt).isSome = true ∧
     ((getBank s 0).input.any (fun r => reqOpc r == 0x12 && (match r.elems with
        | e :: _ => (match locate s (getRegion s r.firing.region) e.addr e.size with
          | .bank x => (match routineAddr s r x with | .ok y => y == rt | .error _ => false)
          | _ => false)
        | [] => false)) = true) ∧
     (match microLoad (fetchRoutine s 0 rt) a { g := #v[5, 0, 0, 0], stored := [], read := [] } 0 with
      | .ok v => (match runMicro (fetchRoutine s 0 rt) a (((getBank (fetchRoutine s 0 rt) 0).routines.head?.map Prod.snd).getD []) 16 0
          { g := #v[5, v, 0, 0], stored := [], read := [] } with | (_, .ok _) => true | _ => false)
      | .error _ => false) = true ∧
     (match runMicro s a [(0xF800000000000000, 0)] 16 0 { g := #v[5, 0, 0, 0], stored := [], read := [] } with | (_, .error _) => true | _ => false) = true) := by
  decide +kernel

/-! ### Plumb -/

def crew0 : Crew := { Crew.reset with used := true, members := [{ index := 0, tag := tag0, key := 0, owed := [] }] }

/-- The small machine with crew 0, as a function changes it. -/
def crewed (g : Crew → Crew) : State := setCrew base 0 (g crew0)

def plumbing (s : State) (p : Plumb → Plumb) : State := { s with plumb := p s.plumb }

/-- A class-6 firing of the small machine. -/
def pfiring (opc fmt imm : Nat) (toks : List Tok) : Firing :=
  { Firing.none with tag := tag0, toks := toks, word := engineWord 6 opc fmt imm }

def up (a : Ask) (f : Firing) : Up := { crew := 0, at_ := 0, entry := 0, firing := f, ask := a, held := false, data := none, gone := false }

/-- A state after its instant, with the clock at t. -/
def at_ (t : Nat) (s : State) : State := { s with htime := t }

theorem witness_CrewsAndRoots :
    ((let s := fires (crewed id) [scalar 0, scalar 5]
      let u := s.coloured .keep
      Performs s .keep ∧ (s.firing.toks.all fun x => !x.flag.poison && isScalar x) = true ∧ crewPort u s.firing = some 0 ∧
      heldAt u false 0 < 4096 ∧ (handshake u 0 tag0).isSome = true ∧ s.firing.toks.length = 2)) ∧
    (let s := fires base [scalar 0, scalar 5]
     crewPort (s.coloured .keep) s.firing = none ∧ (0x200000000#37).getLsbD 33 = true ∧ (0#64).toNat ≤ 65536 ∧ 65536 < (65537#64).toNat) ∧
    (let s := fires (crewed id) [scalar 0, tok .tile (newHandle .f32 2 4 0 0 0 0).word]
     let (rows, epr) := tredShape s.firing
     shapeFits .f32 rows epr = true ∧ rows * pitchFor .f32 epr ≤ 32) ∧
    (let s := fires (crewed id) [scalar 0, tile .f32 2 4 8]
     checkTile (s.coloured .keep) 0 (tokAt s.firing 1).payload none = none) ∧
    (let f := pfiring 4 4 0 [scalar 0, scalar 5]
     let s := plumbing (crewed id) fun p => { p with lookups := [f] }
     s.plumb.lookups[0]? = some f ∧ isStopped s f.region = false ∧ crewPort s f = some 0 ∧ crewPort base f = none ∧ (memberOf crew0 f.tag).isSome = true ∧
     isPut (pfiring 0 4 0 []) = false ∧ isStopped (setRegion base 0 { region0 with stopped := true }) f.region = true) ∧
    (let u := up .join (pfiring 7 0 0 [scalar 0])
     let s := plumbing (crewed id) fun p => { p with ups := [u] }
     nextUp s = some 0 ∧ upValid (plumbing s fun p => { p with ups := [] }) u = true ∧
     ((List.range 256).find? fun n => !(getCrew s n).used) = some 1 ∧ lowestIndex { crew0 with members := [] } = some 0 ∧
     recordsAt s 0 1 < 1024 ∧ memberOf { crew0 with members := [] } tag0 = none) ∧
    (takeSend (crewed id) (up .send (pfiring 1 0 1 [scalar 0, scalar 5])) 0).isSome = true ∧
    (takeArrive (crewed id) (up (.arrive 0) (pfiring 0 0 0 [scalar 0])) 0 0).isSome = true ∧
    (takeArrive (crewed fun c => { c with quorum := 2 }) (up (.arrive 0) (pfiring 0 0 0 [scalar 0])) 0 0).isNone = true := by
  refine ⟨⟨performs_fires _ _ _ ?_ ?_, ?_⟩, ?_⟩ <;> decide +kernel

theorem witness_CrewsAndRoots_free :
    (fires (setRegion base 0 { region0 with ctxs := [] }) [scalar 0, scalar 5]).firing.tag = tag0 ∧
    (handshake (setRegion base 0 { region0 with ctxs := [] }) 0 tag0).isNone = true := by decide +kernel

/-- A round of crew 0. -/
def round0 (k : RoundKind) : Round := { freshRound crew0 k 0 with fmt := .i64 }

theorem witness_RoundsReduceAndRelease :
    (let u := up (.arrive 0) (pfiring 0 0 0 [scalar 0])
     absorbs crew0 0 (fun r => r.kind == arrivalKind u.firing) = none ∧ crew0.open_ = none ∧ crew0.quorate = true ∧
     0 ∈ crew0.members.map Member.index ∧
     (let c := { crew0 with open_ := some (round0 .barrier) }
      absorbs c 0 (fun r => r.kind == arrivalKind u.firing) = none ∧ (round0 .barrier).kind = arrivalKind u.firing ∧
      0 ∈ (round0 .barrier).set ∧ 0 ∉ (round0 .barrier).arrived)) ∧
    (let r := { round0 .barrier with arrived := [0] }
     (∀ m ∈ r.set, m ∈ r.arrived ∨ m ∈ r.gone) ∧ (∃ m ∈ (round0 .barrier).set, m ∉ (round0 .barrier).arrived ∧ m ∉ (round0 .barrier).gone)) ∧
    (let r := { round0 .barrier with arrived := [0], releaseAt := some 48, waits := [Waits.mk (pfiring 0 0 0 [scalar 0]) (some 0) false] }
     let s := at_ 48 (crewed fun c => { c with rounds := [r] })
     (getCrew s 0).rounds = [r] ∧ 48 ≤ s.htime ∧ r.awaits = false ∧ isStopped s crew0.region = false ∧ base.htime < 48) ∧
    (let s := plumbing (crewed id) fun p => { p with downs := [{ at_ := 0, what := .notice 0 0 }] }
     s.plumb.downs.findIdx? (fun d => d.what == .notice 0 0 && decide (d.at_ ≤ s.htime)) = some 0) ∧
    (let r := { round0 .reduction with deadline := 9 }
     let s := crewed fun c => { c with open_ := some r }
     r.isReduction = true ∧ r.no = 0 ∧ dueUps s = [] ∧ s.htime < r.deadline ∧ r.deadline ≤ (at_ 9 s).htime) ∧
    (let r := { round0 .reduction with evaluated := true, finalAt := some 9 }
     let u := up (.put 0 0) (pfiring 4 4 0 [scalar 0, scalar 5])
     let s := plumbing (crewed fun c => { c with rounds := [r] }) fun p => { p with ups := [u] }
     (getCrew s 0).round 0 = some r ∧ r.retired = false ∧ s.htime < 9 ∧ 9 ≤ (at_ 9 s).htime ∧
     u.at_ ≤ s.htime ∧ upLate s u = true ∧ nextUp s = some 0 ∧ putError r u.firing = none ∧ (storeLeaf base u r 0).isSome = true) ∧
    (let p : RPacket := { member := 0, value := 1, poison := false }
     let s (w : Down) := plumbing base fun p => { p with downs := [{ at_ := 0, what := w }] }
     (s (.packet 0 0 0 p)).plumb.downs[0]? = some { at_ := 0, what := .packet 0 0 0 p } ∧ p.member ≠ 0xFFFFFFFF ∧
     (s (.error Firing.none 1)).plumb.downs[0]? = some { at_ := 0, what := .error Firing.none 1 } ∧ (0 : Nat) ≤ base.htime ∧ base.htime < 1) := by
  decide +kernel

/-- Four leaves of a round whose set has four members. -/
theorem witness_ReductionTreesCombineInOrder :
    (let l (m : Nat) : Leaf := { member := m, value := 1, poison := false, onTime := true }
     let r := { round0 .reduction with width := 4 }
     (l 0).member = 0 ∧ (l 1).member = 1 ∧ (l 2).member = 2 ∧ (l 3).member = 3 ∧ r.width = 4) := by decide

theorem witness_MonitorsReportTheirRegion :
    ((let s := fires (crewed id) [scalar 0, scalar 0]
      let u := s.coloured .keep
      Performs s .keep ∧ (s.firing.toks.all fun x => isScalar x && !x.flag.poison) = true ∧ 1 ≤ s.firing.toks.length ∧
      (serveCorr u s.firing).isSome = true ∧ (getCluster u 0).ptimes.length < 16 ∧ (0#64).toNat ≤ u.htime ∧ u.htime < (1#64).toNat)) ∧
    (let r := { round0 .reduction with evaluated := true }
     let f := pfiring 9 4 0 [scalar 0, scalar 0]
     (serveCorr (crewed fun c => { c with rounds := [r] }) f).isNone = true) ∧
    (let s := setCluster base 0 { cluster0 with ptimes := [(Firing.none, 5)] }
     (getCluster s 0).ptimes[0]? = some (Firing.none, 5) ∧ s.htime < 5 ∧ 5 ≤ (at_ 5 s).htime ∧ isStopped s 0 = false) ∧
    (let r := { region0 with snapBase := 1, snapLen := 1 }
     let s := setRegion base 0 r
     (1#64).toNat ≠ 0 ∧ (1#64).toNat < 2 ^ 32 ∧ r.snapBase ≠ 0 ∧ r.snapLen ≠ 0 ∧ (handshake s 0 tag0).isSome = true ∧ s.plumb.psigs = [] ∧
     r.snapshot = none ∧ r.signals = [] ∧ ({ r with signals := [(0, .marker Firing.none)] }.signals.any fun g => isMarker g.2) = true) ∧
    (let s := at_ 24 base
     region0.reports = [] ∧ region0.state = .loaded ∧ region0.stopped = false ∧ region0.member = false ∧ region0.span = [] ∧
     signalDelay region0 / 2 = 24 ∧ s.htime < 24 + 24 ∧
     (let r := { region0 with reports := [(0, Reports.none)] }
      let v := setRegion s 0 r
      (∀ x ∈ r.reports, x.1 ≠ v.htime) ∧ r.reports ++ [(24, regionReport v 0)] = (0, Reports.none) :: [(24, regionReport v 0)] ∧
      0 + 24 ≤ v.htime) ∧
     (∃ x ∈ [(24, Reports.none)], x.1 = s.htime)) ∧
    (let f := pfiring 10 0 1 [scalar 0]
     let s := plumbing (at_ 24 (setRegion base 0 { region0 with census := 2 })) fun p => { p with quiets := [(f, 0)] }
     s.plumb.quiets = [(f, 0)] ∧ f.region = 0 ∧ quietWaits f = true ∧ (getRegion s 0).censusAt + 24 = s.htime ∧ (getRegion s 0).census ≠ 0 ∧
     0 ≤ (getRegion s 0).censusAt ∧ region0.census = 0 ∧
     quietWaits (pfiring 10 0 0 [scalar 0]) = false) := by
  refine ⟨⟨performs_fires _ _ _ ?_ ?_, ?_⟩, ?_⟩ <;> decide +kernel

theorem witness_MonitorsReportTheirRegion_events :
    (let r := { region0 with signals := [(0, .marker Firing.none)] }
     r.signals = (0, .marker Firing.none) :: [] ∧ 0 ≤ base.htime ∧ isStopped (setRegion base 0 r) 0 = false) ∧
    isStopped (setRegion base 0 { region0 with stopped := true }) 0 = true ∧
    (let p : Snapshot := { group := 0, epoch := 1, start := 0, due := 5, firing := Firing.none, used := 0, records := 0, overflow := false, saving := [], done := [] }
     let s (p : Snapshot) := setRegion base 0 { region0 with snapshot := some p }
     snapshotDone (s p) 0 = true ∧ snapshotDone (s { p with saving := [(0, 0, 0)] }) 0 = false ∧ p.due ≤ (at_ 5 base).htime ∧ base.htime < p.due) ∧
    (let r := { region0 with census := 2, parkTicks := 65536, dlCtl := true, wdEn := true, wdWin := 4 }
     let s := at_ 24 (setRegion base 0 r)
     deadlockDue base 0 = false ∧ deadlockDue s 0 = true ∧ r.dlCtl = true ∧ r.census = 2 ∧ 65536 ≤ r.parkTicks.toNat ∧
     r.freezeAt = none ∧ r.censusAt + 24 = s.htime ∧ wdogDue base 0 = false ∧ wdogDue s 0 = true ∧ r.wdSeen = false ∧
     r.wdStart + 2 ^ r.wdWin.toNat ≤ s.htime) := by decide +kernel

/-! ### Links -/

/-- A target word of package d. -/
def targetTo (d : BitVec 21) : Word := d.setWidth 64 <<< 32

theorem targetTo_pkg (d : BitVec 21) : targetPkg (targetTo d) = d := by
  apply BitVec.eq_of_toNat_eq
  have := d.isLt
  simp only [targetPkg, targetTo, BitVec.extractLsb'_toNat, BitVec.toNat_shiftLeft, BitVec.toNat_setWidth, Nat.shiftLeft_eq,
    Nat.shiftRight_eq_div_pow]
  omega

theorem targetTo_peer (d : BitVec 21) : targetPeer (targetTo d) = false := by simp [targetPeer, targetTo]

/-- This package's own target is in the system and in its domain. -/
theorem targetTo_own (s : State) : targetOk s (targetTo Config.dest) = true ∧ isForeign (targetTo Config.dest) = false := by
  simp [targetOk, isForeign, isLocal, targetTo_peer, targetTo_pkg]

/-- A valid connection entry 0, of receive queue 0. -/
def connected (s : State) : State := { s with link := { s.link with conns := [(0, List.replicate 30 0 ++ [0x80] ++ List.replicate 33 0)] } }

/-- The target of connection 0. -/
def peerTarget : Word := 0x20000000000000

theorem witness_LinkOperatorsIssueTheirRequests :
    ((let s := fires base [scalar 0, scalar (targetTo Config.dest), scalar 7, scalar 8]
      Performs s .keep ∧ (s.firing.toks.all fun x => isScalar x && !x.flag.poison) = true ∧
      (handshake (s.coloured .keep) 0 tag0).isSome = true)) ∧
    (targetOk base (targetTo Config.dest) = true ∧ isForeign (targetTo Config.dest) = false ∧ targetPeer (targetTo Config.dest) = false) ∧
    (targetOk (connected base) peerTarget = true ∧ targetOk base peerTarget = false ∧ 0 + 8 ≤ 2 ^ 64 ∧ 0 < rowBytes .i64 1 ∧
     0 + 128 * rowBytes .i64 128 ≤ 2 ^ 64 ∧ 0 % bankWordSize .i64 = 0 ∧
     (getRecvQueue base 0).owner.toNat = 0 ∧
     (getRecvQueue { base with link := { base.link with queues := [(0, { RecvQueue.reset with owner := 1 })] } } 0).owner.toNat ≠ 0) := by
  refine ⟨⟨performs_fires _ _ _ ?_ ?_, ?_⟩, ⟨(targetTo_own _).1, (targetTo_own base).2, targetTo_peer _⟩, ?_⟩
  · rfl
  · rfl
  · decide +kernel
  · decide +kernel

/-- A key entry: base 0, its length, KIND 0 at physical address 0, tag and rights, V. -/
def keyEntry0 (len tagRights : Nat) (v : Byte) : List Byte :=
  leBytes 8 0 ++ leBytes 8 len ++ leBytes 8 0 ++ leBytes 4 tagRights ++ [v, 0, 0, 0]

def keyed (e : List Byte) : State := { base with link := { base.link with keys := [(0, e)] } }

def access0 (w : RemoteKind) : RemoteAccess := { src := 0, peer := true, key := 0, addr := 0, what := w, answer := 0 }

/-- A link request of a firing, with one element asked. -/
def request (opc imm : Nat) (w : RemoteKind) : LinkReq :=
  { firing := { Firing.none with tag := tag0, toks := [scalar 0], word := engineWord 7 opc 4 imm }, tag := tag0, target := peerTarget,
    asks := [(0, access0 w)], note := none, msg := none, retryAt := none, got := [], fail := none, bytes := 0, revoked := false,
    nacks := 0, waited := 0, raised := false }

def requested (q : LinkReq) (g : Link → Link) : State :=
  { base with link := g { base.link with reqs := [(0, some q)], answers := [], loop := [] } }

theorem witness_LinkAccessesAreCheckedAndAnswered :
    (let e := keyEntry0 0x1000 0xF0000000 0x80
     e.length = 32 ∧ Tab.get [] (keyed e).link.keys 0 = e ∧ keyField e 28 1 / 128 = 1 ∧ keyField e 8 8 ≠ 0 ∧ keyField e 24 4 % 2 ^ 20 = 0 / 4096 ∧
     (keyField e 24 4).testBit Right.read.bit = true ∧ (keyField e 24 4).testBit Right.write.bit = true ∧ keyField e 16 8 / 2 ^ 62 = 0 ∧
     hbmExists (keyed e) 0 = true ∧ hbmExists (keyed e) (0 + 0x1000 - 1) = true ∧ inSinkArea 0 = false ∧ inSinkArea 0xFFF = false ∧
     kindOf 0 = .hbm ∧ 0 + 0x1000 < 1 + 0x1000) ∧
    keyField (keyEntry0 0x1000 0 0) 28 1 / 128 ≠ 1 ∧ keyField (keyEntry0 0x1000 1 0x80) 24 4 % 2 ^ 20 ≠ 0 ∧
    (keyField (keyEntry0 0x1000 0 0x80) 24 4).testBit Right.read.bit = false ∧
    fromSelf true 0 = false ∧ knownSender (connected base) true 0 = true ∧ reaches (access0 (.read 8 false)) = true ∧
    knownSender base true 0 = false ∧ ordBlocked base 0 = false ∧
    (let q (w : RemoteKind) := request 0 0 w
     getReq (requested (q (.read 8 false)) id) 0 = some (q (.read 8 false)) ∧ (q (.read 8 false)).asks = [(0, access0 (.read 8 false))] ∧
     answerFits (access0 (.write [1] false false)) .ok = true ∧ answerFits (access0 (.read 1 false)) (.data [1] false) = true ∧
     answerFits (access0 (.atom 1 .i64 .rne 0 0)) (.old 1) = true ∧ answerFits (access0 (.read 1 false)) (.err eADDR_RANGE 0) = true ∧
     eADDR_RANGE ≠ eKEY_REVOKED ∧ linkOpc (q .notify).firing = 0 ∧ linkOpc (request 2 0 .notify).firing = 2 ∧
     linkOpc (request 3 0 .notify).firing = 3) := by decide +kernel

theorem witness_LinkAccessesAreCheckedAndAnswered_self : fromSelf false Config.dest = true ∧
    (({ base with link := { base.link with loop := [{ access0 .notify with peer := false, src := Config.dest }] } }).link.loop.findIdx?
      (fun x : RemoteAccess => x.answer == 0)) = some 0 := by
  refine ⟨by simp [fromSelf], rfl⟩

theorem witness_MessagesQueueAndRetry :
    (let m : RemoteSend := { src := 0, peer := true, key := 0, tile := false, fmt := .raw, rows := 1, epr := 1, data := leBytes 8 7, poisoned := false,
                             answer := 0 }
     let s (q : RecvQueue) : State := { connected base with link := { (connected base).link with queues := [(0, q)] } }
     let q : RecvQueue := { RecvQueue.reset with en := true }
     sendQueue (s q) m = .ok 0 ∧ (getRecvQueue base 0).en = false ∧ (getRecvQueue (s q) 0).en = true ∧ m.data.length ≤ 32768 ∧
     q.msgs.length ≤ q.slots.toNat ∧ 32768 < 32768 + m.data.length ∧
     q.slots.toNat < ({ q with msgs := [{ slot := 0, source := 0, tile := false, fmt := .raw, rows := 1, epr := 1, size := 8 }] }).msgs.length ∧
     fromSelf m.peer m.src = false ∧ knownSender (s q) m.peer m.src = true) := by
  refine ⟨rfl, ?_⟩
  decide +kernel

theorem witness_MessagesQueueAndRetry_waits :
    (let q (imm : Nat) := { request 2 imm .notify with retryAt := some 5, target := 0 }
     getReq (requested (q 0) id) 0 = some (q 0) ∧ base.htime < 5 ∧ 5 ≤ (at_ 5 base).htime ∧ isStopped base 0 = false ∧
     reqDue base (q 0x200000) = true ∧ (Machine.opWord (q 0x200000).firing.word).imm.getLsbD 21 = true ∧
     reqDue base (q 0) = true ∧ (Machine.opWord (q 0).firing.word).imm.getLsbD 21 = false ∧ reqDue base (q 0x3E000) = false) ∧
    (let x : Recv := { firing := (request 4 0x200000 .notify).firing, tag := tag0, waited := 0, raised := false }
     limitDue base x.firing x.waited x.raised = true ∧ (Machine.opWord x.firing.word).imm.getLsbD 21 = true) ∧
    (let s := requested (request 0 0 .notify) fun l => { l with eth := [(0, 5)] }
     s.link.eth = [(0, 5)] ∧ (request 0 0 .notify).retryAt = none ∧ s.link.ethUp ≠ 0 ∧ 5 + 10000 ≤ (at_ 10005 s).htime ∧ s.htime < 5 + 10000) := by
  decide +kernel

theorem witness_ScewenPortsKeepSequence :
    base.service.scewenUp.getLsbD 0 = true ∧ ({ base.service with scewenUp := 0 }).scewenUp.getLsbD 0 = false ∧
    (let h (q : BitVec 12) : Word := (q.setWidth 64) <<< 47
     (h 0).extractLsb' 62 2 = 0 ∧ (h 0).extractLsb' 47 12 = (getSPort base 0).lastGood + 1 ∧
     (h 5).extractLsb' 47 12 ≠ (getSPort base 0).lastGood + 1 ∧ ((h 5).extractLsb' 47 12 - (getSPort base 0).lastGood).toNat < 2048) ∧
    256 ≤ (getSPort (setSPort base 0 { SPort.reset with sinceSync := 256 }) 0).sinceSync ∧ (getSPort base 0).sinceSync < 256 ∧
    (getSPort base 2).lanes.getD 16 = 16 ∧ (getSPort (setSPort base 0 { SPort.reset with lanes := some 16 }) 0).lanes.getD 32 = 16 := by
  decide +kernel

/-! ### Hawk events, the control block, the host and the Service Engine -/

/-- A thread of the owner of region 0. -/
def owner0 : Thread := { Thread.reset false with region := region0.handle }

theorem witness_HawkEventsAct :
    (let t := { Thread.reset false with ie := true, pending := [Cause.mk 1 0 0] }
     t.ie = true ∧ t.pending = Cause.mk 1 0 0 :: [] ∧ t.halt = false ∧ t.block = .none ∧ (Cause.mk 1 0 0).record = 0 ∧ (Cause.mk 1 0 64).record ≠ 0) ∧
    (Thread.reset false).timecmp.toNat ≤ (at_ (2 ^ 64) base).htime ∧ base.htime < (Thread.reset false).timecmp.toNat ∧
    (Thread.reset false).ie = false ∧ ({ Thread.reset true with wake := true }).wait = true ∧ (Thread.reset false).wait = false ∧
    graphRegion (setThread base 0 owner0) 0 [.loaded] = some 0 ∧ graphRegion base 0 [.loaded] = none ∧
    region0.sinks = [] ∧ ({ region0 with sinks := [scalar 1] }).sinks = scalar 1 :: [] ∧
    isStopped base 0 = false ∧ (injectNew base 0 0 (entryToken region0 (tokOf (headerBits (scalar 1)) 1))).isSome = true ∧
    (injectNew base 0 0 (entryToken region0 (tokOf 0 1))).isNone = true := by decide +kernel

/-- Queue 5 holds a record; queue 20 holds one that has waited 2^24 ticks. -/
def queued : State :=
  at_ (2 ^ 24) { base with launch := [(5, { LaunchQueue.reset with en := true, mask := 1, tail := 1 }), (20, { LaunchQueue.reset with en := true, mask := 1, tail := 1 })] }

theorem witness_LaunchQueuesLease :
    ((getQueue queued 5).en = true ∧ (getQueue queued 5).head ≠ (getQueue queued 5).tail ∧ (getQueue queued 5).lease = none) ∧
    (getQueue base 5).en = false ∧ (getQueue (setQueue queued 5 { getQueue queued 5 with lease := some 3 }) 5).lease = some 3 ∧
    (let x := getQueue queued 20
     x.en = true ∧ x.head ≠ x.tail ∧ x.raised = false ∧ 16 ≤ 20 ∧ x.since + 2 ^ 24 ≤ queued.htime) ∧
    (getQueue base 63).lease ≠ some 3 := by decide +kernel

/-- Two LOADED regions. -/
def pairs : State := setRegion base 1 { region0 with handle := 0x810000CC00000000 }

/-- The request for one cluster: rows and columns less one are 0. -/
def wholeRegion : Region := { Region.free with state := .granted, handle := 0x8080000004000000, dies := [some 0] }

theorem witness_RegionsAreGrantedAndFreed :
    requestOk 0 = true ∧ (allocate base 0 0).2 ≠ 0 ∧ requestOk (2 ^ 63) = false ∧
    (let r := { region0 with state := .frozen }
     let s := setRegion base 0 r
     bits r.handle 62 56 = 0 ∧ (getRegion s 0).handle = r.handle ∧ r.member = false ∧ r.span = [] ∧ region0.state = .loaded) ∧
    (let r := wholeRegion
     r.state = .granted ∧ r.whole = true ∧ r.member = false ∧ ownDies r ≤ 1 ∧ spanAccepted base 0 1 = false) ∧
    (let s := setRegion (setRegion base 0 wholeRegion) 1 { wholeRegion with handle := 0x8180000008000000, dies := [some 1] }
     bits (0x8100000000000001 : Word) 15 4 = 0 ∧ ((0x8100000000000001 : Word) ≠ 0) ∧ s.regions.length = 2) ∧
    (let v : Word := 0x8001000000000000
     v.getLsbD 63 = true ∧ (getRegion pairs (bits v 62 56)).state = .loaded ∧ (getRegion pairs (bits v 54 48)).state = .loaded ∧
     bits v 62 56 ≠ bits v 54 48 ∧ (getRegion base (bits v 54 48)).state ≠ .loaded) ∧
    (let s := setRegion base 0 { region0 with twin := some (1, true) }
     (0 : Word).getLsbD 63 = false ∧ (getRegion s 0).state = .loaded ∧ (getRegion s 0).twin = some (1, true)) := by decide +kernel

/-- The SPANMAP entry of region 1, region die index 1, of the package numbered n. -/
def spanWord (n : Nat) : Word := BitVec.ofNat 64 (0x8100000000000001 + 16 * n)

theorem spanWord_fields (n : Nat) (h : n < 4096) : bits (spanWord n) 15 4 = n ∧ bits (spanWord n) 62 56 = 1 ∧ bits (spanWord n) 2 0 = 1 ∧
    (spanWord n).getLsbD 63 = true ∧ bits (spanWord n) 55 16 = 0 ∧ (spanWord n).getLsbD 3 = false := by
  have hn : (spanWord n).toNat = 0x8100000000000001 + 16 * n := by simp only [spanWord, BitVec.toNat_ofNat]; omega
  refine ⟨?_, ?_, ?_, ?_, ?_, ?_⟩
  · rw [bits, BitVec.extractLsb'_toNat, hn, Nat.shiftRight_eq_div_pow]; omega
  · rw [bits, BitVec.extractLsb'_toNat, hn, Nat.shiftRight_eq_div_pow]; omega
  · rw [bits, BitVec.extractLsb'_toNat, hn, Nat.shiftRight_eq_div_pow]; omega
  · rw [BitVec.getLsbD, hn, Nat.testBit_eq_decide_div_mod_eq]; simp; omega
  · rw [bits, BitVec.extractLsb'_toNat, hn, Nat.shiftRight_eq_div_pow]; omega
  · rw [BitVec.getLsbD, hn, Nat.testBit_eq_decide_div_mod_eq]; simp; omega

/-- An entry that names another whole-die region of this package is accepted, whatever this package's number is. -/
theorem witness_RegionsAreGrantedAndFreed_span :
    spanAccepted (setRegion (setRegion base 0 wholeRegion) 1 { wholeRegion with handle := 0x8180000008000000, dies := [some 1] }) 0
      (spanWord ownPackage) = true := by
  have h := spanWord_fields ownPackage (Nat.mod_lt _ (by decide))
  simp only [spanAccepted, h, if_true]
  rfl

theorem witness_UnitRegistersAct :
    isPri base = false ∧ (¬ (2 ^ base.link.ringsz.toNat ≤ (base.link.d2htail - base.link.d2hhead).toNat)) ∧
    2 ^ base.link.ringsz.toNat ≤ ((256 : BitVec 32) - base.link.d2hhead).toNat ∧
    (getThread (setThread base 0 { owner0 with block := .msggo }) 0).block = .msggo ∧ msginValid base = false ∧
    msginValid { base with link := { base.link with msgin := base.link.msgin.set 1 0x80 } } = true ∧
    base.link.h2dtail = base.link.h2dhead ∧ ({ base.link with h2dtail := 1 }).h2dtail ≠ base.link.h2dhead ∧
    (keyEntry0 1 1 0x80).length = 32 ∧ islandInUse base 0 = true ∧ (0 : Word).extractLsb' 0 2 ≠ 3 ∧
    (match storePcb base none 0x8000 8 (2 ^ 63) with | .ok _ => true | _ => false) = true ∧
    (match storePcb base none 0x7FFF 1 0 with | .bad => true | _ => false) = true := by decide +kernel

theorem witness_HostAccessesAreAnswered :
    let ready := { base with service := { base.service with ready := true } }
    barHbm base 0 8 = true ∧ barHbm base (2 ^ 40) 8 = false ∧ (readMem base 0 8).2.2 = false ∧
    (readMem (setChk base 0 (poisonMark .hbm)) 0 8).2.2 = true ∧ base.link.hpctl.getLsbD 0 = false ∧
    barBank base 0 8 = true ∧ barBank base (2 ^ 29) 8 = false ∧ (loadBank base (bankBase + 0) 8).isSome = true ∧
    base.service.ready = false ∧ ready.service.ready = true ∧ (loadPcb ready none 0 8).isSome = true ∧ (loadPcb ready none 0x7FFF 1).isNone = true ∧
    (match storePcb ready none 0 8 0 with | .ok _ => true | _ => false) = true ∧
    (match storeBank base (bankBase + 0) [1] false with | .ok _ => true | .error _ => false) = true := by decide +kernel

/-- A bundle that verifies exists when the package's verifier takes its header. -/
theorem witness_ServiceEngineActs_bundle (m : Tab Byte) (h : flashField m 0 4 = 0x5349554E ∧ flashField m 4 2 = 1 ∧ 1 ≤ flashField m 6 2 ∧
    flashField m 6 2 ≤ 8) (hb : sha384 (Mem.read m 320 (flashField m 16 8)) = ((Mem.read m 0 320).drop 152).take 48 ∧
    bundleSigned (Mem.read m 0 320) = true ∧ 0 ≤ flashField m 8 4 ∧ flashField m 8 4 ≤ 64) : (verified m 0).isSome = true := by
  simp [verified, h, hb]

theorem witness_ServiceEngineActs :
    (verified [] 0).isNone = true ∧ noChannel base = false ∧
    noChannel { base with service := { base.service with failedChannels := List.range 64 } } = true ∧
    ({ base.service with ready := true }).ready = true ∧ base.service.ready = false ∧ base.service.bootfail = false ∧
    base.htime < base.service.teltick.toNat + 2 ^ 20 ∧ base.service.teltick.toNat + 2 ^ 20 ≤ (at_ (2 ^ 20) base).htime ∧
    base.service.plim.toNat * 1000 < 6000000 ∧ base.service.plim.toNat * 1000 * 95 ≤ 5000000 * 100 ∧ 4000000 * 100 < base.service.plim.toNat * 1000 * 95 ∧
    base.service.coolPeriods ≠ 7 ∧ base.service.dies.contains 0 = true ∧ base.service.dies.contains 8 = false ∧ base.service.fatal = false ∧
    (let hot : Tab (Option Nat) := [(0, some 0)]
     hot.find? (fun e => e.1 == 0) = some (0, some 0) ∧ 0 + 2 ^ 20 ≤ (at_ (2 ^ 20) base).htime) ∧
    region0.state = .loaded ∧ region0.stopped = false ∧ region0.freezeAt = none ∧ physicalCol base 0 (0 / 16) (0 % 16) = some 0 ∧
    base.service.failedBanks.contains 0 = false ∧ base.service.failedChannels.contains 0 = false ∧ base.link.ethUp.getLsbD 0 = true ∧
    ({ base.link with ethUp := 0 }).ethUp.getLsbD 0 = false := by decide +kernel

/-! ### Tokens, firings, colours and freezes -/

/-- A token for port p of slot 1 of cluster 0, and its arrival. -/
def tokenFor (p : BitVec 2) : Tok := { scalar 5 with dst := dst 0 1 p 0 }
def arrival0 (p : BitVec 2) : Arrival := { region := 0, src := 0, tok := tokenFor p, data := none }

/-- Slot 1 of cluster 0 holds a word of two ports; the cluster as g changes it. -/
def slotted (g : Cluster → Cluster) : State :=
  setCluster base 0 (g { cluster0 with slots := [(1, { Slot.empty with occ := true, word := engineWord 0 5 4 0 + (1 <<< 107) })] })

/-- An entry of slot 1 with a token in port 0. -/
def entry0 (st : Match) : Entry := { region := 0, slot := 1, tag := tag0, cells := [some (tokenFor 0), none, none, none], seq := 0, place := .way 0, st := st }

theorem witness_TokensArriveAndMatch :
    (let p (k : Kind) : Packet := { region := 0, src := 0, dst := 0, tok := { tokenFor 0 with kind := k }, data := none }
     let s (k : Kind) : State := { base with net := [p k, p k] }
     (s .scalar).net[0]? = some (p .scalar) ∧ ((s .scalar).net.take 0).any (fun q => q.src == 0 && q.dst == 0) = false ∧
     (getRegion base 0).state ≠ .free ∧ (getRegion base 1).state = .free ∧ (p .res6).tok.kind = .res6 ∧
     (p .scalar).tok.kind ≠ .res6 ∧ (p .scalar).tok.kind ≠ .res7 ∧ (getRegion base 0).stopped = false ∧
     (s .scalar).net[1]? = some (p .scalar) ∧ 0 < 1) ∧
    (let a := arrival0 0
     let s := slotted fun k => { k with arrivals := [a] }
     isLive (getRegion s 0) a.tok.tag = true ∧ isLive (getRegion s 0) { tag0 with col := 9 } = false ∧ (getSlot s 0 1).rw = false ∧
     a.tok.flag.last = false ∧ savingAt (getRegion s 0) 0 1 = none ∧ matchEntry (getCluster s 0) a = none ∧ newPlace s 0 a = some (.way 0) ∧ a.tok.kind ≠ .marker) ∧
    (let a := arrival0 1
     let s := slotted fun k => { k with arrivals := [a], entries := [entry0 .part] }
     matchEntry (getCluster s 0) a = some 0 ∧ (getSlot (setSlot s 0 1 { getSlot s 0 1 with rw := true }) 0 1).rw = true) ∧
    (let es (p : Nat → Place) (st : Match) : List Entry := (List.range 8).map fun i => { entry0 st with place := p i }
     let a := arrival0 0
     let s := slotted fun k => { k with arrivals := [a], entries := es .way (.lines 2) ++ (List.range 256).map fun i => { entry0 (.lines 2) with place := .over i } }
     matchEntry (getCluster s 0) a = none ∧ newPlace s 0 a = none ∧ s.htime < a.since + 65536 ∧ a.since + 65536 ≤ (at_ 65536 s).htime ∧
     (getRegion s 0).freezeAt = none ∧ isStopped s 0 = false) ∧
    (let a : Arrival := { arrival0 0 with tok := { tile .i64 1 1 8 with dst := dst 0 1 0 0 }, data := some { bytes := [], bad := [] } }
     let s := slotted fun k => { k with arrivals := [a] }
     (allocLines s 0 0 a.tok.tag 1).isSome = true ∧ (allocLines s 0 0 a.tok.tag 128).isNone = true) ∧
    freeWay (getCluster (slotted fun k => { k with entries := [{ entry0 .part with place := .way 0 }] }) 0) (setIndex 1 tag0) = some 1 := by
  decide +kernel

theorem witness_FiringsBecomeReadyAndIssue :
    (let s := slotted fun k => { k with entries := [entry0 (.ready 2 false)] }
     let f := firingOf s 0 (entry0 (.ready 2 false))
     s.service.fatal = false ∧ nextIssue s 0 0 = some 0 ∧ nextIssue s 0 1 = none ∧
     putEntry (getCluster s 0) 0 (entry0 .part) = { getCluster s 0 with entries := [entry0 .part] } ∧
     (let t : Tok := { tokenFor 0 with flag := { Flag.none with keep := true } }
      let e : Entry := { entry0 (.ready 2 false) with cells := [some t, some (tokenFor 1), none, none] }
      (putEntry (getCluster s 0) 0 e).entries =
        [{ e with cells := [some t, none, none, none], st := .part }, { e with place := .bypass }]) ∧
     canIssue s 0 0 (entry0 (.ready 2 false)) = true ∧ canIssue s 0 1 (entry0 (.ready 2 false)) = false ∧
     (getSlot s 0 1).broken = false ∧ foreignTag (getSlot s 0 1) tag0 = false ∧ quadOwners s f = []) ∧
    (let s := slotted fun k => { k with entries := [entry0 (.lines 2)] }
     (lineWaits (getCluster s 0))[0]? = some 0 ∧ (entry0 (.lines 2)).st = .lines 2) ∧
    (let t : Tok := { tokenFor 0 with kind := .tile, payload := (newHandle .i64 1 1 8 1 2 0).word }
     let s := setCluster (slotted id) 1 { cluster0 with entries := [{ entry0 (.lines 2) with cells := [some t, some t, none, none] }],
                                                        slots := [(1, { Slot.empty with occ := true, word := engineWord 0 5 4 0 + (1 <<< 107) })] }
     (lineWaits (getCluster s 1)) = [0]) ∧
    (let f : Firing := { Firing.none with tag := tag0, word := engineWord 1 0 4 0 }
     wordEcl f.word ≠ 2 ∧ (getCluster (slotted fun k => { k with quad := [f] }) 0).quad = f :: []) ∧
    (let x : Slot := { Slot.empty with word := engineWord 0 5 4 0 + (1 <<< 104), ctx := some 2 }
     foreignTag x tag0 = true ∧ foreignTag { x with ctx := some 1 } tag0 = false) := by decide +kernel

theorem witness_ColoursAtTheirHome :
    isLive region0 tag0 = true ∧ isLive region0 { tag0 with col := 9 } = false ∧ (liveColour region0 tag0).isSome = true ∧
    isPending base region0 tag0 = false ∧ isPending (bytesAt (spawnAddr base region0 1 256 + 7) [0x80] base) region0 tag0 = true ∧
    irrevBelow region0 tag0 = false ∧
    irrevBelow { region0 with ctxs := [(1, { Ctx.none with declared := true, window := 4, ptr := 1, live := [{ colour0 with irrev := true }] })] } tag0 = true ∧
    (spawnState base region0 tag0).testBit 6 = false ∧ spawnState base region0 tag0 % 4 ≠ 3 ∧
    (spawnState (bytesAt (spawnAddr base region0 1 256 + 7) [0x40] base) region0 tag0).testBit 6 = true ∧
    spawnState (bytesAt (spawnAddr base region0 1 256 + 7) [0x03] base) region0 tag0 % 4 = 3 ∧ (0 : BitVec 3) ≠ 7 ∧
    (let r := { region0 with signals := [(0, .purge tag0 true)] }
     r.signals = (0, .purge tag0 true) :: [] ∧ r.stopped = false ∧ 0 ≤ base.htime) ∧
    (let r := { region0 with signals := [(0, .fail tag0 1 ePOISON)] }
     r.signals = (0, .fail tag0 1 ePOISON) :: [] ∧ base.htime < 1) ∧
    allocRefused (getCtx region0 1) = false ∧ allocRefused (getCtx region0 2) = true ∧
    (let x : Ctx := { Ctx.none with declared := true, window := 4, ptr := 1, waiting := [{ line := 256, parent := none, rmode := 0 }] }
     let r := { region0 with ctxs := [(1, x)] }
     r.ctxs.find? (fun e => !e.2.waiting.isEmpty && !allocRefused e.2) = some (1, x) ∧ x.live = [] ∧ getCtx r 1 = x ∧ 1 < 256) ∧
    (∀ e ∈ region0.ctxs, e.2.waiting = [] ∨ allocRefused e.2 = true) := by decide +kernel

theorem witness_FabricEventsAct :
    (let h : Hop := { region := 0, die := 0, row := 0, col := 0, count := 0, slot := 1, what := { word := 0, rw := false, ctx := none } }
     let s (h : Hop) : State := { base with hops := [h] }
     (s h).hops[0]? = some h ∧ h.col < 17 ∧ base.service.mapped.contains (0, 0, 0) = false ∧ ({ h with count := 1 }).count ≠ 0 ∧ 17 ≤ ({ h with col := 17 }).col ∧
     ({ base.service with mapped := [(0, 0, 0)] }).mapped.contains (0, 0, 0) = true ∧ (getSlot base 0 1).occ = false ∧ (getSlot base 0 1).rw = false ∧
     (getSlot (slotted id) 0 1).occ = true) ∧
    (let w : Machine.Config := { word := 0, rw := false, ctx := none }
     let s := setSlot (slotted id) 0 1 { getSlot (slotted id) 0 1 with waiting := some w }
     (getSlot s 0 1).waiting = some w ∧ slotDone s 0 1 = false ∧ w.rw = false ∧ (getSlot s 0 1).occ = true ∧ s.htime < (getSlot s 0 1).since + 2 ^ 24 ∧
     (getSlot base 0 1).waiting = none ∧ regionOf s 0 = some 0 ∧ (getSlot s 0 1).blocked = false ∧ (getSlot s 0 1).since + 2 ^ 24 ≤ (at_ (2 ^ 24) s).htime ∧
     slotDone (setSlot s 0 1 { getSlot s 0 1 with last := 0xF }) 0 1 = true ∧ wordRwi w.word = 0 ∧ packetNode 1 w = 1 ∧
     (let v : Machine.Config := { word := 0, rw := true, ctx := none }
      let w := { w with word := 1 }
      let s := setSlot (slotted id) 0 1 { getSlot (slotted id) 0 1 with waiting := some w, last := 0xF }
      let u := setSlot s 0 2 { Slot.empty with waiting := some v }
      wordRwi w.word ≠ 0 ∧ v.rw = true ∧ packetNode 2 v = 1 ∧ (getSlot s 0 1).waiting = some w ∧ (getSlot s 0 (1 + 1)).waiting = none ∧
      (getSlot u 0 (1 + 1)).waiting = some v ∧ slotDone u 0 1 = true ∧ slotDone u 0 (1 + 1) = true ∧
      slotDone (setSlot u 0 2 { Slot.empty with waiting := some v, occ := true }) 0 (1 + 1) = false)) ∧
    (let st : Stream := { firing := { Firing.none with tag := tag0, word := engineWord 0 6 4 1 }, left := 1, next := 7 }
     (streamOp st).xfm ≠ .new ∧ isStopped base st.firing.region = false) ∧
    (let w : Cmpx := { firing := { Firing.none with tag := tag0, toks := [scalar 1] }, key := 3, digest := 4, since := 0 }
     let d : Digest := { region := 0, die := 0, cluster := 0, slot := 0, ctx := 1, key := 3, digest := 4 }
     let s : State := { setCluster base 0 { cluster0 with cmpx := [w] } with digests := [d] }
     digestFor s w = some 0 ∧ s.digests[0]? = some d ∧ d.digest = w.digest ∧ ({ d with digest := 5 }).digest ≠ w.digest ∧ digestFor base w = none ∧
     s.htime < w.since + 2 ^ 20 ∧ w.since + 2 ^ 20 ≤ (at_ (2 ^ 20) s).htime ∧ region0.twin ≠ some (1, true) ∧
     (getRegion (setRegion base 0 { region0 with twin := some (1, true) }) 0).twin = some (1, true)) ∧
    (let a : Arrival := { arrival0 0 with tok := { tokenFor 0 with kind := .marker } }
     a.tok.kind = .marker ∧ ¬ (wordEcl (getSlot (slotted id) 0 1).word = 0 ∧ wordOpc (getSlot (slotted id) 0 1).word = 0x23) ∧
     region0.snapshot.map Snapshot.epoch ≠ some a.tok.payload) ∧
    region0.sinkWait = [] ∧ (let r := { region0 with sinkWait := [scalar 1] }
      r.sinkWait = scalar 1 :: [] ∧ r.sinks.length < 1024 ∧ r.stopped = false) := by decide +kernel

theorem witness_RegionsFreezeAndThaw :
    (let r := { region0 with freezeAt := some 5 }
     r.freezeAt = some 5 ∧ base.htime < 5 ∧ 5 ≤ (at_ 5 base).htime ∧ r.state = .loaded ∧ r.stopped = false ∧ r.thawAt = none) ∧
    (let r := { region0 with stopped := true }
     let s := setRegion base 0 r
     r.freezeAt = none ∧ r.state = .loaded ∧ r.stopped = true ∧ r.thawAt = none ∧ drained s 0 = true ∧ drained { s with issued := [{ Firing.none with tag := tag0 }] } 0 = false ∧
     waitingThreads s 0 = [] ∧ waitingThreads (setThread s 3 { owner0 with block := .freeze 2 }) 0 = [(3, .freeze 2)]) ∧
    (let r := { region0 with thawAt := some 5 }
     r.thawAt = some 5 ∧ region0.thawAt = none) ∧
    region0.span = [] ∧ (let r := { region0 with span := [(1, 1)], freezeAt := some 5 }
      r.span ≠ [] ∧ r.relayed < signalTick r ∧ r.lost = false ∧ ({ r with lost := true }).lost = true) := by decide +kernel

/-! ### Encodings, steps and memory -/

theorem witness_RoundTrips : encodeHawk (.add 2 3 1) = some 0x00430800 ∧ (encodeHawk (.add 2 3 1)).isSome = true ∧
    encode (.add 2 3 1) = some [0x00, 0x08, 0x43, 0x00] ∧ decodeHawk 0x00430800 = .ok (.add 2 3 1) ∧
    (Instr.pass (op1 .raw 0)).wellFormed = true ∧ (encodeOp (.pass (op1 .raw 0))).isSome = true ∧
    encodeOp (.pass (op1 .raw 0)) = some 0x00000000000000000000000080000040 := by
  refine ⟨rfl, rfl, rfl, rfl, ?_, ?_, ?_⟩ <;> decide +kernel

theorem witness_StepsRunTheDecodedInstruction :
    (let s := { hawk (Thread.reset false) with turn := .hawk 0 }
     runnable s.now = true ∧ s.now.mode = true ∧ 0xFF00000000000000 ≤ s.now.pc.toNat ∧ s.now.pc.toNat < 0xFF00000000000000 + 2 ^ 20 ∧
     s.now.pc.toNat % 4 = 0 ∧ cur s / 8 < 8 ∧ Tab.get 0 s.chk (sramOf s s.now.pc / 8 * 8) = 0) ∧
    (let s := { hawk { Thread.reset false with pc := 2 } with turn := .hawk 0 }
     runnable s.now = true ∧ s.now.pc.toNat % 4 ≠ 0) ∧
    State.reset.turn = .hawk 0 := by decide +kernel

theorem witness_StepsRunTheDecodedInstruction_words : decodeHawk 0 = .ok (.add 0 0 0) ∧ decodeHawk 0xFC000000 = .error .opcode ∧
    decodeOp 0x00000000000000000000000080000040 = .ok (.pass (op1 .raw 0)) ∧ decodeOp 0x01800000000000000000000000000000 = .error .opcode :=
  ⟨rfl, rfl, rfl, rfl⟩

theorem witness_EveryStepKeepsTheSchedule : State.reset.scheduled ∧ ∃ t, step State.reset = .next t := by
  refine ⟨⟨by simp [State.reset], fun _ => rfl, ?_⟩, ?_⟩
  · intro th h
    cases h
    decide +kernel
  have h : (match step State.reset with | .next _ => true | _ => false) = true := by decide +kernel
  split at h
  · exact ⟨_, by assumption⟩
  · cases h

theorem witness_MemoryWritesAreReadBack : Memory.wf [(3, 7), (5, 1)] = true ∧ Memory.wf [(5, 1), (3, 7)] = false ∧
    Mem.write [(3, 7), (5, 1)] 4 [2, 0] = [(3, 7), (4, 2)] := by decide +kernel

/-- 04 R140: with the enable of a raised flag the word traps, without it the flag joins HFLAGS. -/
theorem witness_FloatingWords :
    (let t (en : BitVec 5) : Thread := ({ Thread.reset false with en := en }).setD 2 0x7FF0000000000001
     leaves (.fadd 1 2 2 .rne false) (hawk (t 0x1F)) (fun u => (getThread u 0).cause == 0x1C && (getThread u 0).getD 1 == 0) = true ∧
     leaves (.fadd 1 2 2 .rne false) (hawk (t 0)) (fun u => (getThread u 0).cause == 0 && (getThread u 0).flags != 0 && (getThread u 0).getD 1 != 0) = true) := by
  decide +kernel

/-! ### The further clauses of the statements -/

/-- An operator fails: its index is outside, its node number past the copies, its image out of reach; and a match that an
engine passes over. -/
theorem witness_ControlOperators_errors :
    (let s := fires base [scalar 5, scalar 9]
     (destinations s s.firing (opR 1 0)).length ≤ (tokAt s.firing 1).payload.toNat ∧
     ((tokAt s.firing 1).payload ≠ 0) ≠ ((opR 1 0).imm.getLsbD 3 = true) ∧ ¬ ((tokAt s.firing 1).payload ≠ 0) ≠ ((opR 1 8).imm.getLsbD 3 = true) ∧
     (opR 1 0).dst1.valid = true ∧ (op2 .raw 0).dst1.valid = false ∧ isTagx (engineWord 0 11 6 0) = true ∧ isTagx s.firing.word = false ∧
     ¬ ((if (op2 .raw 0x40000).imm.getLsbD 18 then (9 : Nat) else 9 % 1) < ((op2 .raw 0x40000).imm.extractLsb' 0 9).toNat + 1)) ∧
    (let s := fires base [scalar 5]
     dataError s s.firing (op1 .raw 0) (tokAt s.firing 0) = none) ∧
    (∀ t ∈ (fires base [scalar 1]).firing.toks, t.kind ≠ .error ∧ dataError base (fires base [scalar 1]).firing (op1 .raw 0) t = none) ∧
    (let f : Firing := { Firing.none with tag := tag0, slot := 1, toks := [tokenFor 0] }
     let e : Entry := { entry0 (.issued 0 false) with st := .issued f.agent false }
     issuedEntry { cluster0 with entries := [e] } f = some 0) := by decide +kernel

theorem witness_ContextAndFrameOperators_refused :
    allocRefused (getCtx region0 2) = true ∧ (liveColour region0 { tag0 with col := 9 }).isNone = true ∧
    (let r (c : Colour) : Region := { region0 with ctxs := [(1, { Ctx.none with declared := true, window := 1, ptr := 1, live := [c] })] }
     let s (c : Colour) : State := fires (setRegion base 0 (r c)) [scalar 5]
     (liveColour (r { colour0 with exits := true }) tag0).map Colour.exits = some true ∧
     (liveColour (r { colour0 with nexts := true }) tag0).map Colour.nexts = some true ∧
     lastCarry (s colour0) (r colour0) tag0 colour0 (op1 .raw 0x10000) = false ∧
     lastCarry (bytesAt (spawnAddr base region0 1 256 + 7) [0x80] base) region0 tag0 colour0 (op1 .raw 0x10000) = true ∧
     (tagUnder (s colour0) (s colour0).firing .next).granted = false) ∧
    colour0.parent = none := by decide +kernel

theorem witness_PfenceSpliceCmpx_image :
    (let f : Firing := { Firing.none with tag := tag0, toks := [scalar 1, scalar 0x300000], word := spliceWord }
     let s : State := { mapped0 [] with firing := f }
     (match spliceImage s f with | .miss _ => true | _ => false) = true) ∧
    (let f : Firing := { Firing.none with tag := tag0, toks := [scalar 1, scalar 4096], word := spliceWord }
     let s : State := { setChk (mapped0 []) 4096 0xFC00 with firing := f }
     (match spliceImage s f with | .fail _ => true | _ => false) = true) := by decide +kernel

theorem witness_ResultsLeaveAndJoinTheNetwork_span :
    (let r := { region0 with span := [(1, (1 : Word))] }
     regionCluster base r 1 0 = none ∧ Tab.get 0 r.span 1 ≠ 0) := by decide +kernel

/-- Tiles of two shapes, of another format, of other rows, and a poisoned operand. -/
theorem witness_VectorMovesElements_checks :
    (let s := vec [tile .f32 1 4 8, tile .f32 1 2 9]
     (vecError s s.firing [dataPort .f32, dataPort .f32] (sameShapes s.firing [dataPort .f32, dataPort .f32])).isSome = true) ∧
    (let s := vec [{ scalar 1 with flag := { Flag.none with poison := true } }]
     vecError s s.firing [dataPort .f32] (sameShapes s.firing [dataPort .f32]) = none ∧
     ((readArgs s s.firing.cluster (s.firing.toks.zip [dataPort .f32])).2.2.zip [dataPort .f32]).any (fun b => b.1 && !b.2.fwd) = true) ∧
    (twoHandles (vec [tile .i32 1 4 8, tile .n16 2 4 9]).firing).map (fun x => (x.1.rows, x.2.rows)) = some (1, 2) ∧
    (let s := vec [tile .i32 1 4 8, tile .n16 1 4 9]
     vecError s s.firing [{ tileOnly .i32 with fwd := true }, dataPort .n16] true = none) ∧
    (twoHandles (vec [tile .n8 1 2 8, tile .n8 1 1 9]).firing).map (fun x => compactShapes 2 false (x.1.rows, x.1.epr) (x.2.rows, x.2.epr)) = some false ∧
    (let s := vec [tile .n8 1 2 8, tile .n8 1 2 9]
     vecError s s.firing [{ tileOnly .n8 with fwd := true }, tileOnly .n8] true = none) := by decide +kernel

/-- Tiles of too many rows or elements, a block past the accumulator, inner lengths that disagree, weights of the pool, a bad
word of a block, and key tiles that are too large. -/
theorem witness_MatrixProductsAndWeights_bounds :
    (handleAt (vec [tile .bf16 65 8 8]).firing 0).map (fun a => decide (64 < a.rows)) = some true ∧
    (handleAt (vec [tile .bf16 1 6 8]).firing 0).map (fun a => decide (a.epr % 8 ≠ 0)) = some true ∧
    (handleAt (vec [tile .bf16 2 8 8]).firing 0).map (fun a => decide (a.rows ≠ 1)) = some true ∧
    (blockAt (op2 .bf16 0x3F000000) 2 1).fits = false ∧
    (let s := vec [tile .bf16 1 8 8, tile .bf16 1 4 9]
     (denseB s s.firing (op2 .bf16 0)).map (fun w => (handleOf w).epr) = some 4) ∧
    bindable (handleOf (tile .bf16 1 8 8).payload) = false ∧ (tile .bf16 1 8 8).kind = .tile ∧
    isScalar (scalar 1) = true ∧ (scalar 1).payload ≠ 0 ∧ (op2 .bf16 0).imm.getLsbD 1 = false ∧
    blockBad { cluster0 with accBad := [(accKey 0 0 0, true)] } (immBlock (op1 .f32 0xB00000000)) = true ∧
    (let s := vec [tile .f32 65 4 8]
     64 < (handleOf (tokAt s.firing 0).payload).rows) := by decide +kernel

theorem witness_NetworkModeSortsAndMerges_bounds :
    (let s := fires (modCluster base 0 fun k => { k with lines := (List.range 40).map fun i => (8 + i, { full := true, gen := 0, written := 0xF }) }) [tile .n8 1 65 8]
     vecError s s.firing [tileOnly .n8] (sameShapes s.firing [tileOnly .n8]) = none ∧ 64 < (handleOf (tokAt s.firing 0).payload).epr) ∧
    (let s := vec [tile .n8 1 4 8, tile .n8 2 4 9]
     let key : VPort := { tileOnly .n8 with shaped := false }
     vecError s s.firing [key, key] (sameShapes s.firing [key, key]) = none ∧
     (handleOf (tokAt s.firing 0).payload).rows ≠ (handleOf (tokAt s.firing 1).payload).rows) := by decide +kernel

/-- An operator that writes a handle outside the pinned area, an unarmed slot, a stencil of tiles, an iteration number past the
last, firings to cancel; a cancelled firing that has not begun, and a tile step that finds no lines. -/
theorem witness_StencilOperatorsAreAccepted_errors :
    (let f := (sfiring 5 0 [tile .i32 1 4 8]).firing
     writtenPort f.word = some 0 ∧ handleBad base 0 (tokAt f 0) = true) ∧
    armed base 0 0 = none ∧
    (match armed (stencils (descriptor 0 0 8192) SQueue.empty) 0 0 with | some x => decide (x.pmax < 1) | none => false) = true ∧
    (let x := sfiring 2 0 []
     [x].filter (cancels (op1 .raw 0x20)) ≠ [] ∧ [x].filter (cancels (op1 .raw 1)) = []) ∧
    (let x := { sfiring 2 0 [scalar 0] with cancelled := true }
     isIssued (issued0 (descriptor 0 0 8192) x) x = true ∧ x.begun = false) ∧
    (let x := sfiring 2 3 [scalar 0]
     let s := modCluster (issued0 (descriptor 2 0 0) x) 0 fun k => { k with pool := none }
     (match armed s 0 0 with | some t => (takeStream s x t).isNone | none => false) = true) := by decide +kernel

/-- A wave's access that does nothing, a held firing, prefetches of a page and of none, a handshake that is refused, an empty
range, and MRESUME with an error token. -/
theorem witness_PortsPerformTheirFirings_forms :
    (let j := job 6 3 0x2000000 [scalar 0] []
     let s := ported fun q => { setGen q 0 (some j) with mode := 2 }
     genJob (getPort s 0) 0 = some j ∧ (isWave j && (getPort s 0).mode == 2 && (jobOp j).imm.getLsbD 25 && j.count == 0) = true) ∧
    (let j := { job 0 3 0 [] [readElem 0 8] with held := some (0, 0, 1, false) }
     genJob (getPort (ported fun q => setGen q 0 (some j)) 0) 0 = some j ∧ j.held.isSome = true) ∧
    (let j := job 8 3 0 [scalar 0] [readElem 0 8]
     let s := ported fun q => setGen q 0 (some j)
     jobOpc j = 8 ∧ (prefElem s 0 0 j (readElem 0 8)).isSome = true) ∧
    (let j := job 1 3 0 [scalar 0, scalar 1] [writeElem 0 [1]]
     (j.elems[chooseElem base j]?).isSome = true ∧ ((writeElem 0 [1]).write.isSome && !(jobOp j).imm.getLsbD 26 && !j.handshake) = true ∧
     (handshake base j.firing.region j.firing.tag).isSome = true ∧
     (handshake (setRegion base 0 { region0 with ctxs := [] }) j.firing.region j.firing.tag).isNone = true) ∧
    (let j := job 0x0A 0 0 [scalar 0, scalar 0] [readElem 0 0]
     let s := ported fun q => { q with incoming := [j] }
     (getPort s 0).incoming = j :: [] ∧ jobOpc j = 0x0A ∧ (readElem 0 0).size = 0 ∧ (readElem 0 8).addr + 8 ≤ (bankWindow : Int)) ∧
    (job 6 3 0x2000000 [] []).fail = none ∧ (jobOp (job 6 3 0x2000000 [] [])).imm.getLsbD 25 = true ∧
    (tok .error 7).kind = .error ∧ isScalar (scalar 1) = true := by decide +kernel

/-- Elements of a bank that are read, written and refused; a poisoned word, a queue's word with a waiter, an empty future
without one, a request that was refused, and a routine of another bank that is waited for. -/
theorem witness_BanksPerformTheirRequests_elements :
    didRead (bankElem base (readElem 0 8) false (bankAddr 0 0)) = true ∧
    didWrote (bankElem base (writeElem 0 [1, 2, 3, 4, 5, 6, 7, 8]) true (bankAddr 0 0)) = true ∧
    didFail (bankElem base (readElem 0 8) true (bankAddr 0 4)) = true ∧
    (match locate base region0 (-1) 8 with | .fail _ => true | _ => false) = true ∧
    reqOpc (bankReq 0 4 0 [] []) = 0 ∧ reqOpc (bankReq 6 4 0 [] []) = 6 ∧ (reqOp (bankReq 0 4 0x200000 [] [])).imm.getLsbD 21 = true ∧
    (bankReq 0 4 0 [] []).fail = none ∧ (nextRequest base 0).isNone = true ∧
    (match plainElem (setWordMode base (bankAddr 0 0) .header) (bankAddr 0 0) 8 with | .error _ => true | .ok _ => false) = true ∧
    (readMem (setChk base (bankAddr 0 0) (poisonMark .bank)) (bankAddr 0 0) 8).2.2 = true ∧
    (let e : Combine := { addr := bankAddr 0 0, fn := 1, fmt := .i64, rnd := .rne, value := 1, parts := [], opened := 0 }
     ([e].any fun e => e.addr == bankAddr 0 0 && e.fn == 1 && e.fmt == .i64 && e.rnd == .rne) = true) := by decide +kernel

theorem witness_BankWordsParkAndServe_waits :
    (let a := bankAddr 0 0
     let f : Firing := { Firing.none with tag := tag0 }
     let w (k : WKind) : Waiter := Waiter.mk a 0 0 0 k f tag0 7 1 true false true 0 false
     let header := setWordMode (putWhole base a (QHead.word { cap := 2, head := 0, count := 0 }) false) a .header
     listedAt { header with waiters := [w .popper] } a ≠ [] ∧ listedAt header a = [] ∧
     listedAt (setWordMode { base with waiters := [w .reader] } a (.future false)) a ≠ [] ∧
     (w .wait).err = true ∧ { base with waiters := [w .wait] }.waiters[0]? = some (w .wait) ∧
     ((waitersOf { base with waiters := [w .wait] } a).filter fun w => w.kind == .wait && !isStopped base w.firing.region).length = 1 ∧
     ¬ (((waitValue base a .i64).2.1 = 1 % 2 ^ (8 * bankWordSize .i64)) ↔ (1#37).getLsbD 0 = true) ∧
     (((waitValue base a .i64).2.1 = 0 % 2 ^ (8 * bankWordSize .i64)) ↔ (1#37).getLsbD 0 = true) ∧
     (bankWhole (setChk base a (poisonMark .bank)) a).2.2 = true) ∧
    (let q := bankReq 2 4 0 [] []
     let s := { base with nacked := [(q, 0, 5)] }
     s.nacked[0]? = some (q, 0, 5) ∧ s.htime < 5 ∧ 5 ≤ (at_ 5 s).htime ∧ isStopped s q.firing.region = false) := by decide +kernel

theorem witness_BankRoutinesRunWhole_fetch :
    (let rt := bankAddr 0 256
     let q := bankReq 0x12 4 0 [scalar (bankV 0), scalar (bankV 256), scalar 5] [readElem (bankV 0).toNat 8]
     let s (f : Option (Nat × Nat × Nat)) : State := setBank base 0 { getBank base 0 with input := [q], fetch := f }
     (routinesWanted (s none) 0).contains rt = true ∧ (fetchState (s none) 0 rt).2 ≤ (s none).htime ∧ (fetchState (s none) 0 rt).1 < 4 ∧
     4 ≤ (fetchState (s (some (rt, 4, 0))) 0 rt).1 ∧ (s (some (rt, 1, 9))).htime < (fetchState (s (some (rt, 1, 9))) 0 rt).2 ∧
     bankAddr 0 256 < 2 ^ 64) := by decide +kernel

/-- A root whose buffer is full; operands of the wrong kind and with poison; a tile that no put takes. -/
theorem witness_CrewsAndRoots_waits :
    (let u := { up .join (pfiring 7 0 0 [scalar 0]) with held := true }
     let s := plumbing (crewed id) fun p => { p with ups := List.replicate 4096 u }
     4096 ≤ heldAt s false 0) ∧
    isScalar (tok .done 1) = true ∧ isScalar (tile .i64 1 1 8) = false ∧ (scalar 0).kind ≠ .tile ∧
    ({ scalar 0 with flag := { Flag.none with poison := true } }).flag.poison = true ∧
    (let f := pfiring 3 4 0 [scalar 0, scalar 5]
     let r := round0 .reduction
     let s := crewed fun c => { c with open_ := some r, noticed := [0] }
     isPut f = true ∧ absorbs (getCrew s 0) 0 Round.isReduction = none ∧ (roundFor s 0 0).isSome = true ∧ (roundFor (crewed id) 0 0).isNone = true) ∧
    (let r := { round0 .reduction with arrived := [0], waits := [{ firing := Firing.none, member := some 0, late := false }] }
     (absorbs { crew0 with open_ := some r } 0 Round.isReduction).isSome = true) ∧
    (let u := up (.put 0 0) (pfiring 3 4 0 [scalar 0, scalar 5])
     upLate (crewed fun c => { c with rounds := [{ round0 .reduction with evaluated := true }] }) u = true) ∧
    upValid base (up (.drop tag0) Firing.none) = false ∧ upValid base (up .free (pfiring 9 0 0 [scalar 0])) = false ∧
    (memberOf crew0 tag0).isSome = true ∧ (memberOf crew0 { tag0 with col := 9 }).isNone = true ∧
    (takeSend (crewed fun c => { c with quorum := 2 }) (up .send (pfiring 1 0 1 [scalar 0, scalar 5])) 0).isNone = true := by decide +kernel

/-- An arrival that its round has counted already, a broadcast's value, an opening that waits and one that is taken, a round
whose member has left or whose format differs, and results that land. -/
theorem witness_RoundsReduceAndRelease_reductions :
    (let f := pfiring 0 0 0 [scalar 0]
     let r := { round0 .barrier with arrived := [0], waits := [{ firing := Firing.none, member := some 0, late := false }] }
     (absorbs { crew0 with open_ := some r } 0 fun r => r.kind == arrivalKind f).isSome = true) ∧
    crew0.knows (up (.arrive 9) (pfiring 0 0 0 [scalar 0])) 9 = false ∧ crew0.knows (up (.arrive 0) (pfiring 0 0 0 [scalar 0])) 0 = true ∧
    (round0 .broadcast).kind = .broadcast ∧ (round0 .broadcast).sent = none ∧ crew0.quorum ≤ crew0.joins ∧
    (let r := { round0 .broadcast with sent := some (scalar 5), arrived := [0] }
     r.sent ≠ none ∧ (∀ m ∈ r.set, m ∈ r.arrived ∨ m ∈ r.gone)) ∧
    (let c := crew0
     c.open_.isSome = false ∧ c.unretired.length < 4 ∧ leavesUsed (crewed id) c + treeWidth (c.members.map Member.index) ≤ 131072 ∧
     treeWidth (c.members.map Member.index) ≤ 64 ∧
     treeWidth ((List.range 65).map id) > 64 ∧ ({ c with rounds := List.replicate 4 (round0 .reduction) }).unretired.length = 4) ∧
    (let f := pfiring 3 4 0 [scalar 0, scalar 5]
     let r := round0 .reduction
     let c := { crew0 with open_ := some r }
     (c.round 0).isSome = true ∧ (crew0.round 0).isNone = true ∧ putError r f = none ∧ (putError { r with fmt := .f32 } f).isSome = true ∧
     0 ∈ ({ r with gone := [0] }).gone ∧ r.evaluated = false ∧ (storeLeaf base (up (.put 0 0) f) r 0).isSome = true) ∧
    (let f := pfiring 2 4 0 [scalar 0]
     let r := { round0 .reduction with evaluated := true, waits := [{ firing := f, member := none, late := false }] }
     let s := crewed fun c => { c with rounds := [r] }
     isStopped s 0 = false ∧ (getCrew s 0).round 0 = some r ∧ f ≠ Firing.none ∧
     (emitResult s 0 r { firing := f, member := none, late := false }).isSome = true) := by decide +kernel

/-- An opening with a route entry, which receives the bitmap: as a scalar up to 64 members, else as a tile. -/
theorem witness_RoundsReduceAndRelease_results :
    (let w : Word128 := BitVec.ofNat 128 (6 * 2 ^ 125 + 2 * 2 ^ 117 + 4 * 2 ^ 112 + 0x80000041)
     let f := { pfiring 2 4 0 [scalar 0] with word := w, route := 1 }
     let side := (destinations base f (Machine.opWord f.word)).filter fun d => decide (2 ≤ d.1)
     side ≠ [] ∧ (destinations base (pfiring 2 4 0 [scalar 0]) (Machine.opWord (pfiring 2 4 0 [scalar 0]).word)).filter (fun d => decide (2 ≤ d.1)) = [] ∧
     (putTile base 0 0 tag0 (plainTile .b1 1 65 fun _ _ => 0) false).isSome = true ∧
     (putTile (setCluster base 0 { cluster0 with pool := none }) 0 0 tag0 (plainTile .b1 1 65 fun _ _ => 0) false).isNone = true) := by
  decide +kernel

/-- Correction cursors: at no round, at a logged packet, at one under way, at one to come and at one that a full log dropped. -/
theorem witness_MonitorsReportTheirRegion_cursors :
    (let p : RPacket := { member := 0, value := 1, poison := false }
     let r := { round0 .reduction with evaluated := true, packets := [p] }
     let s := crewed fun c => { c with rounds := [r] }
     let f (k : Word) := pfiring 9 4 0 [scalar 0, scalar k]
     corrRound s (f 0) = some (0, r) ∧ (corrRound base (f 0)).isNone = true ∧ r.kind ≠ .tileReduction ∧ corrCursor (f 1) = 1 ∧
     r.packets.length ≤ 1 ∧ 0 < r.packets.length ∧ s.plumb.logs = [] ∧ s.plumb.downs = []) ∧
    (let p : RPacket := { member := 0, value := 1, poison := false }
     let s := plumbing base fun x => { x with downs := [{ at_ := 9, what := .packet 0 0 0 p }] }
     (s.plumb.downs.any fun d => d.what == .packet 0 0 0 p) = true) := by decide +kernel

/-- Elements that wrap, are not aligned or carry poison to a peer; an LFENCE of all, and one of an unknown target. -/
theorem witness_LinkOperatorsIssueTheirRequests_errors :
    2 ^ 64 < 0xFFFFFFFFFFFFFFFF + 8 ∧ 4 % 8 ≠ 0 ∧ peerTarget.getLsbD 53 = true ∧ (op1 .raw 1).imm.getLsbD 0 = true ∧
    targetOk base peerTarget = false ∧ firstError [none, some eTYPE_MISMATCH] = some eTYPE_MISMATCH ∧
    (let s := fires base [scalar 0, scalar 0, tile .i64 1 2 8]
     checkTile s 0 (tokAt s.firing 2).payload (some [.i64]) = none ∧ (readTile s 0 (tokAt s.firing 2).payload).2.2 = false) ∧
    (op1 .i64 0x1000000).imm.getLsbD 24 = true ∧ (op1 .i64 0x2000000).imm.getLsbD 25 = true := by decide +kernel

/-- A key of a bank range: reading, writing, notifying and an atomic there; a word of a queue refuses them. -/
theorem witness_LinkAccessesAreCheckedAndAnswered_bank :
    (let e := leBytes 8 0 ++ leBytes 8 0x1000 ++ leBytes 8 (2 ^ 62) ++ leBytes 4 0xF0000000 ++ [0x80, 0, 0, 0]
     e.length = 32 ∧ keyField e 28 1 / 128 = 1 ∧ keyField e 8 8 ≠ 0 ∧ keyField e 24 4 % 2 ^ 20 = 0 ∧ keyField e 16 8 / 2 ^ 62 = 1 ∧
     keyField e 16 8 % 2 ^ 40 = 0 ∧ (keyField e 24 4).testBit Right.atomic.bit = true ∧ kindOf (bankBase + 0) = .bank ∧
     0 / 2 ^ 26 ∈ (keyed e).service.dies ∧ bankBase % 8 = 0 ∧ (bankBase + 4) % 8 ≠ 0) ∧
    (loadBank base bankBase 8).isSome = true ∧ (loadBank (setWordMode base bankBase (.future false)) bankBase 8).isNone = true ∧
    (match plainElem base bankBase 8 with | .ok _ => true | .error _ => false) = true ∧
    (match plainElem (setWordMode base bankBase .header) bankBase 8 with | .error _ => true | .ok _ => false) = true ∧
    (match storeBank (setWordMode base bankBase .header) bankBase [1] false with | .error _ => true | .ok _ => false) = true ∧
    kindOf 0 = .hbm ∧ hbmExists base (2 ^ 40) = false := by decide +kernel

/-- Headers of a packet for this package and for another, and a whole-die region on the die. -/
theorem witness_ScewenPortsKeepSequence_packets :
    (∃ h : Word, (h.extractLsb' 50 12).toNat = ownPackage) ∧ (∃ pkg : BitVec 12, pkg.toNat ≠ ownPackage) ∧
    regionAt base 0 0 = some 0 ∧ regionAt base 0 319 = none ∧ regionOnDie base 0 = none ∧
    regionOnDie (setRegion base 0 wholeRegion) 0 = some 0 := by
  refine ⟨⟨BitVec.ofNat 64 (ownPackage * 2 ^ 50), ?_⟩, ⟨if ownPackage = 0 then 1 else 0, ?_⟩, ?_⟩
  · have h : ownPackage < 4096 := Nat.mod_lt _ (by decide)
    rw [BitVec.extractLsb'_toNat, BitVec.toNat_ofNat, Nat.shiftRight_eq_div_pow]
    omega
  · split <;> simp <;> omega
  · decide +kernel

theorem witness_ScewenPortsKeepSequence_flits :
    (let h (type : Nat) (q : BitVec 12) : Word := BitVec.ofNat 64 (type * 2 ^ 62) + ((q.setWidth 64) <<< 47)
     (h 1 0).extractLsb' 62 2 = 1 ∧ (h 2 0).extractLsb' 62 2 = 2 ∧ (h 3 0).extractLsb' 62 2 = 3 ∧
     2048 ≤ ((h 0 0xFFE).extractLsb' 47 12 - (getSPort base 0).lastGood).toNat) ∧
    (getSPort base 0).unacked = [] ∧ (({ SPort.reset with unacked := [(1, 0, [])] } : SPort).acknowledge 0).unacked.length ≤ 1 ∧
    (Nat.log2 17 = 4 ∧ 2 ^ Nat.log2 3 < 4) := by decide +kernel

/-- A thread in the small machine with x1 at an address. -/
def atAddr (s : State) (v : Word) : State := setThread s 0 ((Thread.reset false).setX 1 v)

def placed (s : State) (n : Nat) (w : Bool) (p : HLoc → Bool) : Bool :=
  match hawkLoc s 0 (rx s 1) n w 0 with | .ok _ l => p l | _ => false

def isMem : HLoc → Bool | .mem _ => true | _ => false
def isBank : HLoc → Bool | .bank _ _ => true | _ => false
def isPcb : HLoc → Bool | .pcb _ => true | _ => false
def isDcb : HLoc → Bool | .dcb _ => true | _ => false

/-- HBM, a bank word, and the control blocks; a hole, a missing page, and a place that takes no such access. -/
theorem witness_LoadsAndStoresOnSram_elsewhere :
    placed (atAddr (mapped0 []) 4096) 8 false isMem = true ∧ placed (atAddr base 0xFF10000000000000) 8 true isMem = true ∧
    placed (atAddr base 0xFF20000000000000) 8 true isBank = true ∧ placed (atAddr base 0xFF00000002000000) 8 true isPcb = true ∧
    placed (atAddr base 0xFF00000001000000) 8 false isDcb = true ∧
    (let s := atAddr base 0xFF30000000000000
     (match hawkLoc s 0 (rx s 1) 8 false 0 with | .trap _ _ _ => true | _ => false) = true) ∧
    (let s := atAddr (mapped0 []) 0x300000
     (match hawkLoc s 0 (rx s 1) 8 false 0 with | .wait _ => true | _ => false) = true) ∧
    (readMem (setChk base 0 0xFC00) 0 8).2.2 = true ∧ (readMem base 0 8).2.2 = false ∧ (loadPcb base (some 0) 0x7FFF 8).isNone = true ∧
    (loadDcb base 0 0 8).isSome = true ∧ wordMode base (bankAddr 0 0) = .plain := by decide +kernel

/-- GLOAD.entry with entries to inject and one that its context refuses; a GLOAD of another thread under way; a scratchpad word
for DIAGST, and an address that names none; HWAKE of threads 0 and 3. -/
theorem witness_GraphInstructionsAct_entries :
    (let s := graphState .loaded region0 []
     loadUnderWay s 0 0 = false ∧ loadUnderWay (setThread s 3 { owner0 with block := .entries 1 [] }) 0 0 = true ∧
     injectEntries 0 0 [] s = (s, []) ∧
     (injectEntries 0 0 [tokOf (headerBits { scalar 1 with tag := { tag0 with ctx := 2 } }) 1] s).2 ≠ [] ∧
     (injectNew s 0 0 (entryToken region0 (tokOf (headerBits (scalar 1)) 1))).isSome = true ∧
     injOk s 0 (headerBits { scalar 0 with kind := .res7 }) true = false) ∧
    (let s := graphState .granted region0 [1]
     (match fetchSheet s 0 (rx s 1) 0 with | .ok _ bs => (parseSheet bs).isNone && sheetRefusal s 0 bs != 0 | _ => false) = true) ∧
    kindOf (spAddr 0 0) = .sp ∧ locate base region0 0 8 = .global 0 ∧ kindOf (bankAddr 0 0) = .bank ∧ (0 : Nat) < 2 ^ 40 ∧
    (9#64).getLsbD 3 = true ∧ (9#64).getLsbD 1 = false ∧ (rx (graphState .loaded region0 []) 0) &&& 0xFFFFFFFFE000003F = 0 := by
  decide +kernel

/-- An arrival that goes past one that waits; a packet behind another; an arrival for a route word's slot. -/
theorem witness_TokensArriveAndMatch_order :
    (let b := arrival0 1
     let s := slotted fun k => { k with arrivals := [arrival0 0, b], entries := [entry0 .part] }
     isPlain b = true ∧ (getSlot s 0 b.tok.dst.slot).rw = false ∧ isLive (getRegion s 0) b.tok.tag = true ∧ matchEntry (getCluster s 0) b = some 0) ∧
    fromMemory 0 = false ∧ fromMemory (srcPort 0) = true ∧
    (let k := getCluster (slotted fun k => { k with entries := [entry0 .part] }) 0
     freeWay k (setIndex 1 tag0) = some 1 ∧ matchEntry k (arrival0 0) = none) ∧
    awaitsPacket base 0 0 1 tag0 = false ∧ isStopped (setRegion base 0 { region0 with freezeAt := some 0 }) 0 = true := by decide +kernel

/-- An entry that an engine took; a broken slot, a word that OPWR broke, and a firing whose lines another cluster owns. -/
theorem witness_FiringsBecomeReadyAndIssue_taken :
    (let e := entry0 (.issued 0 false)
     let f : Firing := { Firing.none with tag := tag0, slot := 1 }
     let s := slotted fun k => { k with entries := [e] }
     issuedEntry (getCluster s 0) f = some 0 ∧ (getCluster s 0).entries[0]? = some e) ∧
    (let e := entry0 (.held 0 false 4)
     let s (t : Nat) := at_ t (slotted fun k => { k with entries := [e] })
     canIssue (s 4) 0 0 e = false ∧ canIssue (s 5) 0 0 e = true) ∧
    (let f : Firing := { Firing.none with tag := tag0, slot := 1, word := engineWord 0 5 4 0 }
     let s (g : Slot → Slot) := setSlot (slotted id) 0 1 (g (getSlot (slotted id) 0 1))
     (getSlot (s fun x => { x with broken := true }) 0 1).broken = true ∧ (getSlot (s fun x => { x with bad := true }) 0 1).bad = true ∧
     brokenByOpwr (slotted id) f = false ∧ brokenByOpwr (s fun x => { x with opwr := true }) { f with word := 0x01800000000000000000000000000000 } = true) ∧
    (let far (c : Nat) : Tok := tok .tile (newHandle .f32 1 4 256 0 2 c).word
     let f (ts : List Tok) : Firing := { Firing.none with tag := tag0, word := engineWord 1 0 11 0 + (1 <<< 107), toks := ts }
     let s := setCluster base 0 { cluster0 with peers := [(1, cluster0.pinned), (16, cluster0.pinned)] }
     quadOwners s (f [far 1, scalar 0]) = [1] ∧ nextOwner s (f [far 1, scalar 0]) 1 = none ∧
     nextOwner s (f [far 1, far 16]) 1 = some 16) ∧
    some (tokenFor 0) ∈ (entry0 .part).cells := by decide +kernel

/-- Signals that are due after others, and a stopped region. -/
theorem witness_ColoursAtTheirHome_signals :
    (let r := { region0 with signals := [(9, .marker Firing.none), (0, .purge tag0 true), (0, .fail tag0 1 ePOISON)] }
     let s := setRegion base 0 r
     isStopped s 0 = false ∧ (r.signals.findIdx? fun g => decide (g.1 ≤ s.htime) && isPurge g.2) = some 1 ∧
     (r.signals.findIdx? fun g => decide (g.1 ≤ s.htime) && isFail g.2) = some 2 ∧ r.signals[1]? = some (0, .purge tag0 true) ∧
     r.signals[2]? = some (0, .fail tag0 1 ePOISON)) ∧
    isStopped (setRegion base 0 { region0 with stopped := true }) 0 = true ∧
    (region0.signals.findIdx? fun g => decide (g.1 ≤ base.htime) && isPurge g.2) = none := by decide +kernel

/-- A stream behind another of its ORD node; a mismatch that has been purged for before; markers of the epoch in progress. -/
theorem witness_FabricEventsAct_more :
    (let st (w : Word128) : Stream := { firing := { Firing.none with tag := tag0, word := w }, left := 2, next := 7 }
     let ks := [st (1 <<< 101), st (1 <<< 101)]
     (ks.take 1).any (fun y => (st (1 <<< 101)).firing.word.getLsbD 101 && y.firing.slot == 0 && y.firing.region == 0 && y.firing.cluster == 0) = true ∧
     (let s := setRegion base 0 { region0 with ctxs := [(1, { Ctx.none with declared := true, window := 1, ptr := 1, live := [colour0] })] }
      (match tagUnder s (st 0).firing .new with | .refused => true | _ => false) = true) ∧
     (match tagUnder base (st 0).firing .keep with | .refused => false | _ => true) = true) ∧
    (let w : Cmpx := { firing := { Firing.none with tag := tag0 }, key := 3, digest := 4, since := 0 }
     let r := { region0 with twinPurges := [(1, 0, 3)], twin := some (1, true) }
     (liveColour r tag0).isSome = true ∧ liveColour r { tag0 with col := 9 } = none ∧ r.twinPurges.contains (tag0.ctx, colour0.key, w.key) = true ∧
     region0.twinPurges.contains (tag0.ctx, colour0.key, w.key) = false ∧ irrevBelow r tag0 = false ∧ r.twin = some (1, true) ∧ 1 ≠ w.firing.region) ∧
    (let p (v : List (Nat × BitVec 11 × BitVec 4)) (d : List (Nat × BitVec 11)) : Snapshot :=
       { group := 0, epoch := 5, start := 0, due := 9, firing := Firing.none, used := 0, records := 0, overflow := false, saving := v, done := d }
     let a : Arrival := { arrival0 0 with tok := { tokenFor 0 with kind := .marker } }
     let r v d := { region0 with snapshot := some (p v d) }
     let s := slotted fun k => { k with arrivals := [a] }
     firstArrival (getCluster s 0) (fun a => a.tok.kind == .marker) = some 0 ∧ (getCluster s 0).arrivals[0]? = some a ∧
     (r [] []).snapshot.map Snapshot.epoch = some a.tok.payload ∧ forwarded (r [] [(0, 1)]) 0 1 = true ∧ forwarded (r [] []) 0 1 = false ∧
     savingAt (r [] []) 0 1 = none ∧ (savingAt (r [(0, 1, 1)] []) 0 1).isSome = true ∧
     firstArrival (getCluster base 0) (fun a => a.tok.kind == .marker) = none) ∧
    1024 ≤ (List.replicate 1024 (scalar 1)).length := by decide +kernel

/-- A member package that no port reaches, or that every port may reach; a thaw that is due. -/
theorem witness_RegionsFreezeAndThaw_span :
    (let e : Word := BitVec.ofNat 64 (16 * ((ownPackage + 1) % 4096))
     bits e 15 4 ≠ ownPackage ∧ ∃ s : State, (portToward s (e.extractLsb' 4 12)).isNone = true) ∧
    (5 : Nat) ≤ (at_ 5 base).htime ∧ (({ region0 with freezeAt := some 3 }).freezeAt.getD 5 = 3) := by
  refine ⟨⟨?_, { base with service := { base.service with scewenUp := 0 } }, ?_⟩, ?_, rfl⟩
  · have h : ownPackage < 4096 := Nat.mod_lt _ (by decide)
    rw [bits, BitVec.extractLsb'_toNat, BitVec.toNat_ofNat, Nat.shiftRight_eq_div_pow]
    omega
  · simp [portToward, portUp]
  · decide

/-- A fetch from memory that gives a word, one that traps and one that waits for its page. -/
theorem witness_StepsRunTheDecodedInstruction_fetch :
    (let s (v : Word) : State := setThread (mapped0 []) 0 { Thread.reset false with pc := v }
     (match fetchWord (s 4096) 0 with | .ok _ _ => true | _ => false) = true ∧
     (match fetchWord (s 0xFF30000000000000) 0 with | .trap _ _ _ => true | _ => false) = true ∧
     (match fetchWord (s 0x300000) 0 with | .wait _ => true | _ => false) = true) ∧
    runnable (getThread base 1) = false := by decide +kernel

/-- A cause that the die's next thread has waiting behind it, and a wait that takes none. -/
theorem witness_HawkEventsAct_causes :
    (let c := Cause.mk 1 0 64
     let s := setDie (setThread base 0 { Thread.reset false with ie := true, pending := [c] }) 0 { getDie base 0 with causes := [(3, c)] }
     (getDie s 0).causes = (3, c) :: [] ∧ 3 / 8 = 0 / 8 ∧ (getThread s 0).pending = c :: [] ∧ (getThread s 1).pending = [] ∧ (getDie base 0).causes = []) ∧
    ({ Thread.reset false with block := .entries 1 [] }).block = .entries 1 [] ∧ (Thread.reset false).pending = [] ∧
    ({ Thread.reset true with timer := true }).timer = true := by decide +kernel

end Sys2Proof.Tests
end

section
/-! PROOFS. Canonical tables: a canonical table is determined by what its keys read as, and a change of every entry that
keeps the default changes every key alike. Settles O60 (02 R46). -/

namespace Sys2Proof.Machine

section CanonicalTables

variable {α : Type} [DecidableEq α] {d : α}

/-- No key below the bound of a canonical table is listed. -/
theorem Tab.get_below {t : Tab α} {b i : Nat} (hw : Tab.wfFrom d b t = true) (hi : i < b) : Tab.get d t i = d := by
  induction t generalizing b with
  | nil => rfl
  | cons e t ih =>
    obtain ⟨k, v⟩ := e
    simp only [Tab.wfFrom, Bool.and_eq_true, decide_eq_true_eq] at hw
    rw [Tab.get, if_neg (by omega), ih hw.2 (by omega)]

/-- The first entry of a canonical table: its value is not the default, and the keys up to it are listed nowhere else. -/
theorem Tab.wfFrom_cons {t : Tab α} {b k : Nat} {v : α} (hw : Tab.wfFrom d b ((k, v) :: t) = true) :
    b ≤ k ∧ v ≠ d ∧ Tab.wfFrom d (k + 1) t = true ∧ ∀ i ≤ k, Tab.get d t i = d := by
  simp only [Tab.wfFrom, Bool.and_eq_true, decide_eq_true_eq] at hw
  obtain ⟨⟨hb, hv⟩, ht⟩ := hw
  exact ⟨hb, hv, ht, fun i hi => Tab.get_below ht (by omega)⟩

/-- Where a canonical table lists its first key, another that reads alike there has begun too. -/
theorem Tab.first_le {t u : Tab α} {a b k l : Nat} {v w : α} (ht : Tab.wfFrom d a ((k, v) :: t) = true)
    (hu : Tab.wfFrom d b ((l, w) :: u) = true)
    (h : Tab.get d ((k, v) :: t) k = Tab.get d ((l, w) :: u) k) : l ≤ k := by
  obtain ⟨-, hv, -, -⟩ := Tab.wfFrom_cons ht
  obtain ⟨-, -, -, hbelow⟩ := Tab.wfFrom_cons hu
  refine Nat.le_of_not_lt fun hkl => hv ?_
  rwa [Tab.get, if_pos rfl, Tab.get, if_neg (by omega), hbelow k (by omega)] at h

/-- The canonical form is one per content: two canonical tables that read alike at every key are equal. -/
theorem Tab.eq_of_get {t u : Tab α} {a b : Nat} (ht : Tab.wfFrom d a t = true) (hu : Tab.wfFrom d b u = true)
    (h : ∀ i, Tab.get d t i = Tab.get d u i) : t = u := by
  induction t generalizing a b u with
  | nil =>
    cases u with
    | nil => rfl
    | cons e u =>
      obtain ⟨-, hv, -, -⟩ := Tab.wfFrom_cons hu
      exact absurd (h e.1) (by simpa [Tab.get] using hv.symm)
  | cons e t ih =>
    obtain ⟨k, v⟩ := e
    cases u with
    | nil =>
      obtain ⟨-, hv, -, -⟩ := Tab.wfFrom_cons ht
      exact absurd (h k) (by simpa [Tab.get] using hv)
    | cons e' u =>
      obtain ⟨l, w⟩ := e'
      have hkl : k = l := Nat.le_antisymm (Tab.first_le hu ht (h l).symm) (Tab.first_le ht hu (h k))
      subst hkl
      have hvw : v = w := by simpa [Tab.get] using h k
      obtain ⟨-, -, ht', htk⟩ := Tab.wfFrom_cons ht
      obtain ⟨-, -, hu', huk⟩ := Tab.wfFrom_cons hu
      have hrest : ∀ i, Tab.get d t i = Tab.get d u i := by
        intro i
        by_cases hi : k = i
        · rw [htk i (by omega), huk i (by omega)]
        · simpa [Tab.get, hi] using h i
      rw [hvw, ih ht' hu' hrest]

/-- Applying a function that fixes the default to every value of a canonical table, and dropping what becomes the
default, applies it to what every key reads as. -/
theorem Tab.get_mapValues (g : α → α) (hg : g d = d) {t : Tab α} {b : Nat} (hw : Tab.wfFrom d b t = true) (i : Nat) :
    Tab.get d ((t.map fun e => (e.1, g e.2)).filter fun e => e.2 != d) i = g (Tab.get d t i) := by
  induction t generalizing b with
  | nil => exact hg.symm
  | cons e t ih =>
    obtain ⟨k, v⟩ := e
    obtain ⟨-, -, ht, hbelow⟩ := Tab.wfFrom_cons hw
    have hrest := ih ht
    by_cases hk : k = i
    · by_cases hv : g v = d
      · rw [hbelow i (by omega), hg] at hrest
        simpa [Tab.get, hk, hv] using hrest
      · simp [Tab.get, hk, hv]
    · by_cases hv : g v = d <;> simpa [Tab.get, hk, hv] using hrest

end CanonicalTables

/-- Settles O60: Mem.read_write, Mem.byte_write_other and Mem.wf_write, and a canonical table is determined by what it
reads as. -/
theorem memoryWritesAreReadBack : Obligations.MemoryWritesAreReadBack := by
  intro m a bs
  refine ⟨Mem.read_write m a bs, Mem.byte_write_other m a bs, fun hm => ?_⟩
  have hw := Mem.wf_write m a bs hm
  exact ⟨hw, fun m' hm' hbytes => Tab.eq_of_get hm' hw hbytes⟩

end Sys2Proof.Machine
end

section
/-! PROOFS. Reading memory changes no cluster: a read corrects single errors, writes them back and counts them (09 R314,
10 R323), and leaves every cluster's state as it is. -/

namespace Sys2Proof.Machine

theorem readUnit_clusters (s : State) (u : Nat) : (readUnit s u).1.clusters = s.clusters := by
  unfold readUnit
  dsimp only
  split
  · split <;> rfl
  · split
    · rfl
    · split <;> rfl
    · next b _ => cases b <;> dsimp only <;> split <;> rfl

theorem readUnits_clusters (s : State) (us : List Nat) : (readUnits s us).1.clusters = s.clusters := by
  induction us generalizing s with
  | nil => rfl
  | cons u us ih => exact (ih _).trans (readUnit_clusters s u)

theorem readMem_clusters (s : State) (a n : Nat) : (readMem s a n).1.clusters = s.clusters := readUnits_clusters s _

theorem loadBank_clusters {s t : State} {a n : Nat} {r : List Byte × Bool} (h : loadBank s a n = some (t, r)) :
    t.clusters = s.clusters := by
  unfold loadBank at h
  split at h
  · cases h
    exact readMem_clusters s a n
  · cases h

theorem readChunks_clusters (s : State) (l : List (Nat × Nat)) : (readChunks s l).1.clusters = s.clusters := by
  induction l generalizing s with
  | nil => rfl
  | cons e l ih =>
    obtain ⟨a, n⟩ := e
    have hfirst : (if kindOf a = .bank then (loadBank s a n).getD (s, [], false) else readMem s a n).1.clusters =
        s.clusters := by
      split
      · cases h : loadBank s a n with
        | none => rfl
        | some r => exact loadBank_clusters h
      · exact readMem_clusters s a n
    exact (ih _).trans hfirst

theorem readSide_clusters (s : State) (x : Side) (ps : List (Nat × Nat)) : (readSide s x ps).1.clusters = s.clusters := by
  cases x with
  | fill bs => rfl
  | sp c o => exact readChunks_clusters s _
  | addr a => exact readChunks_clusters s _

end Sys2Proof.Machine
end

section
/-! PROOFS. Stencil slots (08 R256, R260, R271, R274): what a slot reads as after a write, after SARM and after SDISARM. -/

namespace Sys2Proof.Machine

theorem getSten_of_clusters {s t : State} (h : t.clusters = s.clusters) (c j : Nat) : getSten t c j = getSten s c j := by
  simp only [getSten, getCluster, h]

theorem getSten_setSten (s : State) (c i j : Nat) (y : Sten) :
    getSten (setSten s c i y) c j = if i = j then y else getSten s c j := by
  simp only [getSten, setSten, modCluster_eq, getCluster_setCluster_same, Tab.get_set]

/-- What SARM needs and leaves when it succeeds: an aligned address, and the slot armed with a descriptor that passes
R260's checks in a state whose clusters are as before. -/
theorem performSarm_ok {s v : State} {x : SFiring} {ps : List (Nat × Nat)} (h : performSarm s x ps = .ok v) :
    portValue x.firing 0 % 128 = 0 ∧ ∃ u d, u.clusters = s.clusters ∧ descriptorOk d = true ∧
      v = setSten u x.firing.cluster x.slot { desc := some d, link := none, cursor := 0 } := by
  unfold performSarm at h
  dsimp only at h
  split at h
  · cases h
  · next haligned =>
    split at h
    · cases h
    · split at h
      · cases h
      · next hdesc =>
        cases h
        exact ⟨Decidable.not_not.mp haligned, _, _, readSide_clusters s _ ps, by simpa using hdesc, rfl⟩

/-- A slot without a link to slot i. -/
def Sten.unlink (i : Nat) (y : Sten) : Sten := if y.link = some i then { y with link := none } else y

theorem Sten.unlink_empty (i : Nat) : Sten.empty.unlink i = Sten.empty := rfl

/-- SDISARM takes the slot's entry out and every link to it. -/
theorem performSdisarm_eq (s : State) (x : SFiring) :
    performSdisarm s x = modCluster s x.firing.cluster fun k =>
      { k with sten := ((k.sten.filter fun e => e.1 != x.slot).map fun e =>
        (e.1, e.2.unlink x.slot)).filter fun e => e.2 != Sten.empty } := by
  have hentry : (fun e : Nat × Sten => if e.2.link = some x.slot then (e.1, { e.2 with link := none }) else e) =
      fun e => (e.1, e.2.unlink x.slot) := by
    funext e
    unfold Sten.unlink
    split <;> rfl
  simp only [performSdisarm, hentry]

theorem getSten_performSdisarm (s : State) (x : SFiring) (j : Nat)
    (hw : Tab.wf Sten.empty (getCluster s x.firing.cluster).sten = true) :
    getSten (performSdisarm s x) x.firing.cluster j =
      if j = x.slot then Sten.empty else (getSten s x.firing.cluster j).unlink x.slot := by
  simp only [performSdisarm_eq, getSten, modCluster_eq, getCluster_setCluster_same]
  rw [Tab.get_mapValues (Sten.unlink x.slot) (Sten.unlink_empty _) (Tab.wfFrom_filter _ _ _ 0 hw),
    Tab.get_filter_key _ _ (fun k => k != x.slot)]
  by_cases hj : j = x.slot <;> simp [hj, Sten.unlink_empty]

end Sys2Proof.Machine
end

section
/-! PROOFS. Scratchpad lines and tile handles (02 R47, R48): emptying a run of lines, and the fields of a handle's word. -/

namespace Sys2Proof.Machine

theorem getLine_setLine (s : State) (c l j : Nat) (y : Line) :
    getLine (setLine s c l y) c j = if l = j then y else getLine s c j := by
  simp only [getLine, setLine, modCluster_eq, getCluster_setCluster_same, Tab.get_set]

/-- An empty line under the next generation. -/
def Line.emptied (y : Line) : Line := { full := false, gen := y.gen + 1, written := 0 }

theorem emptyLines_succ (s : State) (c first n : Nat) :
    emptyLines s c first (n + 1) =
      setLine (emptyLines s c first n) c (first + n) (getLine (emptyLines s c first n) c (first + n)).emptied := by
  simp only [emptyLines, List.range_succ, List.foldl_append, List.foldl_cons, List.foldl_nil, Line.emptied]

/-- Each line of the run is emptied once, and no other line changes. -/
theorem getLine_emptyLines (s : State) (c first n l : Nat) :
    getLine (emptyLines s c first n) c l =
      if first ≤ l ∧ l < first + n then (getLine s c l).emptied else getLine s c l := by
  induction n with
  | zero => rw [if_neg (by omega)]; rfl
  | succ n ih =>
    rw [emptyLines_succ, getLine_setLine]
    by_cases hl : first + n = l
    · subst hl
      rw [if_pos rfl, ih, if_neg (by omega), if_pos (by omega)]
    · rw [if_neg hl, ih]
      have hrange : (first ≤ l ∧ l < first + (n + 1)) ↔ (first ≤ l ∧ l < first + n) := by omega
      simp only [hrange]

/-- Every field of a handle lies in the range that its bits of the word can hold. -/
structure Handle.Fits (h : Handle) : Prop where
  base : h.base < 2 ^ 14
  lines : 0 < h.lines ∧ h.lines ≤ 2 ^ 8
  code : h.code < 2 ^ 5
  rows : 0 < h.rows ∧ h.rows ≤ 2 ^ 7
  pitch : 0 < h.pitch ∧ h.pitch ≤ 2 ^ 3
  gen : h.gen < 2 ^ 4
  res : h.res < 2 ^ 2
  owner : h.owner < 2 ^ 9
  epr : 0 < h.epr ∧ h.epr ≤ 2 ^ 12

theorem bits_eq {w : Nat} (x : BitVec w) (hi lo : Nat) : bits x hi lo = x.toNat / 2 ^ lo % 2 ^ (hi + 1 - lo) := by
  rw [bits, BitVec.extractLsb'_toNat, Nat.shiftRight_eq_div_pow]

theorem bits_lt {w : Nat} (x : BitVec w) (hi lo : Nat) : bits x hi lo < 2 ^ (hi + 1 - lo) := BitVec.isLt _

theorem handleOf_fits (w : Word) : (handleOf w).Fits where
  base := bits_lt w 63 50
  lines := ⟨Nat.succ_pos _, bits_lt w 49 42⟩
  code := bits_lt w 41 37
  rows := ⟨Nat.succ_pos _, bits_lt w 36 30⟩
  pitch := ⟨Nat.succ_pos _, bits_lt w 29 27⟩
  gen := bits_lt w 26 23
  res := bits_lt w 22 21
  owner := bits_lt w 20 12
  epr := ⟨Nat.succ_pos _, bits_lt w 11 0⟩

theorem Handle.word_toNat {h : Handle} (hf : h.Fits) :
    h.word.toNat = h.base * 2 ^ 50 + (h.lines - 1) * 2 ^ 42 + h.code * 2 ^ 37 + (h.rows - 1) * 2 ^ 30 +
      (h.pitch - 1) * 2 ^ 27 + h.gen * 2 ^ 23 + h.res * 2 ^ 21 + h.owner * 2 ^ 12 + (h.epr - 1) := by
  obtain ⟨hbase, hlines, hcode, hrows, hpitch, hgen, hres, howner, hepr⟩ := hf
  rw [Handle.word, BitVec.toNat_ofNat]
  omega

/-- A handle whose fields fit is what its word reads as. -/
theorem handleOf_word {h : Handle} (hf : h.Fits) : handleOf h.word = h := by
  have hw := Handle.word_toNat hf
  obtain ⟨base, lines, code, rows, pitch, gen, res, owner, epr⟩ := h
  obtain ⟨hbase, hlines, hcode, hrows, hpitch, hgen, hres, howner, hepr⟩ := hf
  dsimp only at hw hbase hlines hcode hrows hpitch hgen hres howner hepr
  rw [handleOf, Handle.mk.injEq]
  simp only [bits_eq, hw]
  refine ⟨?_, ?_, ?_, ?_, ?_, ?_, ?_, ?_, ?_⟩ <;> omega

theorem Handle.Fits.nextGen {h : Handle} (hf : h.Fits) : ({ h with gen := (h.gen + 1) % 16 } : Handle).Fits :=
  { hf with gen := Nat.mod_lt _ (by decide) }

end Sys2Proof.Machine
end

section
/-! PROOFS. SARM, SDISARM and SEMPTY on slots and lines (08 R269, R271, R274, R275). Settles O27. -/

namespace Sys2Proof.Machine

/-- R271: SARM arms its slot, unlinked and with its cursor at zero, and no other slot changes. -/
theorem performSarm_slots {s v : State} {x : SFiring} {ps : List (Nat × Nat)} (h : performSarm s x ps = .ok v) :
    (∃ d, getSten v x.firing.cluster x.slot = { desc := some d, link := none, cursor := 0 } ∧ descriptorOk d = true) ∧
      ∀ j ≠ x.slot, getSten v x.firing.cluster j = getSten s x.firing.cluster j := by
  obtain ⟨-, u, d, hu, hd, rfl⟩ := performSarm_ok h
  refine ⟨⟨d, ?_, hd⟩, fun j hj => ?_⟩
  · rw [getSten_setSten, if_pos rfl]
  · rw [getSten_setSten, if_neg hj.symm, getSten_of_clusters hu]

/-- SARM's step where its descriptor lies in memory and arms the slot: the firing completes. -/
theorem sarmStep_ok {s v : State} {c q : Nat} {x : SFiring} {ps : List (Nat × Nat)} {w : Option (Nat × Nat)}
    (hfail : x.failNext = none)
    (hside : sideParts s x.firing.region (x.firing.cluster / 512) (.addr (portValue x.firing 0)) 128 false = .parts ps w)
    (h : performSarm s x ps = .ok v) :
    sarmStep s c q x = completeFiring v c q { x with next := 1, begun := false, failNext := none } := by
  simp only [sarmStep, hfail, hside, h]

/-- SARM's step where its descriptor is refused: the firing completes with the error's code and arms nothing. -/
theorem sarmStep_error {s : State} {c q : Nat} {x : SFiring} {ps : List (Nat × Nat)} {w : Option (Nat × Nat)} {e : BitVec 8}
    (hfail : x.failNext = none)
    (hside : sideParts s x.firing.region (x.firing.cluster / 512) (.addr (portValue x.firing 0)) 128 false = .parts ps w)
    (h : performSarm s x ps = .error e) :
    sarmStep s c q x = completeFiring s c q
      { x with error := some (stenErrorWord s x.firing e 0), next := 1, begun := false, failNext := none } := by
  simp only [sarmStep, hfail, hside, h]

/-- R269: SARM's step at a page fault of an aligned descriptor holds it. -/
theorem sarmStep_miss {s v : State} {c q a p k : Nat} {x w : SFiring} (hfail : x.failNext = none)
    (hside : sideParts s x.firing.region (x.firing.cluster / 512) (.addr (portValue x.firing 0)) 128 false = .miss a p k)
    (haligned : portValue x.firing 0 % 128 = 0) (hheld : holdElem s x q a p k = some (v, w)) :
    sarmStep s c q x = modIssued v c q fun _ => w := by
  simp only [sarmStep, hfail, hside, haligned, ne_eq, not_true_eq_false, if_false, hheld]

/-- R274: SDISARM leaves its slot empty and no link to it. -/
theorem performSdisarm_slots (s : State) (x : SFiring)
    (hw : Tab.wf Sten.empty (getCluster s x.firing.cluster).sten = true) :
    getSten (performSdisarm s x) x.firing.cluster x.slot = Sten.empty ∧
      ∀ j ≠ x.slot, getSten (performSdisarm s x) x.firing.cluster j =
        (getSten s x.firing.cluster j).unlink x.slot := by
  refine ⟨?_, fun j hj => ?_⟩
  · rw [getSten_performSdisarm s x _ hw, if_pos rfl]
  · rw [getSten_performSdisarm s x j hw, if_neg hj]

/-- R275, R47: SEMPTY's handle is the one it was given, under the next generation. -/
theorem handleOf_performSempty (s : State) (x : SFiring) :
    handleOf (performSempty s x).2 =
      { handleOf (tokAt x.firing 0).payload with gen := ((handleOf (tokAt x.firing 0).payload).gen + 1) % 16 } :=
  handleOf_word (handleOf_fits _).nextGen

/-- Settles O27: each clause is one of the lemmas on SARM, SDISARM and SEMPTY. -/
theorem stencilSlotsAndLines : Obligations.StencilSlotsAndLines := by
  intro s x c
  refine ⟨fun ps v h => ⟨(performSarm_ok h).1, performSarm_slots h⟩, fun q hfail => ⟨fun ps w hside => ?_, ?_⟩,
    performSdisarm_slots s x, ?_, ?_, handleOf_performSempty s x⟩
  · exact ⟨fun v h => sarmStep_ok hfail hside h, fun e h => sarmStep_error hfail hside h⟩
  · intro a p k hside haligned v w hheld
    exact sarmStep_miss hfail hside haligned hheld
  · intro i hi
    exact (getLine_emptyLines s c _ _ _).trans (if_pos (by omega))
  · intro l hl
    exact (getLine_emptyLines s c _ _ l).trans (if_neg (by omega))

end Sys2Proof.Machine
end

section
/-! PROOFS. TAGX in a firing with a stale tile mark and an index outside its copies (03 R87, 05 R160). Refutes O10. -/

namespace Sys2Proof.Machine

/-- TAGX with one copy (m = 1) and DIRECT set, so that an index of 1 names no copy; both destinations valid. -/
def directTagx : Op :=
  { fmt := .raw, rnd := .rne, ports := 1, xfm := .keep, sat := false, fe := false, ord := false, imm := 1 <<< 18,
    dst1 := { Dst.none with valid := true, slot := 2 }, dst0 := { Dst.none with valid := true, slot := 1 } }

/-- A loaded region on die 0 whose firing of two scalars, the data and the index 1, is marked stale. -/
def staleScalars : State :=
  let r : Region := { Region.free with state := .loaded, handle := 0x800000CC00000000, dies := [some 0] }
  { setRegion State.reset 0 r with
    firing := { Firing.none with toks := [Tok.none, { Tok.none with payload := 1 }], stale := true } }

/-- The payloads that an instruction's tokens carry in the network. -/
def netPayloads (x : Host.Outcome State Fault Refusal) : List Word :=
  match x with
  | .next t => t.net.map fun p => p.tok.payload
  | _ => []

/-- TAGX's BOUNDS comes before the stale mark (fireTagged): its token names the index. -/
theorem netPayloads_directTagx_staleScalars :
    netPayloads (exec (.tagx directTagx) staleScalars) =
      [errorPayload (getRegion staleScalars 0) 0 0 1 eBOUNDS] := by decide +kernel

/-- The token that the statement's clause on stale firings has for the same firing names REPLAY_STALE. -/
theorem netPayloads_emit_replayStale :
    netPayloads (.next (emit (staleScalars.coloured .keep) staleScalars.firing { directTagx with fe := false } .keep
        (tagUnder staleScalars staleScalars.firing .keep)
        (outTo [(1, { directTagx.dst1 with rwi := 0 })] .error Flag.none
          (errorPayload (getRegion staleScalars 0) 0 0 0 eREPLAY_STALE)) 0 0)) =
      [errorPayload (getRegion staleScalars 0) 0 0 0 eREPLAY_STALE] := by decide +kernel

/-- Refutes O10: TAGX's clause on stale firings asks for REPLAY_STALE whatever the index. In a firing of scalars that is
marked stale and whose index names no copy, the machine reports BOUNDS (R160), which goes before the stale mark as R87's
order of the checks has it. -/
theorem not_controlOperators : ¬ Obligations.ControlOperators := by
  intro h
  obtain ⟨-, -, -, -, htagx⟩ := h
  obtain ⟨-, -, hstale, -⟩ := htagx staleScalars directTagx
  have hclaim := (hstale rfl rfl (by decide)).1 rfl
  have hpayloads := netPayloads_directTagx_staleScalars.symm.trans
    ((congrArg netPayloads hclaim).trans netPayloads_emit_replayStale)
  exact absurd hpayloads (by decide +kernel)

end Sys2Proof.Machine
end

section
/-! PROOFS. When an operator's checks let its effect through (05 R154). -/

namespace Sys2Proof.Machine

theorem firstError_none {es : List (Option (BitVec 8))} (h : ∀ e ∈ es, e = none) : firstError es = none := by
  have hfilter : es.filterMap id = [] := List.filterMap_eq_nil_iff.mpr h
  have habsent (x : BitVec 8) : es.contains (some x) = false := by
    simpa using fun hm => Option.some_ne_none _ (h _ hm)
  rw [firstError, habsent, habsent, hfilter]
  rfl

/-- Operands that pass their checks, and no poisoned one among those used: the operator goes on. -/
theorem guarded_pass {errs : List (Option (BitVec 8))} {used : List Tok} (k : Unit → Act) (he : ∀ e ∈ errs, e = none)
    (hu : ∀ t ∈ used, t.flag.poison = false) : guarded errs used k = k () := by
  have hclean : (used.any fun t => t.flag.poison) = false := by simpa using hu
  rw [guarded, firstError_none he]
  simp [hclean]

theorem scalarError_of_isScalar {t : Tok} (h : isScalar t = true) : scalarError t = none := if_pos h

end Sys2Proof.Machine
end

section
/-! PROOFS. Context operators (05 R161 to R163, R180) and frame operators (05 R164). Settles O11. -/

namespace Sys2Proof.Machine

/-! ### What a context operator does, outcome by outcome -/

section ContextOperators

variable {s : State} {o : Op} {c : Colour}

/-- R161, R19: a home cluster that refuses allocates no colour. -/
theorem allocColour_refused {rid ctx : Nat} (parent : Option Tag) (node : Nat) (f : Vector Word 7)
    (mode : BitVec 3) (h : allocRefused (getCtx (getRegion s rid) ctx) = true) :
    allocColour s rid ctx parent node f mode = none := by
  simp [allocColour, h]

/-- The frame that CTX.ENTER gives its colour: under FRAME the values, zero in an error firing (R161). -/
def enterFrame (o : Op) (v : List Tok) : Vector Word 7 :=
  if immBit o 24 && !(v.any fun t => t.kind == .error) then
    Vector.ofFn fun (i : Fin 7) => if i.val < o.nports then (v.getD i.val Tok.none).payload else 0
  else zeroFrame

/-- R161: CTX.ENTER sends its carried values under the colour it is granted. -/
theorem execCtxEnter_granted {u : State} {t : Tag}
    (ha : allocColour s s.firing.region (immBits o 23 16) (some s.firing.tag)
      (nodeField (getRegion s s.firing.region) s.firing.cluster s.firing.slot) (enterFrame o (ctxValues s s.firing))
      (modeOf (getRegion s s.firing.region) s.firing.tag) = some (u, t)) :
    execCtxEnter o s = .next (sendUnder (carryAll u s.firing t (ctxValues s s.firing)) s.firing t
      (mapped u s.firing o (ctxValues s s.firing))) := by
  rw [enterFrame] at ha
  simp only [execCtxEnter, ha]

/-- R161, R21: CTX.ENTER stays matched while its context's home cluster refuses. -/
theorem execCtxEnter_refused
    (h : allocRefused (getCtx (getRegion s s.firing.region) (immBits o 23 16)) = true) :
    execCtxEnter o s = .next (requeue s s.firing) := by
  simp only [execCtxEnter, allocColour_refused _ _ _ _ h]

/-- The tokens of a firing that comes too late: counted, and nothing is sent (R162, R163, R180). -/
def countStale (s : State) (o : Op) : State :=
  addStale s s.firing.region (firingNode s s.firing) (mapped s s.firing o (ctxValues s s.firing)).length

theorem execCtxNext_dead (hc : liveColour (getRegion s s.firing.region) s.firing.tag = none) :
    execCtxNext o s = .next (countStale s o) := by
  simp only [execCtxNext, hc, countStale]

theorem execCtxExit_dead (hc : liveColour (getRegion s s.firing.region) s.firing.tag = none) :
    execCtxExit o s = .next (countStale s o) := by
  simp only [execCtxExit, hc, countStale]

/-- R162, R180: NEXT after EXIT, and the CARRY-th NEXT of a colour whose purge is pending. -/
theorem execCtxNext_stale (hc : liveColour (getRegion s s.firing.region) s.firing.tag = some c)
    (h : c.exits = true ∨ lastCarry s (getRegion s s.firing.region) s.firing.tag c o = true) :
    execCtxNext o s = .next (countStale s o) := by
  simp only [execCtxNext, hc, countStale]
  rw [if_pos (by simpa using h)]

/-- R163: EXIT after NEXT. -/
theorem execCtxExit_stale (hc : liveColour (getRegion s s.firing.region) s.firing.tag = some c) (h : c.nexts = true) :
    execCtxExit o s = .next (countStale s o) := by
  simp only [execCtxExit, hc, h, if_true, countStale]

/-- R162: NEXT in time sends its carried values under the successor colour, and counts. -/
theorem execCtxNext_granted {u : State} {t : Tag} (hc : liveColour (getRegion s s.firing.region) s.firing.tag = some c)
    (hx : c.exits = false) (hl : lastCarry s (getRegion s s.firing.region) s.firing.tag c o = false)
    (ht : tagUnder s s.firing .next = .tag u t) :
    execCtxNext o s = .next (countCarry (sendUnder (carryAll u s.firing t (ctxValues s s.firing)) s.firing t
      (mapped u s.firing o (ctxValues s s.firing))) s.firing o false) := by
  simp only [execCtxNext, hc, hx, hl, ht, Bool.or_self, Bool.false_eq_true, if_false]

/-- R162, R21: NEXT in time stays matched while its successor's colour is refused. -/
theorem execCtxNext_refused (hc : liveColour (getRegion s s.firing.region) s.firing.tag = some c)
    (hx : c.exits = false) (hl : lastCarry s (getRegion s s.firing.region) s.firing.tag c o = false)
    (hg : (tagUnder s s.firing .next).granted = false) : execCtxNext o s = .next (requeue s s.firing) := by
  simp only [execCtxNext, hc, hx, hl, Bool.or_self, Bool.false_eq_true, if_false]
  cases ht : tagUnder s s.firing .next with
  | tag u t => rw [ht] at hg; cases hg
  | none | dead | refused => rfl

/-- What CTX.EXIT sends goes out under the parent's colour, if there is one (R163). -/
def exitSends (s : State) (o : Op) (c : Colour) : State :=
  match c.parent with
  | none => s
  | some p => sendUnder s s.firing p (mapped s s.firing o (ctxValues s s.firing))

/-- R163: EXIT in time sends its values and counts. -/
theorem execCtxExit_intime (hc : liveColour (getRegion s s.firing.region) s.firing.tag = some c)
    (hn : c.nexts = false) : execCtxExit o s = .next (countCarry (exitSends s o c) s.firing o true) := by
  simp only [execCtxExit, hc, hn, Bool.false_eq_true, if_false]
  rfl

/-- A NEXT or EXIT firing of a live colour is counted, and the CARRY-th frees the colour (R162, R163). -/
theorem countCarry_live {f : Firing} (exits : Bool) (hc : liveColour (getRegion s f.region) f.tag = some c) :
    countCarry s f o exits =
      let c' := { c with count := c.count + 1, exits := c.exits || exits, nexts := c.nexts || !exits }
      let w := setRegion s f.region (setColour (getRegion s f.region) f.tag c')
      if c'.count = immBits o 21 16 then freeColour w f.region f.tag (!exits) else w := by
  simp only [countCarry, hc]

end ContextOperators

/-! ### What a frame access answers -/

/-- INV.SET's new value of a slot, by OP: written, ORed or cleared (R164). -/
def setValue (op : BitVec 2) (old v : Word) : Word :=
  match op.toNat with
  | 0 => v
  | 1 => old ||| v
  | _ => old &&& ~~~v

section FrameAccess

variable {s : State} {rid : Nat} {t : Tag} {c : Colour} (hc : liveColour (getRegion s rid) t = some c)
include hc

/-- INV.SET: the slot takes its new value and answers its old one (R164). -/
theorem frameAccess_set (i : BitVec 3) (op : BitVec 2) (v : Word) :
    frameAccess s rid t (.set i op v) =
      (setRegion s rid (setColour (getRegion s rid) t
        (writeFrame c i.toNat (setValue op (readFrame c i.toNat) v))), readFrame c i.toNat) := by
  simp only [frameAccess, hc]
  rfl

theorem frameAccess_get (i : BitVec 3) : frameAccess s rid t (.get i false) = (s, readFrame c i.toNat) := by
  simp only [frameAccess, hc, Bool.false_eq_true, if_false]

theorem frameAccess_getParent {p : Tag} {k : Colour} (i : BitVec 3) (hp : c.parent = some p)
    (hk : liveColour (getRegion s rid) p = some k) : frameAccess s rid t (.get i true) = (s, readFrame k i.toNat) := by
  simp only [frameAccess, hc, hp, hk, if_true, Option.map_some, Option.getD_some]

theorem frameAccess_getParent_none (i : BitVec 3) (hp : c.parent = none) :
    frameAccess s rid t (.get i true) = (s, 0) := by
  simp only [frameAccess, hc, hp, if_true]

theorem frameAccess_flagsGet (clear : Bool) :
    frameAccess s rid t (.flagsGet clear) =
      (if clear then setRegion s rid (setColour (getRegion s rid) t { c with flags := 0 }) else s,
        BitVec.ofNat 64 (c.rmode.toNat * 256 + c.flags.toNat)) := by
  simp only [frameAccess, hc]

theorem frameAccess_flagsClr (m : Flags) (setMode : Bool) (mode : BitVec 3) :
    frameAccess s rid t (.flagsClr m setMode mode) =
      (setRegion s rid (setColour (getRegion s rid) t
        { c with flags := c.flags &&& ~~~m, rmode := if setMode then mode else c.rmode }), 0) := by
  simp only [frameAccess, hc]

end FrameAccess

theorem writeFrame_slot (c : Colour) {i : Nat} (h : i < 7) (v : Word) :
    writeFrame c i v = { c with f := c.f.set! i v } := if_neg (by omega)

/-- Of the status word only the flags and a valid RMODE are written (03 R95). -/
theorem writeFrame_status (c : Colour) {i : Nat} (h : i = 7) (v : Word) :
    writeFrame c i v =
      { c with flags := v.extractLsb' 0 6,
               rmode := if (v.extractLsb' 8 3).toNat ≤ 5 then v.extractLsb' 8 3 else c.rmode } := if_pos h

/-! ### What a frame operator emits, by its access -/

theorem ofNat_immBits (o : Op) (hi lo : Nat) :
    BitVec.ofNat (hi + 1 - lo) (immBits o hi lo) = o.imm.extractLsb' lo (hi + 1 - lo) := by
  rw [immBits, BitVec.ofNat_toNat, BitVec.setWidth_eq]

section FrameOperators

variable {s v : State} {o : Op} {x : Word} (hp : Performs s o.xfm)
include hp

theorem emits_invSet (hs : isScalar (tokAt s.firing 0) = true) (hpoison : (tokAt s.firing 0).flag.poison = false)
    (h : frameAccess (s.coloured o.xfm) s.firing.region s.firing.tag
      (.set (o.imm.extractLsb' 0 3) (o.imm.extractLsb' 3 2) (tokAt s.firing 0).payload) = (v, x)) :
    Emits (.invSet o) s o v (outTo (destinations v s.firing o) .scalar Flag.none x) 0 0 := by
  refine emits_done _ s o _ rfl hp _ _ _ _ ?_
  dsimp only
  rw [guarded_pass _ (by simpa using scalarError_of_isScalar hs) (by simpa using hpoison),
    show BitVec.ofNat 3 (immBits o 2 0) = _ from ofNat_immBits o 2 0,
    show BitVec.ofNat 2 (immBits o 4 3) = _ from ofNat_immBits o 4 3, h]
  rfl

theorem emits_invGet (h : frameAccess (s.coloured o.xfm) s.firing.region s.firing.tag
      (.get (o.imm.extractLsb' 0 3) (o.imm.getLsbD 3)) = (v, x)) :
    Emits (.invGet o) s o v (outTo (destinations v s.firing o) .scalar Flag.none x) 0 0 := by
  refine emits_done _ s o _ rfl hp _ _ _ _ ?_
  rw [show BitVec.ofNat 3 (immBits o 2 0) = _ from ofNat_immBits o 2 0, immBit, h]
  rfl

theorem emits_flagsGet (h : frameAccess (s.coloured o.xfm) s.firing.region s.firing.tag
      (.flagsGet (o.imm.getLsbD 0)) = (v, x)) :
    Emits (.flagsGet o) s o v (outTo (destinations v s.firing o) .scalar Flag.none x) 0 0 := by
  refine emits_done _ s o _ rfl hp _ _ _ _ ?_
  rw [immBit, h]
  rfl

theorem emits_flagsClr (h : frameAccess (s.coloured o.xfm) s.firing.region s.firing.tag
      (.flagsClr (o.imm.extractLsb' 0 6) (o.imm.getLsbD 6) (o.imm.extractLsb' 7 3)) = (v, x)) :
    Emits (.flagsClr o) s o v (passTo (destinations v s.firing o) (tokAt s.firing 0)) 0 0 := by
  refine emits_done _ s o _ rfl hp _ _ _ _ ?_
  rw [show BitVec.ofNat 6 (immBits o 5 0) = _ from ofNat_immBits o 5 0,
    show BitVec.ofNat 3 (immBits o 9 7) = _ from ofNat_immBits o 9 7, immBit, h]
  rfl

end FrameOperators

/-- Settles O11: each clause is one of the context operators' outcomes, or a frame operator by its access. -/
theorem contextAndFrameOperators : Obligations.ContextAndFrameOperators := by
  refine ⟨fun s o => ⟨?_, ?_, ⟨?_, ?_⟩, ?_, ?_⟩, fun s o hp c hc => ⟨?_, ?_, ?_, ?_, ⟨?_, ?_⟩, ?_⟩⟩
  · exact fun u t h => execCtxEnter_granted h
  · exact execCtxEnter_refused
  · exact fun hc => ⟨execCtxNext_dead hc, execCtxExit_dead hc⟩
  · exact fun c hc => ⟨execCtxNext_stale hc, execCtxExit_stale hc, execCtxNext_refused hc⟩
  · intro c hc hx hl u t ht w c' hc'
    exact (execCtxNext_granted hc hx hl ht).trans (congrArg _ (countCarry_live false hc'))
  · intro c hc hn w c' hc'
    exact (execCtxExit_intime hc hn).trans (congrArg _ (countCarry_live true hc'))
  · intro hs hpoison old new
    have haccess := emits_invSet hp hs hpoison (frameAccess_set hc _ _ _)
    refine ⟨fun hi => ⟨_, haccess, ?_⟩, fun hi => ⟨_, haccess, ?_⟩⟩
    · rw [writeFrame_slot c hi]
      rfl
    · rw [writeFrame_status c hi]
      rfl
  · intro hb
    exact emits_invGet hp (hb ▸ frameAccess_get hc _)
  · intro hb p k hcp hk
    exact emits_invGet hp (hb ▸ frameAccess_getParent hc _ hcp hk)
  · intro hb hcp
    exact emits_invGet hp (hb ▸ frameAccess_getParent_none hc _ hcp)
  · intro hb
    exact emits_flagsGet hp (hb ▸ frameAccess_flagsGet hc false)
  · intro hb
    exact ⟨_, rfl, emits_flagsGet hp (hb ▸ frameAccess_flagsGet hc true)⟩
  · exact ⟨_, rfl, emits_flagsClr hp (frameAccess_flagsClr hc _ _ _)⟩

end Sys2Proof.Machine
end

section
/-! PROOFS. PFENCE (05 R166), SPLICE (05 R167) and CMPX (05 R170). Settles O13. -/

namespace Sys2Proof.Machine

/-! ### SPLICE -/

/-- The token that SPLICE emits: its port-0 token with LAST set. -/
def lastTok (f : Firing) : Tok := { tokAt f 0 with flag := { (tokAt f 0).flag with last := true } }

/-- What SPLICE of two ports does with its image, once its operands have passed their checks. -/
def spliceAct (reads : Bool) (image : Reading) (o : Op) (u : State) (f : Firing) : Act :=
  match reads, image with
  | true, .ok _ bs => .done (spliceWith u f bs) (passTo (destinations u f o) (lastTok f)) 0 0
  | true, .fail e => .error e 0
  | _, _ => .hold

/-- The effect of a SPLICE firing that does not wait for a page of its image. -/
def spliceBody (reads : Bool) (image : Reading) (o : Op) (u : State) (f : Firing) : Act :=
  if wordPorts f.word ≠ 2 then
    guarded [dataError u f o (tokAt f 0)] [] fun _ => .done u (passTo (destinations u f o) (lastTok f)) 0 0
  else guarded [dataError u f o (tokAt f 0), scalarError (tokAt f 1)] [tokAt f 1] fun _ => spliceAct reads image o u f

theorem exec_splice_fires {s : State} {o : Op}
    (h : ∀ a, spliceReads s s.firing = true → spliceImage s s.firing ≠ .miss a) :
    exec (.splice o) s = .next (fire s o (spliceBody (spliceReads s s.firing) (spliceImage s s.firing) o)) := by
  change execSplice o s = _
  unfold execSplice
  dsimp only
  generalize spliceReads s s.firing = reads at h
  generalize spliceImage s s.firing = image at h
  cases reads with
  | false => rfl
  | true =>
    cases image with
    | ok v bs => rfl
    | miss a => exact absurd rfl (h a rfl)
    | fail e => rfl

section Splice

variable {s : State} {o : Op}

theorem spliceReads_onePort {f : Firing} (hports : wordPorts f.word ≠ 2) : spliceReads s f = false := by
  simp [spliceReads, hports]

/-- A page of the image that is missing is asked for, and the firing stays matched. -/
theorem exec_splice_miss {a : Nat} (hr : spliceReads s s.firing = true) (hi : spliceImage s s.firing = .miss a) :
    exec (.splice o) s = .next (requeue (askSplicePage s s.firing a) s.firing) := by
  change execSplice o s = _
  simp only [execSplice, hr, hi]

/-- With one port SPLICE only passes its token. -/
theorem emits_splice_onePort (hp : Performs s o.xfm) (hports : wordPorts s.firing.word ≠ 2)
    (hd : dataError (s.coloured o.xfm) s.firing o (tokAt s.firing 0) = none) :
    Emits (.splice o) s o (s.coloured o.xfm)
      (passTo (destinations (s.coloured o.xfm) s.firing o) (lastTok s.firing)) 0 0 := by
  have hr : spliceReads s s.firing = false := spliceReads_onePort hports
  refine emits_done _ s o _ (exec_splice_fires fun a h => ?_) hp _ _ _ _ ?_
  · exact absurd (hr.symm.trans h) Bool.false_ne_true
  · rw [spliceBody, if_pos hports, guarded_pass _ (by simpa using hd) (by simp)]

variable (hp : Performs s o.xfm) (hports : wordPorts s.firing.word = 2)
  (hd : dataError (s.coloured o.xfm) s.firing o (tokAt s.firing 0) = none)
  (hs : isScalar (tokAt s.firing 1) = true) (hpoison : (tokAt s.firing 1).flag.poison = false)

include hp hports hs hpoison in
/-- A performing firing of two ports reads its image unless a load is under way. -/
theorem spliceReads_twoPorts : spliceReads s s.firing = (getRegion s s.firing.region).splice.isNone := by
  obtain ⟨-, hstale, herr⟩ := hp
  have hany : (s.firing.toks.any fun t => t.kind == .error) = false := by simpa using herr
  simp [spliceReads, hports, hstale, hany, hs, hpoison]

include hports hd hs hpoison in
theorem spliceBody_twoPorts (reads : Bool) (image : Reading) :
    spliceBody reads image o (s.coloured o.xfm) s.firing = spliceAct reads image o (s.coloured o.xfm) s.firing := by
  rw [spliceBody, if_neg (fun h => h hports),
    guarded_pass _ (by simpa using ⟨hd, scalarError_of_isScalar hs⟩) (by simpa using hpoison)]

include hp hports hd hs hpoison

/-- An image that was read is checked and begins its load, or is refused; the token goes out either way. -/
theorem emits_splice_read {v : State} {bs : List Byte} (hfree : (getRegion s s.firing.region).splice = none)
    (hi : spliceImage s s.firing = .ok v bs) :
    Emits (.splice o) s o (spliceWith (s.coloured o.xfm) s.firing bs)
      (passTo (destinations (s.coloured o.xfm) s.firing o) (lastTok s.firing)) 0 0 := by
  have hr := spliceReads_twoPorts hp hports hs hpoison
  refine emits_done _ s o _ (exec_splice_fires fun a _ => by simp [hi]) hp _ _ _ _ ?_
  rw [spliceBody_twoPorts hports hd hs hpoison, hr, hfree, hi]
  rfl

theorem emitsError_splice {e : BitVec 8} (hfree : (getRegion s s.firing.region).splice = none)
    (hi : spliceImage s s.firing = .fail e) : EmitsError (.splice o) s o e 0 := by
  have hr := spliceReads_twoPorts hp hports hs hpoison
  refine emitsError_error _ s o _ (exec_splice_fires fun a _ => by simp [hi]) hp _ _ ?_
  rw [spliceBody_twoPorts hports hd hs hpoison, hr, hfree, hi]
  rfl

/-- While another load runs the firing stays matched. -/
theorem exec_splice_busy (hbusy : (getRegion s s.firing.region).splice ≠ none) :
    exec (.splice o) s = .next (requeue s s.firing) := by
  have hr : spliceReads s s.firing = false := by
    rw [spliceReads_twoPorts hp hports hs hpoison]
    simpa using Option.ne_none_iff_isSome.mp hbusy
  rw [exec_splice_fires fun a h => absurd (hr.symm.trans h) Bool.false_ne_true, fire_hold s o _ hp]
  rw [spliceBody_twoPorts hports hd hs hpoison, hr]
  rfl

end Splice

/-- An image that does not parse is refused as BADIMG. -/
theorem spliceWith_unparsed {u : State} {f : Firing} {bs : List Byte} (h : parseImage bs = none) :
    spliceWith u f bs = refuseSplice u f loadBadimg := by
  simp only [spliceWith, h]

/-- An image that parses begins its load where no refusal applies. -/
theorem spliceWith_parsed {u : State} {f : Firing} {bs : List Byte} {m : Image} (h : parseImage bs = some m) :
    spliceWith u f bs = if imageRefusal u f.region m true = 0 then beginSplice u f m
      else refuseSplice u f (imageRefusal u f.region m true) := by
  simp only [spliceWith, h]

/-- What a load that begins leaves in its region: HSINKS raised, the contexts declared, the packets and the entries to
follow. -/
theorem beginSplice_region (u : State) (f : Firing) (m : Image) :
    let r := getRegion u f.region
    let r' := getRegion (beginSplice u f m) f.region
    r'.hsinks = r.hsinks + BitVec.ofNat 32 m.nsink ∧ r'.ctxs = (declareCtxs r m.ctxs).ctxs ∧
      r'.splice = some { cluster := f.cluster, hops := m.ops.flatMap (opHop u f.region m.ops),
                         entries := m.entries.map (entryToken r) } := by
  simp only [beginSplice, getRegion_setRegion_same, and_self]

/-! ### CMPX -/

/-- CMPX cannot wait now: 256 wait in its cluster, or one waits under the same region, context and key (R170). -/
def cmpxBlocked (u : State) (f : Firing) : Bool :=
  decide (256 ≤ (getCluster u f.cluster).cmpx.length) ||
    (getCluster u f.cluster).cmpx.any fun w =>
      w.firing.region == f.region && w.firing.tag.ctx == f.tag.ctx && w.key == (tokAt f 1).payload

/-- A CMPX firing that waits in its cluster under its key, with its digest. -/
def cmpxWaits (u : State) (f : Firing) : State :=
  setCluster u f.cluster { getCluster u f.cluster with cmpx := (getCluster u f.cluster).cmpx ++
    [{ firing := f, key := (tokAt f 1).payload, digest := digestOf u f (tokAt f 0), since := u.htime }] }

/-- The digest goes to the region's partner, where it has one. -/
def cmpxSends (u v : State) (f : Firing) : State :=
  match (getRegion u f.region).twin with
  | none => v
  | some (p, _) => { v with digests := v.digests ++
      [{ region := p, die := (getRegion u f.region).dieIx (f.cluster / 512),
         cluster := (getRegion u f.region).relative (f.cluster % 512), slot := f.slot, ctx := f.tag.ctx,
         key := (tokAt f 1).payload, digest := digestOf u f (tokAt f 0) }] }

section Cmpx

variable {s : State} {o : Op} (hp : Performs s o.xfm)
  (hd : dataError (s.coloured o.xfm) s.firing o (tokAt s.firing 0) = none)
  (hs : isScalar (tokAt s.firing 1) = true) (hpoison : (tokAt s.firing 1).flag.poison = false)

include hp hd hs hpoison

theorem exec_cmpx_blocked (hb : cmpxBlocked (s.coloured o.xfm) s.firing = true) :
    exec (.cmpx o) s = .next (requeue s s.firing) := by
  change Host.Outcome.next (fire s o _) = _
  rw [fire_hold s o _ hp]
  dsimp only
  rw [guarded_pass _ (by simpa using ⟨hd, scalarError_of_isScalar hs⟩) (by simpa using hpoison)]
  exact if_pos hb

theorem exec_cmpx_waits (hb : cmpxBlocked (s.coloured o.xfm) s.firing = false) :
    exec (.cmpx o) s =
      .next (cmpxSends (s.coloured o.xfm) (cmpxWaits (s.coloured o.xfm) s.firing) s.firing) := by
  change Host.Outcome.next (fire s o _) = _
  rw [fire_later s o _ hp]
  dsimp only
  rw [guarded_pass _ (by simpa using ⟨hd, scalarError_of_isScalar hs⟩) (by simpa using hpoison)]
  refine (if_neg (ne_true_of_eq_false hb)).trans ?_
  unfold cmpxSends
  cases (getRegion (s.coloured o.xfm) s.firing.region).twin <;> rfl

end Cmpx

/-- Settles O13: each clause is one of the outcomes of PFENCE, SPLICE or CMPX. -/
theorem pfenceSpliceCmpx : Obligations.PfenceSpliceCmpx := by
  intro s o hp u f ds t last
  refine ⟨?_, fun hd => ⟨fun hports => ?_, fun hports hs hpoison => ⟨fun hfree => ⟨?_, ?_, ?_⟩, ?_⟩⟩, ?_⟩
  · exact emits_done _ s o _ rfl hp _ _ _ _ rfl
  · exact emits_splice_onePort hp hports hd
  · intro v bs hi
    have hread := emits_splice_read hp hports hd hs hpoison hfree hi
    refine ⟨fun hm => ?_, fun m hm => ⟨fun hok => ⟨?_, beginSplice_region u f m⟩, fun hrefused => ?_⟩⟩
    · rwa [spliceWith_unparsed hm] at hread
    · rwa [spliceWith_parsed hm, if_pos hok] at hread
    · rwa [spliceWith_parsed hm, if_neg hrefused] at hread
  · exact fun a hi => exec_splice_miss (by rw [spliceReads_twoPorts hp hports hs hpoison, hfree]; rfl) hi
  · exact fun e hi => emitsError_splice hp hports hd hs hpoison hfree hi
  · exact exec_splice_busy hp hports hd hs hpoison
  · intro hd hs hpoison key k clash
    refine ⟨fun hroom hclash => ?_, fun hblocked => ?_⟩
    · have hb : cmpxBlocked u f = false :=
        Bool.or_eq_false_iff.mpr ⟨decide_eq_false (Nat.not_le.mpr hroom), hclash⟩
      have hwaits := exec_cmpx_waits hp hd hs hpoison hb
      refine ⟨fun htwin => ?_, fun p prim htwin => ?_⟩ <;> rwa [cmpxSends, htwin] at hwaits
    · have hb : cmpxBlocked u f = true := by
        rw [cmpxBlocked, Bool.or_eq_true, decide_eq_true_iff]
        exact hblocked
      exact exec_cmpx_blocked hp hd hs hpoison hb

end Sys2Proof.Machine
end

section
/-! PROOFS. Two writes of one entry: the second is the one that stays. -/

namespace Sys2Proof.Machine

theorem Tab.filter_insert {α : Type} (i : Nat) (v : α) (t : Tab α) :
    (Tab.insert i v t).filter (fun e => e.1 != i) = t.filter fun e => e.1 != i := by
  induction t with
  | nil => simp [Tab.insert]
  | cons e t ih =>
    unfold Tab.insert
    split <;> simp [List.filter_cons, ih]

/-- The second of two writes of a key is the one that stays. -/
theorem Tab.set_set {α : Type} [DecidableEq α] (d v w : α) (t : Tab α) (i : Nat) :
    Tab.set d (Tab.set d t i v) i w = Tab.set d t i w := by
  have hfilter : (Tab.set d t i v).filter (fun e => e.1 != i) = t.filter fun e => e.1 != i := by
    unfold Tab.set
    split
    · rw [List.filter_filter, funext fun e => Bool.and_self _]
    · rw [Tab.filter_insert, List.filter_filter, funext fun e => Bool.and_self _]
  rw [Tab.set, hfilter, ← Tab.set]

@[simp] theorem setCluster_setCluster (s : State) (c : Nat) (k l : Cluster) :
    setCluster (setCluster s c k) c l = setCluster s c l := by
  simp only [setCluster, Tab.set_set]

end Sys2Proof.Machine
end

section
/-! PROOFS. Class-3 operators as they are issued (08 R255, R256, R277 to R279): acceptance into a queue, SGEN, SORDER and
SCANCEL. Settles O25. -/

namespace Sys2Proof.Machine

/-! ### Acceptance into a queue (R255, R256) -/

/-- The issued firing as it joins a queue. -/
def queuedFiring (s : State) (o : Op) : SFiring :=
  { newSFiring (getCluster s s.firing.cluster) s.firing (slotOf o) with error := fireError s s.firing }

theorem exec_queueOperator {s : State} {o : Op} {i : Instr}
    (hi : i ∈ [Instr.scopy o, .sarm o, .sfire o, .schain o, .sdisarm o, .sempty o, .sfill o]) :
    exec i s = .next (acceptStencil s o) := by
  simp only [List.mem_cons, List.not_mem_nil, or_false] at hi
  obtain rfl | rfl | rfl | rfl | rfl | rfl | rfl := hi <;> rfl

/-- The queue that the issued firing's word names. -/
def joinedQueue (s : State) (o : Op) : Nat := queueOf (bits s.firing.word 124 117) o

/-- The cluster once the issued firing stands at the end of its queue and is counted; nothing else in it changes. -/
def acceptedCluster (s : State) (o : Op) : Cluster :=
  let k := getCluster s s.firing.cluster
  let x := getSQueue s s.firing.cluster (joinedQueue s o)
  { k with accepted := k.accepted + 1,
           queues := Tab.set SQueue.empty k.queues (joinedQueue s o)
             { x with pending := x.pending ++ [queuedFiring s o] } }

theorem acceptStencil_full {s : State} {o : Op}
    (hfull : 16 ≤ (getSQueue s s.firing.cluster (joinedQueue s o)).pending.length) :
    acceptStencil s o = requeue s s.firing := if_pos hfull

theorem acceptStencil_room {s : State} {o : Op}
    (hroom : (getSQueue s s.firing.cluster (joinedQueue s o)).pending.length < 16) :
    acceptStencil s o = setCluster s s.firing.cluster (acceptedCluster s o) := by
  refine (if_neg (Nat.not_le.mpr hroom)).trans ?_
  simp only [setSQueue, modCluster_eq, getCluster_setCluster_same, setCluster_setCluster]
  rfl

theorem getSQueue_acceptedCluster (s : State) (o : Op) :
    getSQueue (setCluster s s.firing.cluster (acceptedCluster s o)) s.firing.cluster (joinedQueue s o) =
      let x := getSQueue s s.firing.cluster (joinedQueue s o)
      { x with pending := x.pending ++ [queuedFiring s o] } := by
  rw [getSQueue, getCluster_setCluster_same]
  exact Tab.get_set_same _ _ _ _

theorem fireError_of_handleBad {s : State} {f : Firing} {p : Nat} (hp : writtenPort f.word = some p)
    (hbad : handleBad s f.cluster (tokAt f p) = true) : fireError s f = some (stenErrorWord s f eBOUNDS 0) := by
  simp only [fireError, hp, Option.bind_some, hbad, if_true]

theorem fireError_eq_none {s : State} {f : Firing}
    (h : ∀ p, writtenPort f.word = some p → handleBad s f.cluster (tokAt f p) = false) : fireError s f = none := by
  rw [fireError, Option.bind_eq_none_iff]
  exact fun p hp => if_neg (ne_true_of_eq_false (h p hp))

/-! ### Triggers (R269) -/

theorem trigger_pass {f : Firing} (k : Act) (hs : isScalar (tokAt f 0) = true) (hpoison : (tokAt f 0).flag.poison = false) :
    trigger f k = k := by
  have hport : scalarPort f 0 = none := if_pos hs
  simp [trigger, hport, portPoison, hpoison]

/-! ### SGEN (R277) -/

/-- The addresses of a stencil's elements as SGEN gives them: those of the source, or of the destination under DST. -/
def sgenTile (f : Firing) (o : Op) (x : Stencil) : Tile :=
  plainTile .n64 (x.count / x.n0) x.n0 fun i j =>
    ((if o.imm.getLsbD 8 then x.dst (portValue f 0) (i * x.n0 + j) else x.src (portValue f 0) (i * x.n0 + j)) %
      2 ^ 64).toNat

/-- What SGEN of an armed stencil does. -/
def sgenAct (u : State) (f : Firing) (o : Op) (x : Stencil) : Act :=
  if o.imm.getLsbD 8 && x.isTiles then .error eTYPE_MISMATCH 0
  else if x.pmax < portValue f 0 ∨ 128 < x.n0 ∨ 4096 < x.count ∨ 128 < x.count / x.n0 then .error eBOUNDS 0
  else tileResult u f o (sgenTile f o x) [] false

/-- The effect of an SGEN firing on the stencil of its slot. -/
def sgenBody (o : Op) (u : State) (f : Firing) : Act :=
  trigger f (((armed u f.cluster (slotOf o)).map (sgenAct u f o)).getD (.error eTYPE_MISMATCH 0))

theorem exec_sgen (s : State) (o : Op) : exec (.sgen o) s = .next (fire (acceptNow s s.firing.cluster) o (sgenBody o)) := by
  change execSgen o s = _
  unfold execSgen sgenBody
  congr
  funext u f
  cases armed u f.cluster (slotOf o) <;> rfl

section TileResult

variable {u : State} {f : Firing} {o : Op} {t : Tile} (hshape : shapeFits t.fmt t.rows t.epr = true)
include hshape

theorem tileResult_hold (hput : putTile u f.region f.cluster f.tag t false = none) :
    tileResult u f o t [] false = .hold := by
  simp [tileResult, hshape, hput]

theorem tileResult_done {v : State} {w : Word} (hput : putTile u f.region f.cluster f.tag t false = some (v, w)) :
    tileResult u f o t [] false = .done v (outTo (destinations v f o) .tile Flag.none w) 0 0 := by
  simp only [tileResult, hshape, hput]
  rfl

end TileResult

section Sgen

variable {u : State} {f : Firing} {o : Op} {x : Stencil}

theorem sgenBody_unarmed (hs : isScalar (tokAt f 0) = true) (hpoison : (tokAt f 0).flag.poison = false)
    (hx : armed u f.cluster (slotOf o) = none) : sgenBody o u f = .error eTYPE_MISMATCH 0 := by
  rw [sgenBody, trigger_pass _ hs hpoison, hx]
  rfl

theorem sgenBody_armed (hs : isScalar (tokAt f 0) = true) (hpoison : (tokAt f 0).flag.poison = false)
    (hx : armed u f.cluster (slotOf o) = some x) : sgenBody o u f = sgenAct u f o x := by
  rw [sgenBody, trigger_pass _ hs hpoison, hx]
  rfl

/-- A stencil that sends tiles has no destination addresses. -/
theorem sgenAct_tiles (hdst : o.imm.getLsbD 8 = true) (htiles : x.isTiles = true) :
    sgenAct u f o x = .error eTYPE_MISMATCH 0 := by
  simp [sgenAct, hdst, htiles]

/-- A side that has addresses. -/
theorem sgenAct_addresses (haddr : o.imm.getLsbD 8 = false ∨ x.isTiles = false) :
    sgenAct u f o x =
      if x.pmax < portValue f 0 ∨ 128 < x.n0 ∨ 4096 < x.count ∨ 128 < x.count / x.n0 then .error eBOUNDS 0
      else tileResult u f o (sgenTile f o x) [] false := by
  refine if_neg ?_
  obtain h | h := haddr <;> rw [h] <;> simp

theorem sgenAct_result (haddr : o.imm.getLsbD 8 = false ∨ x.isTiles = false) (hp : portValue f 0 ≤ x.pmax)
    (hn0 : x.n0 ≤ 128) (hcount : x.count ≤ 4096) (hrows : x.count / x.n0 ≤ 128) :
    sgenAct u f o x = tileResult u f o (sgenTile f o x) [] false :=
  (sgenAct_addresses haddr).trans (if_neg (by omega))

theorem shapeFits_sgenTile (h : shapeFits .n64 (x.count / x.n0) x.n0 = true) :
    shapeFits (sgenTile f o x).fmt (sgenTile f o x).rows (sgenTile f o x).epr = true := by
  simpa [sgenTile, plainTile, Tile.rows] using h

end Sgen

/-! ### SORDER (R278) -/

/-- The cluster once an SORDER has noted the open firings of its queues. -/
def sorderCluster (u : State) (f : Firing) (o : Op) : Cluster :=
  let k := getCluster u f.cluster
  let opened := openFirings k fun q => o.imm.getLsbD q
  { k with accepted := k.accepted + 1,
           notes := if opened = [] then k.notes else k.notes ++
             [{ no := k.accepted, onto := o.imm.extractLsb' 4 4, noted := opened, region := f.region, slot := f.slot,
                tag := f.tag }] }

section Sorder

variable {s : State} {o : Op} (hp : Performs s o.xfm) (hs : isScalar (tokAt s.firing 0) = true)
  (hpoison : (tokAt s.firing 0).flag.poison = false)
include hp hs hpoison

theorem emits_sorder :
    Emits (.sorder o) s o (setCluster (s.coloured o.xfm) s.firing.cluster (sorderCluster (s.coloured o.xfm) s.firing o))
      (passTo (destinations (s.coloured o.xfm) s.firing o) (tokAt s.firing 0)) 0 0 := by
  refine emits_done _ s o _ rfl hp _ _ _ _ ?_
  rw [trigger_pass _ hs hpoison]
  simp only [List.isEmpty_iff]
  rfl

end Sorder

/-! ### SCANCEL (R279) -/

/-- The firings that an SCANCEL waits for: those it takes from its queue's pending list, and an issued one it stops. -/
def scancelLeft (u : State) (f : Firing) (o : Op) : List Nat :=
  let x := getSQueue u f.cluster (immBits o 4 3)
  (x.pending.filter (cancels o)).map SFiring.no ++ ((x.issued.filter (cancels o)).map SFiring.no).toList

/-- The cluster once an SCANCEL has acted on its queue. -/
def scancelCluster (u : State) (f : Firing) (o : Op) : Cluster :=
  let k := getCluster u f.cluster
  let q := immBits o 4 3
  let x := Tab.get SQueue.empty k.queues q
  let hit := x.pending.filter (cancels o)
  dropNoted
    { k with queues := Tab.set SQueue.empty k.queues q
               { x with pending := x.pending.filter (fun y => !cancels o y),
                        issued := x.issued.map fun y => if cancels o y then { y with cancelled := true } else y },
             accepted := k.accepted + 1, finishing := k.finishing ++ hit.map fun y => (q, cancelled u y) }
    (hit.map SFiring.no)

section Scancel

variable {s : State} {o : Op} (hp : Performs s o.xfm) (hs : isScalar (tokAt s.firing 0) = true)
  (hpoison : (tokAt s.firing 0).flag.poison = false)
include hp hs hpoison

theorem emits_scancel (hleft : scancelLeft (s.coloured o.xfm) s.firing o = []) :
    Emits (.scancel o) s o (setCluster (s.coloured o.xfm) s.firing.cluster (scancelCluster (s.coloured o.xfm) s.firing o))
      (passTo (destinations (s.coloured o.xfm) s.firing o) (tokAt s.firing 0)) 0 0 := by
  refine emits_done _ s o _ rfl hp _ _ _ _ ?_
  rw [trigger_pass _ hs hpoison]
  exact if_pos (List.isEmpty_iff.mpr hleft)

theorem exec_scancel_waits (hleft : scancelLeft (s.coloured o.xfm) s.firing o ≠ []) :
    let u := s.coloured o.xfm
    exec (.scancel o) s = .next (setCluster u s.firing.cluster
      { scancelCluster u s.firing o with
        cancels := (getCluster u s.firing.cluster).cancels ++
          [{ firing := s.firing, left := scancelLeft u s.firing o }] }) := by
  change Host.Outcome.next (fire s o _) = _
  refine congrArg _ (fire_later s o _ hp _ ?_)
  dsimp only
  rw [trigger_pass _ hs hpoison]
  exact if_neg fun h => hleft (List.isEmpty_iff.mp h)

end Scancel

/-! ### The statement -/

/-- Settles O25: acceptance into a queue, and the outcomes of SGEN, SORDER and SCANCEL. -/
theorem stencilOperatorsAreAccepted : Obligations.StencilOperatorsAreAccepted := by
  constructor
  · intro s o f k opc q x i hi
    refine ⟨fun hroom => ?_, fun hfull => (exec_queueOperator hi).trans (congrArg _ (acceptStencil_full hfull))⟩
    have hcluster := getCluster_setCluster_same s f.cluster (acceptedCluster s o)
    refine ⟨_, queuedFiring s o, (exec_queueOperator hi).trans (congrArg _ (acceptStencil_room hroom)),
      getSQueue_acceptedCluster s o, rfl, rfl, rfl, rfl, fun p => fireError_of_handleBad, fireError_eq_none, ?_, ?_⟩
    · exact congrArg Cluster.accepted hcluster
    · exact congrArg (setCluster s f.cluster) hcluster.symm
  · intro s o f a t hs hpoison
    have hsgen := exec_sgen s o
    refine ⟨fun hp hx => ?_, fun hp x hx => ?_,
      fun hp => ⟨⟨_, rfl, emits_sorder hp hs hpoison⟩, emits_scancel hp hs hpoison, exec_scancel_waits hp hs hpoison⟩⟩
    · exact hsgen.trans (congrArg _ (fire_error a o _ hp _ _ (sgenBody_unarmed hs hpoison hx)))
    have hbody := sgenBody_armed hs hpoison hx
    refine ⟨fun hdst htiles => ?_, fun haddr hbounds => ?_, fun haddr hpmax hn0 hcount hrows hfits => ?_⟩
    · exact hsgen.trans (congrArg _ (fire_error a o _ hp _ _ (hbody.trans (sgenAct_tiles hdst htiles))))
    · exact hsgen.trans (congrArg _ (fire_error a o _ hp _ _ (hbody.trans ((sgenAct_addresses haddr).trans (if_pos hbounds)))))
    · have hshape := shapeFits_sgenTile (f := f) (o := o) hfits
      have hresult := hbody.trans (sgenAct_result haddr hpmax hn0 hcount hrows)
      refine ⟨fun hput => ?_, fun v w hput => ?_⟩
      · exact hsgen.trans (congrArg _ (fire_hold a o _ hp (hresult.trans (tileResult_hold hshape hput))))
      · exact hsgen.trans (congrArg _ (fire_done a o _ hp _ _ _ _ (hresult.trans (tileResult_done hshape hput))))

end Sys2Proof.Machine
end

section
/-! PROOFS. Stencil queues (08 R256, R269, R271 to R279): what a queue's next step does, by the state of its firings. -/

namespace Sys2Proof.Machine

/-! ### A firing at its issue -/

/-- A firing as its queue issues it. -/
def atIssue (s : State) (x : SFiring) : SFiring := { x with tiled := tilesNow s x }

/-- A queue with its issued firing. -/
def putIssued (s : State) (c q : Nat) (x : SFiring) : State :=
  setSQueue s c q { getSQueue s c q with issued := some x }

/-- A firing that completes as its queue issues it. -/
def completeIssued (s : State) (c q : Nat) (x : SFiring) : State := completeFiring (putIssued s c q x) c q x

/-- A firing that its queue issues as an error firing. -/
def failIssued (s : State) (c q : Nat) (x : SFiring) (w : Word) : State :=
  completeIssued s c q { x with error := some w }

/-- What an issued operator without error does: SARM and copies go on, the others act and complete. -/
def performIssued (s : State) (c q : Nat) (x : SFiring) : State :=
  match sOpc x with
  | 0x01 => sarmStep (putIssued s c q x) c q x
  | 0x03 => (match performSchain s x with
    | .ok s => completeIssued s c q x
    | .error code => failIssued s c q x (stenErrorWord s x.firing code 0))
  | 0x04 => completeIssued (performSdisarm s x) c q x
  | 0x05 => completeIssued (performSempty s x).1 c q { x with done := (performSempty s x).2.toNat }
  | _ => putIssued s c q x

/-- The checks of an issue once its operands hold no error and no poison (R255, R261, R269). -/
def issueChecked (s : State) (c q : Nat) (x : SFiring) : State :=
  if x.error.isSome then completeIssued s c q x
  else match issueErrorOf s x with
    | some code => failIssued s c q x (stenErrorWord s x.firing code 0)
    | none =>
      if x.firing.stale || sourceLines s x == .stale then failIssued s c q x (stenErrorWord s x.firing eREPLAY_STALE 0)
      else performIssued s c q x

section Operators

variable {s : State} {c q : Nat} {x : SFiring}

theorem performIssued_sarm (h : sOpc x = 0x01) : performIssued s c q x = sarmStep (putIssued s c q x) c q x := by
  simp only [performIssued, h]

theorem performIssued_schain {v : State} (h : sOpc x = 0x03) (hv : performSchain s x = .ok v) :
    performIssued s c q x = completeIssued v c q x := by
  simp only [performIssued, h, hv]

theorem performIssued_schain_error {e : BitVec 8} (h : sOpc x = 0x03) (he : performSchain s x = .error e) :
    performIssued s c q x = failIssued s c q x (stenErrorWord s x.firing e 0) := by
  simp only [performIssued, h, he]

theorem performIssued_sdisarm (h : sOpc x = 0x04) :
    performIssued s c q x = completeIssued (performSdisarm s x) c q x := by
  simp only [performIssued, h]

theorem performIssued_sempty (h : sOpc x = 0x05) :
    performIssued s c q x =
      completeIssued (performSempty s x).1 c q { x with done := (performSempty s x).2.toNat } := by
  simp only [performIssued, h]

/-- A copy (SCOPY, SFIRE, SFILL) stays issued for its elements. -/
theorem performIssued_copy (h : sOpc x = 0x00 ∨ sOpc x = 0x02 ∨ sOpc x = 0x06) :
    performIssued s c q x = putIssued s c q x := by
  obtain h | h | h := h <;> simp only [performIssued, h]

end Operators

section Checks

variable {s : State} {c q : Nat} {x : SFiring}

theorem issueChecked_error (h : x.error.isSome = true) : issueChecked s c q x = completeIssued s c q x := if_pos h

variable (herror : x.error = none)
include herror

theorem issueChecked_refused {e : BitVec 8} (he : issueErrorOf s x = some e) :
    issueChecked s c q x = failIssued s c q x (stenErrorWord s x.firing e 0) := by
  simp [issueChecked, herror, he]

theorem issueChecked_stale (he : issueErrorOf s x = none) (hstale : x.firing.stale = true ∨ sourceLines s x = .stale) :
    issueChecked s c q x = failIssued s c q x (stenErrorWord s x.firing eREPLAY_STALE 0) := by
  simp [issueChecked, herror, he, hstale]

theorem issueChecked_pass (he : issueErrorOf s x = none) (hfresh : x.firing.stale = false)
    (hlines : sourceLines s x ≠ .stale) : issueChecked s c q x = performIssued s c q x := by
  simp [issueChecked, herror, he, hfresh, hlines]

end Checks

section Issue

variable {s : State} {c q : Nat} {x : SFiring}

/-- An error operand completes its firing at once. -/
theorem issueFiring_errorOperand {t : Tok} (h : x.firing.toks.find? (fun t => t.kind == .error) = some t) :
    issueFiring s c q x = failIssued s c q (atIssue s x) t.payload := by
  simp only [issueFiring, h]
  rfl

variable (hfind : x.firing.toks.find? (fun t => t.kind == .error) = none)
include hfind

/-- A poisoned scalar purges its strand, and no SORDER waits for the firing any more. -/
theorem issueFiring_poison (h : portPoison x.firing (scalarPorts (atIssue s x)) = true) :
    issueFiring s c q x =
      modCluster (requestPurge s x.firing.region x.firing.tag) c fun k => dropNoted k [x.no] := by
  simp only [issueFiring, hfind]
  exact if_pos h

theorem issueFiring_checked (h : portPoison x.firing (scalarPorts (atIssue s x)) = false) :
    issueFiring s c q x = issueChecked s c q (atIssue s x) := by
  simp only [issueFiring, hfind]
  exact if_neg (ne_true_of_eq_false h)

end Issue

/-! ### A firing that its queue has issued -/

/-- A copy's next element, with the mark that follows it. -/
def copyNext (s : State) (c q : Nat) (x : SFiring) : State :=
  match performNext s q x with
  | .next u z =>
    if z.next = x.next then putStep s c q (.next u z)
    else (match sendMark u z x.next with
      | none => s
      | some (v, w) => putStep s c q (.next v w))
  | r => putStep s c q r

/-- The next step of an issued firing. -/
def advanceIssued (s : State) (c q : Nat) (x : SFiring) : State :=
  if x.held.isSome then s
  else if x.error.isSome || (x.cancelled && !x.begun) then completeFiring s c q x
  else if sOpc x = 1 then sarmStep s c q x
  else if x.cancelled then putStep s c q (performNext s q x)
  else if x.tile.isSome || (inTiles s x && decide (x.next < elemCount s x)) then s
  else if elemCount s x ≤ x.next then afterLast s c q x
  else copyNext s c q x

section Advance

variable {s : State} {c q : Nat} {x : SFiring}

theorem copyNext_unmarked {u : State} {z : SFiring} (h : performNext s q x = .next u z) (hnext : z.next ≠ x.next)
    (hmark : sendMark u z x.next = none) : copyNext s c q x = s := by
  simp only [copyNext, h, hnext, hmark, if_false]

theorem copyNext_marked {u v : State} {z w : SFiring} (h : performNext s q x = .next u z) (hnext : z.next ≠ x.next)
    (hmark : sendMark u z x.next = some (v, w)) : copyNext s c q x = modIssued v c q fun _ => w := by
  simp only [copyNext, h, hnext, hmark, if_false, putStep]

theorem copyNext_held {u : State} {z : SFiring} (h : performNext s q x = .held u z) :
    copyNext s c q x = modIssued u c q fun _ => z := by
  simp only [copyNext, h, putStep]

/-- A page fault holds the firing. -/
theorem advanceIssued_held (h : x.held.isSome = true) : advanceIssued s c q x = s := if_pos h

variable (hheld : x.held = none)
include hheld

theorem advanceIssued_completes (h : x.error.isSome = true ∨ (x.cancelled = true ∧ x.begun = false)) :
    advanceIssued s c q x = completeFiring s c q x := by
  simp [advanceIssued, hheld, h]

variable (herror : x.error = none)
include herror

theorem advanceIssued_sarm (hlive : x.cancelled = false ∨ x.begun = true) (h : sOpc x = 0x01) :
    advanceIssued s c q x = sarmStep s c q x := by
  have hgoes : ¬(x.cancelled = true ∧ x.begun = false) := by rcases hlive with h | h <;> simp [h]
  simp [advanceIssued, hheld, herror, hgoes, h]

/-- R279: a cancelled copy performs only the element that a page fault held. -/
theorem advanceIssued_cancelled (hcancelled : x.cancelled = true) (hbegun : x.begun = true) (h : sOpc x ≠ 0x01) :
    advanceIssued s c q x = putStep s c q (performNext s q x) := by
  simp [advanceIssued, hheld, herror, hcancelled, hbegun, h]

variable (hcancelled : x.cancelled = false) (hopc : sOpc x ≠ 0x01) (htile : x.tile = none) (hin : inTiles s x = false)
include hcancelled hopc htile hin

theorem advanceIssued_afterLast (h : elemCount s x ≤ x.next) : advanceIssued s c q x = afterLast s c q x := by
  simp [advanceIssued, hheld, herror, hcancelled, hopc, htile, hin, h]

theorem advanceIssued_copyNext (h : x.next < elemCount s x) : advanceIssued s c q x = copyNext s c q x := by
  simp [advanceIssued, hheld, herror, hcancelled, hopc, htile, hin, Nat.not_le.mpr h]

end Advance

/-! ### A queue's step -/

/-- The machine once the firings that have left a queue have sent their last tokens. -/
def sentLast (s : State) (c q : Nat) : State := finishCancels (finishQueue s c q) c

/-- A queue's oldest pending firing stays where it is: its region is stopped, an SORDER holds it back, or its source
tile's lines are not full. -/
def heldBack (s : State) (c q : Nat) (x : SFiring) : Bool :=
  isStopped s x.firing.region || orderedBack (getCluster s c) q x || sourceLines s x == .waiting

theorem heldBack_iff {s : State} {c q : Nat} {x : SFiring} : heldBack s c q x = true ↔
    isStopped s x.firing.region = true ∨ orderedBack (getCluster s c) q x = true ∨ sourceLines s x = .waiting := by
  simp [heldBack, or_assoc]

theorem heldBack_eq_false {s : State} {c q : Nat} {x : SFiring} (hstopped : isStopped s x.firing.region = false)
    (hordered : orderedBack (getCluster s c) q x = false) (hlines : sourceLines s x ≠ .waiting) :
    heldBack s c q x = false := by
  simp [heldBack, hstopped, hordered, hlines]

/-- A queue's step on its own firings. -/
def moveQueue (s : State) (c q : Nat) : State :=
  match (getSQueue s c q).issued with
  | some x => advanceIssued s c q x
  | none => match (getSQueue s c q).pending with
    | [] => s
    | x :: rest => if heldBack s c q x then s
      else issueFiring (setSQueue s c q { getSQueue s c q with pending := rest }) c q x

theorem exec_stencilQueueIssue (s : State) (c q : Nat) :
    exec (.stencilQueueIssue c q) s = .next (moveQueue (sentLast s c q) c q) := by
  change execStencilQueueIssue c q s = _
  unfold execStencilQueueIssue moveQueue
  dsimp only [sentLast]
  cases (getSQueue (finishCancels (finishQueue s c q) c) c q).issued with
  | some x => rfl
  | none => cases (getSQueue (finishCancels (finishQueue s c q) c) c q).pending <;> rfl

section QueueStep

variable {s : State} {c q : Nat} {x : SFiring}

theorem moveQueue_issued (h : (getSQueue s c q).issued = some x) : moveQueue s c q = advanceIssued s c q x := by
  simp only [moveQueue, h]

variable (hissued : (getSQueue s c q).issued = none)
include hissued

theorem moveQueue_empty (hpending : (getSQueue s c q).pending = []) : moveQueue s c q = s := by
  simp only [moveQueue, hissued, hpending]

variable {rest : List SFiring} (hpending : (getSQueue s c q).pending = x :: rest)
include hpending

theorem moveQueue_waits (hback : heldBack s c q x = true) : moveQueue s c q = s := by
  simp only [moveQueue, hissued, hpending, hback, if_true]

theorem moveQueue_issues (hback : heldBack s c q x = false) :
    moveQueue s c q = issueFiring (setSQueue s c q { getSQueue s c q with pending := rest }) c q x := by
  simp [moveQueue, hissued, hpending, hback]

end QueueStep

end Sys2Proof.Machine
end

section
/-! PROOFS. Tile steps (08 R262 to R264): how a step starts, stops in mid tile, and sends its tile and its mark. Settles
O26. -/

namespace Sys2Proof.Machine

/-- The state and the firing with which a tile step begins: lines that are taken now, unless it has them. -/
def tileStart (s : State) (x : SFiring) (t : Stencil) (take : Option (State × Word)) : Option (State × SFiring) :=
  if x.tile.isSome then some (s, x) else
    take.map fun r => (r.1, { x with tile := some (r.2, x.next + t.tileSize), filled := [] })

theorem tileStart_begun {s : State} {x : SFiring} {t : Stencil} {take : Option (State × Word)} (h : x.tile.isSome = true) :
    tileStart s x t take = some (s, x) := if_pos h

theorem tileStart_takes {s : State} {x : SFiring} {t : Stencil} {take : Option (State × Word)} (h : x.tile = none) :
    tileStart s x t take =
      take.map fun r => (r.1, { x with tile := some (r.2, x.next + t.tileSize), filled := [] }) := by
  rw [tileStart, h]
  rfl

/-- The end of a tile step whose elements are copied: its tile or error goes out, then its mark, or the firing waits for
their colour. -/
def finishTile (c q : Nat) (t : Stencil) (s : State) (x : SFiring) : State :=
  match sendTile s x t with
  | none => modIssued s c q fun _ => x
  | some (u, y) => match sendMark u y (y.next - 1) with
    | none => modIssued s c q fun _ => x
    | some (v, z) => modIssued v c q fun _ => z

/-- A tile step that has its lines. -/
def runTile (c q : Nat) (t : Stencil) (s : State) (x : SFiring) : State :=
  match performUpTo q ((x.tile.map Prod.snd).getD 0) t.tileSize s x with
  | .next u y =>
    if y.next < (x.tile.map Prod.snd).getD 0 then modIssued u c q fun _ => y else finishTile c q t u y
  | r => putStep s c q r

section RunTile

variable {c q : Nat} {t : Stencil} {s u : State} {x y : SFiring}

theorem finishTile_unsent (h : sendTile s x t = none) : finishTile c q t s x = modIssued s c q fun _ => x := by
  simp only [finishTile, h]

theorem finishTile_unmarked (h : sendTile s x t = some (u, y)) (hmark : sendMark u y (y.next - 1) = none) :
    finishTile c q t s x = modIssued s c q fun _ => x := by
  simp only [finishTile, h, hmark]

theorem finishTile_sent {v : State} {z : SFiring} (h : sendTile s x t = some (u, y))
    (hmark : sendMark u y (y.next - 1) = some (v, z)) : finishTile c q t s x = modIssued v c q fun _ => z := by
  simp only [finishTile, h, hmark]

theorem runTile_paused (h : performUpTo q ((x.tile.map Prod.snd).getD 0) t.tileSize s x = .next u y)
    (hstop : y.next < (x.tile.map Prod.snd).getD 0) : runTile c q t s x = modIssued u c q fun _ => y := by
  simp only [runTile, h, hstop, if_true]

theorem runTile_finishes (h : performUpTo q ((x.tile.map Prod.snd).getD 0) t.tileSize s x = .next u y)
    (hstop : (x.tile.map Prod.snd).getD 0 ≤ y.next) : runTile c q t s x = finishTile c q t u y := by
  simp only [runTile, h, Nat.not_lt.mpr hstop, if_false]

/-- A page fault holds the firing in mid tile, with the lines it has. -/
theorem runTile_held (h : performUpTo q ((x.tile.map Prod.snd).getD 0) t.tileSize s x = .held u y) :
    runTile c q t s x = modIssued u c q fun _ => y := by
  simp only [runTile, h, putStep]

end RunTile

/-- The issued firing of a queue may take a tile step: an SFIRE whose armed stencil sends tiles, neither held, cancelled
nor in error, with a tile begun or elements left. -/
structure MayStepTile (s : State) (c q : Nat) (x : SFiring) (t : Stencil) : Prop where
  issued : (getSQueue s c q).issued = some x
  sfire : sOpc x = 0x02
  armed : armed s c x.slot = some t
  tiles : t.isTiles = true
  held : x.held = none
  live : x.cancelled = false
  sound : x.error = none
  goes : x.tile = none → x.next < t.count

section TileStep

variable {s : State} {c q : Nat} {x : SFiring} {t : Stencil} (hm : MayStepTile s c q x t)
  (take : State → SFiring → Stencil → Option (State × Word))
include hm

/-- A step that may be taken, by what it starts with. -/
theorem tileStep_eq : tileStep s c q take t.isRing =
    ((tileStart s x t (take s x t)).map fun r => runTile c q t r.1 r.2).getD s := by
  obtain ⟨hissued, hsfire, harmed, htiles, hheld, hlive, hsound, hgoes⟩ := hm
  have hnow : ¬(!t.isTiles || t.isRing != t.isRing || x.held.isSome || x.cancelled || x.error.isSome ||
      (x.tile.isNone && decide (t.count ≤ x.next))) = true := by
    simpa [htiles, hheld, hlive, hsound] using hgoes
  simp only [tileStep, hissued, hsfire, harmed, if_true]
  rw [if_neg hnow]
  cases htile : x.tile with
  | none =>
    rw [tileStart_takes htile]
    cases take s x t <;> rfl
  | some r =>
    rw [tileStart_begun (htile ▸ rfl)]
    rfl

theorem tileStep_waits (h : tileStart s x t (take s x t) = none) : tileStep s c q take t.isRing = s := by
  rw [tileStep_eq hm, h]
  rfl

theorem tileStep_starts {u : State} {z : SFiring} (h : tileStart s x t (take s x t) = some (u, z)) :
    tileStep s c q take t.isRing = runTile c q t u z := by
  rw [tileStep_eq hm, h]
  rfl

end TileStep

/-- Settles O26: each clause is one of the outcomes of a queue's step or of a tile step. -/
theorem stencilQueuesMoveOn : Obligations.StencilQueuesMoveOn := by
  constructor
  · intro s c q x s1 k y f ends
    have hends {v : State} (h : moveQueue s1 c q = v) : ends v := (exec_stencilQueueIssue s c q).trans (congrArg _ h)
    refine ⟨fun hissued hpending => hends (moveQueue_empty hissued hpending), fun rest hissued hpending => ?_,
      fun hissued => ?_⟩
    · refine ⟨fun hback => hends (moveQueue_waits hissued hpending (heldBack_iff.mpr hback)), ?_⟩
      intro hstopped hordered hlines u z put done bad
      have hback : heldBack s1 c q x = false := heldBack_eq_false hstopped hordered hlines
      have hissue {v : State} (h : issueFiring u c q x = v) : ends v :=
        hends ((moveQueue_issues hissued hpending hback).trans h)
      refine ⟨fun t ht => hissue (issueFiring_errorOperand ht), fun hfind => ⟨fun hpoison => ?_, fun hclean => ?_⟩⟩
      · exact hissue (issueFiring_poison hfind hpoison)
      have hchecked {v : State} (h : issueChecked u c q z = v) : ends v :=
        hissue ((issueFiring_checked hfind hclean).trans h)
      refine ⟨fun herror => hchecked (issueChecked_error (x := z) herror), fun herror => ⟨?_, ?_, ?_⟩⟩
      · exact fun e he => hchecked (issueChecked_refused (x := z) herror he)
      · exact fun he hstale => hchecked (issueChecked_stale (x := z) herror he hstale)
      intro he hfresh hready
      have hperform {v : State} (h : performIssued u c q z = v) : ends v :=
        hchecked ((issueChecked_pass (x := z) herror he hfresh hready).trans h)
      exact ⟨fun h => hperform (performIssued_sarm h), fun v h hv => hperform (performIssued_schain h hv),
        fun e h he => hperform (performIssued_schain_error h he), fun h => hperform (performIssued_sdisarm h),
        fun h => hperform (performIssued_sempty h), fun h => hperform (performIssued_copy h)⟩
    · have hadvance {v : State} (h : advanceIssued s1 c q x = v) : ends v :=
        hends ((moveQueue_issued hissued).trans h)
      refine ⟨fun hheld => hadvance (advanceIssued_held hheld), fun hheld => ⟨?_, ?_, ?_, ?_⟩⟩
      · exact fun h => hadvance (advanceIssued_completes hheld h)
      · exact fun herror hlive hopc => hadvance (advanceIssued_sarm hheld herror hlive hopc)
      · exact fun herror hcancelled hbegun hopc =>
          hadvance (advanceIssued_cancelled hheld herror hcancelled hbegun hopc)
      intro herror hlive hopc htile hin
      have hcopy {v : State} (h : x.next < elemCount s1 x) (hv : copyNext s1 c q x = v) : ends v :=
        hadvance ((advanceIssued_copyNext hheld herror hlive hopc htile hin h).trans hv)
      refine ⟨fun h => hadvance (advanceIssued_afterLast hheld herror hlive hopc htile hin h),
        fun h u z hz hnext => ⟨fun hmark => ?_, fun v w hmark => ?_⟩, fun h u z hz => hcopy h (copyNext_held hz)⟩
      · exact hcopy h (copyNext_unmarked hz hnext hmark)
      · exact hcopy h (copyNext_marked hz hnext hmark)
  · intro s c q x t hissued hsfire harmed htiles hheld hlive hsound hgoes steps
    have hm : MayStepTile s c q x t := ⟨hissued, hsfire, harmed, htiles, hheld, hlive, hsound, hgoes⟩
    have hsteps {i : Instr} {ring : Bool} {ok : Prop} {take : Option (State × Word)}
        (fetch : State → SFiring → Stencil → Option (State × Word))
        (hi : exec i s = .next (tileStep s c q fetch ring)) (hfetch : ok → fetch s x t = take) : steps i ring ok take := by
      intro hring hok
      subst hring
      obtain rfl := hfetch hok
      have hends {v : State} (h : tileStep s c q fetch t.isRing = v) : exec i s = .next v := hi.trans (congrArg _ h)
      refine ⟨fun h => hends (tileStep_waits hm fetch h), fun u z h => ?_⟩
      intro stop r
      have hstart {v : State} (hv : runTile c q t u z = v) : exec i s = .next v :=
        hends ((tileStep_starts hm fetch h).trans hv)
      refine ⟨fun v y hr => ⟨fun hstop => ?_, ?_⟩, ?_⟩
      · exact hstart (runTile_paused hr hstop)
      · intro hstop
        have hfinish {w : State} (h : finishTile c q t v y = w) : exec i s = .next w :=
          hstart ((runTile_finishes hr hstop).trans h)
        exact ⟨fun h => hfinish (finishTile_unsent h), fun v1 y1 h =>
          ⟨fun hmark => hfinish (finishTile_unmarked h hmark), fun v2 y2 hmark => hfinish (finishTile_sent h hmark)⟩⟩
      · exact fun v y hr => hstart (runTile_held hr)
    exact ⟨hsteps takeStream rfl fun _ => rfl, hsteps _ rfl fun hretain => if_neg (ne_true_of_eq_false hretain),
      hsteps _ rfl fun hretain => if_pos hretain⟩

end Sys2Proof.Machine
end
